-- ==== Sys2Proof/Word.lean ====
section
/-! DEFINITION. The word types of the block. Register and address values are natural numbers kept below their width by
the operations that write them; a byte of memory is eight bits. -/

namespace Sys2Proof

/-- One byte of a memory. -/
abbrev Byte := BitVec 8

/-- An address in one memory (R17: device virtual addresses are 56 bits; physical keys are natural numbers). -/
abbrev Addr := Nat

/-- `2 ^ n`, the number of values of an n-bit field. -/
abbrev pow2 (n : Nat) : Nat := 2 ^ n

end Sys2Proof
end

