-- ==== Sys2Proof/Config.lean ====
section
/-! DEFINITION. What an implementation fixes and the spec leaves open, as constants without a body (free values), and
the fixed figures of 00_scope.md. No proof can see what a free value is. -/

namespace Sys2Proof.Config

/-- A free byte, numbered by a plain counter of the state (log 3): the output region of an op that ends with 0x0701 or
0x0702 is undefined (R454, R537). -/
opaque freeByte : Nat → BitVec 8

/-- A free 64-bit value, numbered as `freeByte` is. -/
opaque freeWord : Nat → BitVec 64

/-- The significand of a NaN written as an EXT128 partial, read as 1 where it is 0: R50 asks only that it is not zero and
that its bit 63 is 0 (log 16). -/
opaque extNan : BitVec 63

/-- The set (slice and set of R270) in which a 128-byte line of a tile's cache lies; the spec does not give it (log 17). -/
opaque cacheSet : Nat → Nat

/-- Whether an access to a page of a context is translated through the entry that the device has cached, or through the one that the tables
hold; the working, the access in it and the page number it. R303 leaves it open until the fence that software must issue (log 8). -/
opaque usesCached : Nat → Nat → Nat → Bool

/-- The key of the replay-protected partition, derived from the device identity; R342 does not say how (log 80). -/
opaque rpKey : BitVec 256

/-- The 64-byte header of a reel entry in memory, by the entry's shape, format and mode packed into a number; R317 does not give its
contents (log 33). -/
opaque reelHeader : Nat → BitVec 512

/-- What one decoded picture is: the tag of its unit, its status (R387), cropped size, matrix, range, depth, concealed
blocks, film grain bits, and its luma samples and interleaved chroma samples in raster order. -/
structure Picture where
  tag : Nat
  status : Nat
  width : Nat
  height : Nat
  matrix : Nat
  fullRange : Bool
  depth : Nat
  concealed : Nat
  fgBits : Nat
  fgData : Nat
  luma : List Nat
  chroma : List Nat
deriving DecidableEq, Repr, Inhabited

/-- The samples of a picture of coded size in raster order: luma, and Cb and Cr interleaved. -/
structure Planes where
  luma : List Nat
  chroma : List Nat
deriving DecidableEq, Repr, Inhabited

/-- The place of one slice or tile as the media core has parsed it (R382): its data's first byte counted from `BS_ADDR`, the
data's bytes, first coding tree block and their number, and where its parsed parameters lie in the state block. -/
structure Slice where
  offset : Nat
  bytes : Nat
  first : Nat
  count : Nat
  param : Nat
deriving DecidableEq, Repr, Inhabited

/-- One coded picture as the media core has parsed it under its codec's standard: the stream's profile, level, bit depth above 8,
chroma format (1 for 4:2:0), whether fields are coded, its layers, and whether H.264's first constraint holds; coded size, size
of a coding tree block, and cropped window; matrix coefficients where signalled, range, film grain syntax; its name among the
decoded pictures, place in display order, the pictures that it may reference and those kept after it, how many may then wait
for output, whether those that wait come out before it, whether it is shown, and a decoded picture that it shows again; its
slices, and the parsed parameters that its in-loop filters use. -/
structure PicHead where
  profile : Nat
  level : Nat
  ten : Bool
  chromaFormat : Nat
  fields : Bool
  layers : Nat
  baseline : Bool
  width : Nat
  height : Nat
  ctb : Nat
  cropX : Nat
  cropY : Nat
  cropW : Nat
  cropH : Nat
  matrix : Option Nat
  fullRange : Bool
  fgBits : Nat
  fgData : Nat
  name : Nat
  order : Int
  refs : List Nat
  keep : List Nat
  hold : Nat
  flushFirst : Bool
  shown : Bool
  again : Option Nat
  slices : List Slice
  params : Nat
deriving DecidableEq, Repr, Inhabited

/-- What parsing a unit gives: its pictures in decode order, and the state block's new contents. -/
structure Parsed where
  pictures : List PicHead
  state : List Nat
deriving DecidableEq, Repr, Inhabited

/-- One 8 × 8 luma block that the hardware has decoded: its number in raster order, the pictures that it predicts from, the
entropy bins it took, its 64 luma samples, and its 32 interleaved chroma samples. -/
structure Block where
  index : Nat
  refs : List Nat
  bins : Nat
  luma : List Nat
  chroma : List Nat
deriving DecidableEq, Repr, Inhabited

/-- What a slice or tile decodes to: its blocks in decoding order, and whether a syntax error ends them. -/
structure Sliced where
  blocks : List Block
  broken : Bool
deriving DecidableEq, Repr, Inhabited

/-- The header parsing of a codec's standard (R381): codec, state block, the byte at each place of the unit, and the unit's bytes
(log 9). -/
opaque parseUnit : Nat → List Nat → (Nat → Nat) → Nat → Parsed

/-- The decoding process of a codec's standard for one slice or tile (R381): codec, parsed parameters, picture width and height,
slice data, first coding tree block and their number, and the reference pictures by name (log 9). -/
opaque decodeSlice : Nat → List Nat → Nat × Nat → List Nat → Nat × Nat → List (Nat × Planes) → Sliced

/-- The in-loop filters of a codec's standard over a picture: codec, parsed parameters, width and height (log 9). -/
opaque loopFilter : Nat → List Nat → Nat → Nat → Planes → Planes

/-- The contents of a state block that `RESET` initialises (R383): codec, and whether for an encoder (log 9). -/
opaque mediaInit : Nat → Bool → List Nat

/-- What a frame is coded as (R391, R393): codec, 0 intra, 1 P or 2 B, q, size, 10-bit samples, and the distances in display order
of the references of both lists. -/
structure EncHead where
  codec : Nat
  kind : Nat
  q : Nat
  width : Nat
  height : Nat
  ten : Bool
  refs0 : List Int
  refs1 : List Int
deriving DecidableEq, Repr, Inhabited

/-- A 64 × 64 block of a coded frame: skipped, DC prediction with no residual, or coded as the encoder chose. -/
inductive EncBlock where
  | skip
  | dc
  | coded (syntax_ : List Nat)
deriving DecidableEq, Repr, Inhabited

/-- The encoder's choices for each 64 × 64 block (R394): head, state block, frame, and the references of both lists (log 9). -/
opaque encodeBlocks : EncHead → List Nat → Planes → List Planes → List Planes → List (List Nat)

/-- The access unit of a frame's blocks: head, state block and blocks (log 9). -/
opaque writeUnit : EncHead → List Nat → List EncBlock → List Nat

/-- The frame as a decoder reconstructs it: head, blocks, and the references of both lists (log 9). -/
opaque reconFrame : EncHead → List EncBlock → List Planes → List Planes → Planes

/-- The state block after a frame is encoded as the given bytes (log 9). -/
opaque encodeState : Nat → List Nat → List Nat → List Nat

/-- The step of q for an allowance that is not positive, where the logarithm of R393 has no value: frame bits and allowance
(log 34). -/
opaque encodeStep : Nat → Int → Nat

/-- Where in its scratch area an ING places a host decode's frames (R402); the spec does not say (log 35). -/
opaque framePlace : Nat → Nat

/-- The loss weight of a live sample's tokens, which the spec does not state (log 36). -/
opaque liveWeight : BitVec 32

/-- Whether a pair of operator signatures over a transcript verifies (R573 step 6): operator, transcript, proof (log 15). -/
opaque proofOk : Nat → List Nat → List Nat → Bool

/-- The device's answer to HELLO: nonce, public key and ciphertext, 1,217 B (R573 step 2; log 15). -/
opaque helloAnswer : Nat → List Nat → List Nat

/-- The device's proof over a transcript (R573 step 3; log 15). -/
opaque deviceProof : List Nat → List Nat

/-- The ECDH shared secret (48 B) followed by the ML-KEM shared secret (32 B) of an exchange (R574; log 15). -/
opaque sharedSecrets : List Nat → List Nat

/-- Verdict on an image's two signatures under R582: the ownership record whose keys may sign it beside the vendor's, empty where
none may, and image bytes; 0 both verify under one key set of the right authority, otherwise 1 (log 15). -/
opaque imageSigs : List Nat → List Nat → Nat

/-- The device's signatures over an attestation record (R579; log 15). -/
opaque attestSigs : List Nat → List Nat

/-- The media-core firmware within a firmware bundle's bytes, and its version; the spec gives the bundle no inner layout
(log 10). -/
opaque mediaFw : List Nat → List Nat

opaque mediaVersion : List Nat → Nat

/-- The operators that an installed configuration record's image defines, with their critical right (R576; log 10). -/
opaque recordOperators : List Nat → List (Nat × Bool)

/-- DEVICE_ID, from the on-die function (R578; log 10). -/
opaque deviceId : BitVec 64

/-- Bytes 32 to 251 of the identification EEPROM: the revision of the coolant plate, and bytes that R614 does not state
(log 10). -/
opaque eepromByte : Nat → BitVec 8

/-- Bays of the device (R12). -/
abbrev bays : Nat := 128
/-- HBM3E stacks (R12). -/
abbrev stackCount : Nat := 20
/-- Bytes of one stack: 11,444 pages of 2 MiB (R266). -/
abbrev stackBytes : Nat := 11444 * 2097152
/-- Ops in flight on the device (R441). -/
abbrev opsMax : Nat := 4096
/-- Bay-queue entries that one context may hold (R441). -/
abbrev bayQuota : Nat := 24
/-- A tensor page, 2 MiB (R17). -/
abbrev pageBytes : Nat := 2097152
/-- A reel block and a key-value page, 64 KiB (R321, R353). -/
abbrev blockBytes : Nat := 65536

end Sys2Proof.Config
end

