-- ==== Sys2Proof/Syntax.lean ====
section
/-! DEFINITION. The commands of the block: one constructor for each row of spec/opcode_table.json, with the operands that
the row's rules need. An op command names the op in flight that it advances; the others carry what arrives (log 2). -/

namespace Sys2Proof

/-- Fields of a VEC op. The spec gives VEC no descriptor layout, so the command carries the decoded fields (log 14).
`fn`: 0 EQ, 1 NE, 2 LT, 3 LE, 4 GT, 5 GE, 6 MAX, 7 MIN (R39), 8 add, 9 subtract, 10 multiply, 11 divide, 12 square root
(R38), 13 row sum, 14 row maximum (R117), 15 convert (R33, R37, R661). -/
structure VecFields where
  fn : Nat
  xFmt : Nat
  gFmt : Nat
  yFmt : Nat
  rnd : Nat
  ovf : Nat
  seed : Nat
  tag : Nat
  rows : Nat
  cols : Nat
  xAddr : Nat
  gAddr : Nat
  yAddr : Nat
  xPitch : Nat
  gPitch : Nat
  yPitch : Nat
deriving DecidableEq, Repr, Inhabited

/-- A ZelugLink flit as it arrives: the 32-byte control area (R461), the 256 B of data slots, and whether Reed-Solomon
correction failed. -/
structure Flit where
  ctrl : Nat
  data : Nat
  uncorrectable : Bool
deriving DecidableEq, Repr, Inhabited

/-- A Soune frame as it arrives: the 16-byte control area (R485), 512 B of data, corrected and uncorrectable marks. -/
structure SouneFrame where
  ctrl : Nat
  data : Nat
  corrected : Bool
  uncorrectable : Bool
deriving DecidableEq, Repr, Inhabited

/-- A fabric or tether packet (R490, R523): the 32-byte header, the CHUNK prefix and the CRC-64 it came with, and its
data bytes. -/
structure Packet where
  hdr : Nat
  pre : Nat
  data : List Nat
  crc : Nat
deriving DecidableEq, Repr, Inhabited

/-- A QOP frame (R564, R565): its transport (network port or mailbox) and its bytes. -/
structure Frame where
  net : Bool
  bytes : List Nat
deriving DecidableEq, Repr, Inhabited

/-- What a generator run did (R296). -/
structure TgRun where
  passes : Nat
  mbps : Nat
  bytes : Nat
  mismatches : List (Nat × Nat × Nat)
deriving DecidableEq, Repr, Inhabited

/-- A traffic test of one channel at start-up (R647, R648): mismatching rows of the first run, rows repaired hard and
soft, and whether the channel still fails. -/
structure ChanTest where
  chan : Nat
  rows : List Nat
  hard : Nat
  stillFails : Bool
deriving DecidableEq, Repr, Inhabited

/-- One entry of a configuration record (R563). -/
structure CfgEntry where
  index : Nat
  sub : Nat
  lock : Bool
  value : Nat
  len : Nat
deriving DecidableEq, Repr, Inhabited

/-- A configuration record whose image R582 accepted, with the operators that it defines and whether each holds the critical
right (R576; log 10). -/
structure CfgRecord where
  number : Nat
  entries : List CfgEntry
  operators : List (Nat × Bool)
deriving DecidableEq, Repr, Inhabited

/-- What the partner offers in pairing (R652, R653): identity, fabric address, whether its certificate and signature verify, its
`TWIN_STATE`, and the pages of its twin window. -/
structure PairOffer where
  id : Nat
  addr : Nat
  sigOk : Bool
  state : Nat
  pages : Nat
deriving DecidableEq, Repr, Inhabited

/-- One pair's line of a roster (R545): member number of its member 0, fabric addresses, referee pair, and marks. -/
structure RosterLine where
  member : Nat
  addr0 : Nat
  addr1 : Nat
  referee : Option Nat
  incoming : Bool
deriving DecidableEq, Repr, Inhabited

/-- A roster as PREPARE and COMMIT carry it (R545, R547): what it says of this device and of the group. -/
structure Roster where
  group : Nat
  epoch : Nat
  size : Nat
  member : Nat
  role : Nat
  primary : Nat
  token : Nat
  standin : Nat
  incoming : Bool
  lines : List RosterLine
deriving DecidableEq, Repr, Inhabited

/-- Measurements of one arbiter interval (R632, R633): VIN in mV, input power, power of all rails but the bays', and for
each bay its mean power in mW, voltage in mV and current in mA. -/
structure PowerSample where
  vinMv : Nat
  inMw : Nat
  iinMa : Nat
  bays : List (Nat × Nat × Nat)
deriving DecidableEq, Repr, Inhabited

/-- Measurements of one 1 us sample (R640, R641): energy in nJ of each bay with the array and vector beats of each context
on it, of the other rails with the bytes of each context, and of the input. -/
structure EnergySample where
  bays : List (Nat × List (Nat × Nat × Nat))
  rails : Nat
  bytes : List (Nat × Nat)
  input : Nat
deriving DecidableEq, Repr, Inhabited

/-- The commands of spec/opcode_table.json. -/
inductive Instr where
  /-- MMA (R74): Matrix product op: runs its tiles on one array of a bay and drains each tile through check, epilogue and output conversion. -/
  | mma (op : Nat)
  /-- MMG (R167): Gradient pair op: computes dX on array A, dW on array B and db from one pass over dY. -/
  | mmg (op : Nat)
  /-- MMG_INDEX_FORM (R184): MMG with INT32 X: scatters dY rows into embedding-gradient slots by index. -/
  | mmgIndexForm (op : Nat)
  /-- ATT (R136): Attention op: scores, soft maximum and weighted V over the key chunks of each query tile. -/
  | att (op : Nat)
  /-- ATG_STATISTICS (R190): ATG statistics phase: recomputes M, l and delta for each query row and writes the row records. -/
  | atgStatistics (op : Nat)
  /-- ATG_GRADIENT (R193): ATG gradient phase: computes dK and dV per key tile and scatters dQ. -/
  | atgGradient (op : Nat)
  /-- CNV (R247): Convolution op computed as a product with taps assembled by the address generator. -/
  | cnv (op : Nat)
  /-- CNT (R251): Transposed convolution op computed phase by phase. -/
  | cnt (op : Nat)
  /-- VEC (R117): Vector-unit op, including row reductions in pairwise order. -/
  | vec (op : Nat) (v : VecFields)
  /-- EVAL (R129): FUN EVAL: evaluates a table function element by element. -/
  | eval (op : Nat)
  /-- MUL (R100): FUN MUL: multiplies G by the table function of X. -/
  | mul (op : Nat)
  /-- SINCOS (R115): FUN SINCOS: writes sine and cosine of exact 64-bit angles. -/
  | sincos (op : Nat)
  /-- ROPE (R116): FUN ROPE: rotates element pairs by rotary position angles in up to three bands. -/
  | rope (op : Nat)
  /-- LOAD (R109): FUN LOAD: checks a table image, writes it to the shadow bank of all bays and exchanges banks. -/
  | tblLoad (op : Nat)
  /-- RMS (R118): Root-mean-square normalisation of each row. -/
  | rms (op : Nat)
  /-- RMS_BACKWARD (R187): RMS backward: recomputes the row statistics and writes dX and the dgamma addends. -/
  | rmsBackward (op : Nat)
  /-- SMX (R121): Soft maximum of rows with integer running maxima, optionally writing lambda. -/
  | smx (op : Nat)
  /-- UPD (R201): Optimiser update of each parameter element in the update unit beside its stack. -/
  | upd (op : Nat)
  /-- PSH (R317): Fulls rows and pushes them as a new entry on top of an OPEN reel frame. -/
  | psh (op : Nat)
  /-- POP (R319): Decodes and writes out the top entry of a reel frame. -/
  | pop (op : Nat)
  /-- MRK_OPEN (R316): Creates an OPEN, empty reel frame with a tag and a drain rank. -/
  | mrkOpen (op : Nat)
  /-- MRK_CLOSE (R316): An OPEN reel frame becomes CLOSED. -/
  | mrkClose (op : Nat)
  /-- MRK_DROP (R316): Discards a reel frame with all its resident and spilled blocks. -/
  | mrkDrop (op : Nat)
  /-- COPY (R330): MOV COPY: copies rows between any tiers. -/
  | copy (op : Nat)
  /-- FILL (R330): MOV FILL: fills destination rows with a repeated pattern. -/
  | fill (op : Nat)
  /-- SLOT_OUT (R331): MOV SLOT_OUT: converts exact-scatter slots to a float format, optionally clearing them. -/
  | slotOut (op : Nat)
  /-- PFT_RUN (R306): PFT RUN: starts a prefetch schedule, or waits while 16 schedules run. -/
  | pftRun (op : Nat)
  /-- PFT_CANCEL (R310): PFT CANCEL: cancels a running schedule or removes a waiting RUN. -/
  | pftCancel (op : Nat)
  /-- FNC (R447): Fence op: waits for earlier ops and a signal, then invalidates translations, signals and marks a step boundary. -/
  | fnc (op : Nat)
  /-- BCS (R493): Broadcast collective: copies the root's tensor to every member of a group. -/
  | bcs (op : Nat)
  /-- RDO (R492): Reduce-to-one collective: sums every member's tensor into the root. -/
  | rdo (op : Nat)
  /-- RDO_ALL (R492): RDO with ALL = 1: an all-reduce, each chunk's result broadcast to every member. -/
  | rdoAll (op : Nat)
  /-- MDC (R383): Decodes one access unit or temporal unit of a stream held in a state block. -/
  | mdc (op : Nat)
  /-- MEN (R391): Encodes one frame under rate control and appends the ready access units. -/
  | men (op : Nat)
  /-- ING (R399): Ingests a batch of samples into packed token rows with marks, weights, coordinates and a manifest. -/
  | ing (op : Nat)
  /-- ING_LIVE_ALIGNED (R418): ING with LIVE = 1: takes the epoch-aligned entries of each live stream. -/
  | ingLiveAligned (op : Nat)
  /-- ING_LIVE_STAMPED (R419): ING with LIVE = 2: takes the latest entry of each live stream without waiting. -/
  | ingLiveStamped (op : Nat)
  /-- DISPATCH (R441): The dispatcher places a context's next op into its bay or engine queue once room and limits allow. -/
  | dispatch (ctx : Nat)
  /-- OP_START (R57): A queued op starts once every earlier op has started and its units are free. -/
  | opStart (op : Nat)
  /-- OP_COMPLETE (R476): An op completes and its completion entry is written to the completion queue. -/
  | opComplete (op : Nat)
  /-- CQ_FULL_WAIT_EXPIRY (R478): The wait for room in a full completion queue expires, causing a job fault with cause 4. -/
  | cqFullWaitExpiry (ctx : Nat)
  /-- OP_WATCHDOG_EXPIRY (R453): An op stays started longer than OP_LIMIT_MS, causing a job fault with cause 3. -/
  | opWatchdogExpiry (op : Nat)
  /-- FNC_TIMEOUT (R451): A fence's signal wait expires; the context is torn down, or the fence completes with status 0x01B0. -/
  | fncTimeout (op : Nat)
  /-- SQ_DB (R475): Submission doorbell write: accepts a new producer index or ignores it. -/
  | sqDb (ctx index : Nat)
  /-- CQ_DB (R477): Completion doorbell write: accepts a new consumer index and re-arms the interrupt. -/
  | cqDb (ctx index : Nat)
  /-- MBX_DB (R482): Mailbox doorbell: copies the request frame and passes it to the management processor. -/
  | mbxDb (len : Nat)
  /-- CONTROL_WINDOW_WRITE (R473): A host write to a reserved or read-only control-window offset, or a doorbell write at the wrong size, is ignored and counted. -/
  | controlWindowWrite (offset size value : Nat)
  /-- ZL_FLIT_RECEIVE (R464): A ZelugLink flit arrives and is checked, acknowledged or NAKed for replay. -/
  | zlFlitReceive (port : Nat) (flit : Flit)
  /-- ZL_RECEIVER_DETECT (R465): Receivers or lock are detected on a ZelugLink port, advancing its training state. -/
  | zlReceiverDetect (port lanes : Nat)
  /-- ZL_LINK_STATE_TIMEOUT (R465): A ZelugLink training or recovery state reaches its time limit. -/
  | zlLinkStateTimeout (port : Nat)
  /-- HOST_READ_COMPLETION (R469): A completion or CPL_ERR arrives for a device read of host memory. -/
  | hostReadCompletion (port ttag err : Nat)
  /-- HOST_READ_TIMEOUT (R469): A host memory read receives no completion in time and its op ends with status 0x0207. -/
  | hostReadTimeout (port ttag : Nat)
  /-- BUILD (R365): Tick BUILD doorbell: executes ring commands, selects streams, allocates pages and writes the tick buffer. -/
  | build (ctx word : Nat)
  /-- TICK_COMMIT (R373): Tick COMMIT doorbell: advances passes and chunks of the tick's streams and updates deadlines. -/
  | tickCommit (ctx word : Nat)
  /-- TICK_ABORT (R374): Tick ABORT doorbell: returns the build's pages and restores the streams' state. -/
  | tickAbort (ctx word : Nat)
  /-- CTX_CREATE (R437): CTX_CMD CREATE: reads the context record and makes the context ACTIVE. -/
  | ctxCreate (sess : Nat)
  /-- KILL (R437): CTX_CMD KILL: tears down an ACTIVE context with cause 1. -/
  | kill (sess : Nat)
  /-- RESTART (R437): CTX_CMD RESTART: empties a FAULTED context's queues, re-reads its record and makes it ACTIVE. -/
  | restart (sess : Nat)
  /-- DESTROY (R437): CTX_CMD DESTROY: the context becomes FREE. -/
  | destroy (sess : Nat)
  /-- PFT_GATE_MET (R308): The gate of the current schedule entry is met and its copy starts. -/
  | pftGateMet (ctx sched : Nat)
  /-- PFT_COPY_COMPLETE (R309): A schedule entry's copy completes, releasing the ops held for its layer. -/
  | pftCopyComplete (ctx sched entry : Nat)
  /-- PFT_HOLD_LIMIT (R310): An op held by a schedule reaches the hold limit and the schedule is cancelled. -/
  | pftHoldLimit (op : Nat)
  /-- REEL_SPILL (R322): The reel engine spills the resident block that comes last in the expected pop order. -/
  | reelSpill (ctx bay : Nat)
  /-- REEL_FETCH (R322): The reel engine fetches a spilled block back and checks its CRC-64. -/
  | reelFetch (ctx bay : Nat) (bad1 bad2 : Bool)
  /-- REEL_WAIT_LIMIT (R324): A push waits too long for space; the PSH fails and its frame becomes BROKEN. -/
  | reelWaitLimit (op : Nat)
  /-- CACHE_FLUSH (R276): A write of 1 to CACHE_FLUSH writes back every dirty sector. -/
  | cacheFlush (value : Nat)
  /-- TG_START (R295): TG_CTRL START starts the traffic generator and checker on a channel. -/
  | tgStart (sess value : Nat)
  /-- TG_STOP (R295): TG_CTRL STOP stops the generator at the end of the current burst. -/
  | tgStop (sess value : Nat)
  /-- TG_RUN_COMPLETE (R296): A generator run ends and its status and mismatch log are set. -/
  | tgRunComplete (chan : Nat) (run : TgRun)
  /-- PATROL_SCRUB (R294): Patrol scrub reads a sector, writes back corrected data and names rows for repair. -/
  | patrolScrub (sector severity : Nat) (lastOfPass : Bool)
  /-- FLASH_RELOCATION (R339): The translation layer relocates a block's units and switches their map entries. -/
  | flashRelocation (block : Nat)
  /-- FLASH_WEAR_LEVELLING (R338): The translation layer moves cold units onto worn blocks when erase counts spread too far. -/
  | flashWearLevelling (cold worn : Nat)
  /-- TBL_OWNER_WRITE (R113): A change of a table slot's owner empties both banks and cancels any LOAD in progress. -/
  | tblOwnerWrite (sess slot value : Nat)
  /-- WID_TABLE_WRITE (R217): A write to WID_TABLE or WID_LAYERS resets the context's layer states to NARROW. -/
  | widTableWrite (sub value : Nat)
  /-- SERVE_REC_WRITE (R350): A write of SERVE_REC reads the serving record and takes ownership of the pools. -/
  | serveRecWrite (value : Nat)
  /-- HBM_REGION_WRITE (R268): A write of an HBM region, checked alone at staging and as a set at the commit's safe point. -/
  | hbmRegionWrite (region value : Nat)
  /-- TWIN_WINDOW_WRITE (R325): A write of the twin window reserves HBM3E for the partner's spill. -/
  | twinWindowWrite (sub value : Nat)
  /-- CKS_INJECT_WRITE (R96): Arms a fault injection into the next exact-path tile check. -/
  | cksInjectWrite (sess value : Nat)
  /-- PORT_ENABLE (R488): Writing PORT_ENABLE disables a Soune port or returns it to DETECT. -/
  | portEnable (port value : Nat)
  /-- UNPAIR (R554): TWIN_CMD UNPAIR: the twin becomes UNPAIRED, discards mirrors and frees its twin window. -/
  | unpair (sess : Nat)
  /-- DICT_WRITE (R561): A write to an object dictionary entry that has no behaviour of its own. -/
  | dictWrite (sess index sub value : Nat)
  /-- READ (R566): QOP READ returns an object's value or segment. -/
  | qopRead (frame : Frame)
  /-- WRITE (R566): QOP WRITE applies or stages a write to an object after the checks of R561. -/
  | qopWrite (frame : Frame)
  /-- BEGIN (R568): QOP BEGIN opens a transaction. -/
  | qopBegin (frame : Frame)
  /-- COMMIT (R570): QOP COMMIT requests that a transaction's staged writes be applied. -/
  | qopCommit (frame : Frame)
  /-- COMMIT_SAFE_POINT (R570): At the safe point the device checks and applies every staged write of a committed transaction. -/
  | commitSafePoint (txn : Nat)
  /-- ROLLBACK (R571): QOP ROLLBACK discards a transaction's staged writes. -/
  | qopRollback (frame : Frame)
  /-- TXN_EXPIRY (R571): A transaction idle for 5 s rolls back by itself. -/
  | txnExpiry (txn : Nat)
  /-- HELLO (R573): QOP HELLO opens a PENDING session and answers with key exchange material. -/
  | qopHello (frame : Frame)
  /-- KEYX (R573): QOP KEYX verifies the operator proof and makes the session OPEN. -/
  | qopKeyx (frame : Frame)
  /-- CLOSE (R577): QOP CLOSE ends a session and rolls back its transaction. -/
  | qopClose (frame : Frame)
  /-- SESSION_PENDING_EXPIRY (R573): A session PENDING for more than 10 s ends. -/
  | sessionPendingExpiry (sess : Nat)
  /-- SESSION_IDLE_EXPIRY (R577): A session with no accepted frame for SESSION_IDLE_S ends. -/
  | sessionIdleExpiry (sess : Nat)
  /-- LOG_READ (R587): QOP LOG_READ returns consecutive kept event-log entries. -/
  | logRead (frame : Frame)
  /-- ATTEST (R579): QOP ATTEST writes a signed attestation record. -/
  | attest (frame : Frame)
  /-- MGR (R566): QOP MGR carries a group-management message. -/
  | mgr (frame : Frame)
  /-- FW_STAGE (R583): A segment written to FW_STAGE fills the slot that is not running. -/
  | fwStage (sess offset : Nat) (bytes : List Nat)
  /-- VERIFY (R582): FW_CMD VERIFY checks the staged image; the slot becomes VERIFIED or REJECTED. -/
  | fwVerify (sess : Nat)
  /-- ACTIVATE (R583): FW_CMD ACTIVATE sets a bundle slot to TRIAL or installs a record. -/
  | fwActivate (sess : Nat)
  /-- CONFIRM (R583): FW_CMD CONFIRM makes the TRYING slot ACTIVE and raises RB_COUNTER. -/
  | fwConfirm (sess : Nat)
  /-- DISCARD (R583): FW_CMD DISCARD returns a STAGING, VERIFIED or TRIAL slot to EMPTY. -/
  | fwDiscard (sess : Nat)
  /-- RESET_WARM (R656): RESET_CMD 1 starts a WARM reset 1 ms after the response. -/
  | resetWarm (sess : Nat)
  /-- RESET_HARD (R656): RESET_CMD 2 starts a HARD reset 1 ms after the response. -/
  | resetHard (sess : Nat)
  /-- BT_CMD (R658): Starts the self-tests of R650 on one bay. -/
  | btCmd (sess : Nat)
  /-- BAY_TEST_COMPLETE (R658): A bay test ends and BT_RESULT is set. -/
  | bayTestComplete (bay result : Nat)
  /-- LB_START (R659): LB_CTRL START begins a loopback run on a port. -/
  | lbStart (sess value : Nat)
  /-- LB_RUN_END (R659): A loopback run ends, its results are kept, and the port returns to DETECT. -/
  | lbRunEnd (port bits errors worstLane : Nat)
  /-- LOG_FLUSH (R586): Waiting event-log entries are written to management flash in SEQ order. -/
  | logFlush (count : Nat)
  /-- SENSOR_SAMPLE (R589): A temperature sensor is sampled and checked against its warning and trip limits. -/
  | sensorSample (sensor : Nat) (temp : Int)
  /-- MGMT_WATCHDOG_EXPIRY (R558): The 100 ms management watchdog expires, raising a hardware fault. -/
  | mgmtWatchdogExpiry
  /-- LOCKSTEP_ERROR (R557): The two management processors differ at a retired instruction, raising a hardware fault. -/
  | lockstepError
  /-- PTP_MESSAGE (R591): A PTP message is time-stamped and used to discipline the timebase. -/
  | ptpMessage (port : Nat) (offset : Int)
  /-- PTP_HOLDOVER (R592): Sync messages stop for 3 intervals and the clock enters HOLDOVER. -/
  | ptpHoldover
  /-- ARBITER_INTERVAL (R632): Every 10 us the arbiter forms its budget, grants bay voltages and moves the rails. -/
  | arbiterInterval (m : PowerSample)
  /-- BAY_CURRENT_LIMIT (R637): A bay's current crosses its ceiling and its beat requests are delayed. -/
  | bayCurrentLimit (bay current : Nat)
  /-- VIN_DIP (R605): VIN dips below 48 V but stays above the stop limits; the dip is counted. -/
  | vinDip (mv : Nat)
  /-- VIN_UNDERVOLTAGE (R605): VIN stays below 42 V for 50 us and the module stops its regulators. -/
  | vinUndervoltage (mv ns : Nat)
  /-- VIN_OVERVOLTAGE (R605): VIN stays above 57 V for 10 us and the module stops its regulators. -/
  | vinOvervoltage (mv ns : Nat)
  /-- RAIL_FAULT (R606): A rail stays out of its window for 5 us, raising a hardware fault. -/
  | railFault (rail ns : Nat)
  /-- THERM_TRIP_TIMEOUT (R618): THERM_TRIP_N stays asserted for 500 ms and the module stops its regulators. -/
  | thermTripTimeout
  /-- PWR_EN_ASSERT (R616): PWR_EN is asserted and the module's regulators start. -/
  | pwrEnAssert
  /-- PWR_EN_REMOVE (R617): PWR_EN falls; the device enters reset and the regulators stop. -/
  | pwrEnRemove
  /-- MOD_RST_N_ASSERT (R617): MOD_RST_N goes to 0 or PWR_GOOD goes low and the device enters reset. -/
  | modRstNAssert (pwrGoodLow : Bool)
  /-- MOD_RST_N_RELEASE (R644): MOD_RST_N is released and the start-up stages begin. -/
  | modRstNRelease
  /-- ALERT_ACK (R613): A falling edge on ALERT_ACK_N releases ALERT_N. -/
  | alertAck
  /-- STAGE_ROM (R644): Start-up stage 1: reconstruct the root secret and choose and check the firmware slot. -/
  | stageRom (pufOk : Bool) (slotAOk slotBOk : Bool)
  /-- STAGE_MGMT (R563): Start-up stage 2: start the management firmware and apply the configuration records. -/
  | stageMgmt (records : List CfgRecord)
  /-- STAGE_HBM (R646): Start-up stage 3: train the stacks and apply row repairs. -/
  | stageHbm (failed : Option Nat) (spareRows : List Nat)
  /-- STAGE_HBMTEST (R647): Start-up stage 4: traffic tests and zero fill on every channel. -/
  | stageHbmtest (results : List ChanTest)
  /-- STAGE_BAYTEST (R650): Start-up stage 5: self-tests of bays, caches and hub engines. -/
  | stageBaytest (failed : Option (Nat × Nat))
  /-- STAGE_FTL (R337): Start-up stage 6: recover the flash translation layer from its journal. -/
  | stageFtl (journalOk : Bool) (spare lifeUsed badBlocks : Nat)
  /-- STAGE_LINKS (R644): Start-up stage 7: train ZelugLink, Soune, tether and management ports. -/
  | stageLinks
  /-- STAGE_PAIR (R652): Start-up stage 8: the twins authenticate each other and become PAIRED. -/
  | stagePair (offer : PairOffer)
  /-- STAGE_JOIN (R654): Start-up stage 9: report the pair to the leaf manager. -/
  | stageJoin
  /-- PAIR_RETRY (R653): A refused pairing is tried again after 100 ms. -/
  | pairRetry (offer : PairOffer)
  /-- MANAGER_REPORT_RETRY (R654): An unacknowledged manager report is sent again after 1 s. -/
  | managerReportRetry
  /-- SOUNE_FRAME_RECEIVE (R487): A Soune frame arrives and is checked, acknowledged or NAKed for replay. -/
  | souneFrameReceive (port : Nat) (frame : SouneFrame)
  /-- SOUNE_PORT_TIMEOUT (R488): A Soune port's training, recovery or DOWN time limit expires. -/
  | sounePortTimeout (port : Nat)
  /-- JOIN (R498): A JOIN packet with a collective's signature is collected and forwarded. -/
  | collJoin (pkt : Packet)
  /-- GO (R499): A GO packet lets a member start moving the collective's data. -/
  | collGo (pkt : Packet)
  /-- ABORT (R509): An ABORT packet stops the collective on the receiving member. -/
  | collAbort (pkt : Packet)
  /-- CHUNK (R503): A CHUNK packet is checked, reduced or written, and acknowledged or asked to be re-sent. -/
  | chunk (pkt : Packet)
  /-- CHUNK_ACK (R503): A CHUNK_ACK lets the sender release an acknowledged chunk. -/
  | chunkAck (pkt : Packet)
  /-- RESEND (R503): A RESEND asks the sender to send a failed chunk once more. -/
  | resend (pkt : Packet)
  /-- TICKET_REQ (R494): The primary manager assigns or returns a ticket for a collective. -/
  | ticketReq (pkt : Packet)
  /-- TICKET (R494): A ticket and its PRIOR count arrive for a placed collective. -/
  | ticket (pkt : Packet)
  /-- COLLECTIVE_START (R495): A collective starts once PRIOR earlier collectives have started and fewer than 64 run. -/
  | collectiveStart (op : Nat)
  /-- SIGNAL (R449): A remote SIGNAL packet adds to a signal word when its epoch and range are valid. -/
  | remoteSignal (pkt : Packet)
  /-- WITHHELD (R503): A WITHHELD packet makes the member write nothing for that chunk. -/
  | withheld (pkt : Packet)
  /-- COLLECTIVE_WAIT_EXPIRY (R508): A collective's wait expires and the member sends ABORT with cause 0x0402. -/
  | collectiveWaitExpiry (op : Nat)
  /-- HEARTBEAT_SEND (R524): Each twin sends HEARTBEAT on every ACTIVE tether port at about 2 us intervals. -/
  | heartbeatSend
  /-- HEARTBEAT (R524): A HEARTBEAT packet arrives from the partner. -/
  | heartbeat (pkt : Packet)
  /-- HEARTBEAT_INTERVAL_MISS (R524): An interval passes without a heartbeat; at the limit the tether is silent and a PROBE is sent. -/
  | heartbeatIntervalMiss
  /-- MIRROR (R529): A MIRROR packet writes mirrored sequence entries or K and V rows into the partner. -/
  | mirror (pkt : Packet)
  /-- MIRROR_ACK (R530): A MIRROR_ACK or NO_SPACE answer lets a waiting commit take effect. -/
  | mirrorAck (pkt : Packet)
  /-- FAULT (R538): A FAULT packet makes the receiver declare its partner lost. -/
  | tetherFault (pkt : Packet)
  /-- PROBE_REQUEST (R538): A PROBE request is answered with the device's TWIN_STATE. -/
  | probeRequest (pkt : Packet)
  /-- PROBE_ANSWER (R538): A PROBE answer leads to LINKLOSS, or to a declaration if the partner is FENCED. -/
  | probeAnswer (pkt : Packet)
  /-- PROBE_TIMEOUT (R538): A probe gets no answer within TWIN_PROBE_US and the partner is declared lost. -/
  | probeTimeout
  /-- DIGEST (R534): A DIGEST packet is compared word for word with the twin's own step digests. -/
  | digest (pkt : Packet)
  /-- LEAF_REPORT (R547): A leaf manager receives a declaration report and confirms the fence. -/
  | leafReport (member : Nat) (fenced : Bool)
  /-- PREPARE (R547): A member receives PREPARE with the new roster, stops starting collectives and acknowledges. -/
  | prepare (roster : Roster)
  /-- PREPARE_ACK (R547): The primary manager receives an acknowledgement of PREPARE. -/
  | prepareAck (group member : Nat)
  /-- PREPARE_TIMEOUT (R549): A member's acknowledgement misses REFORM_PREPARE_MS and it is treated as faulted. -/
  | prepareTimeout (group member : Nat)
  /-- REFORM_COMMIT (R547): A member installs the new roster and epoch and ends old collectives. -/
  | reformCommit (roster : Roster)
  /-- SYNCED (R551): A spare pair reports SYNCED, leading to a planned re-formation. -/
  | synced (group member : Nat)
  /-- BEACON_SEND (R552): A twin of the token pair sends a token beacon every TOKEN_BEACON_US. -/
  | beaconSend (group : Nat)
  /-- TOKEN_BEACON (R552): A member receives a token beacon of its group's current epoch. -/
  | tokenBeacon (group epoch : Nat)
  /-- LEASE (R552): A token-pair twin receives a lease from the primary manager. -/
  | lease (group epoch : Nat)
  /-- TOKEN_LEASE_EXPIRY (R553): No beacon arrives within TOKEN_LEASE_MS and the member halts the group. -/
  | tokenLeaseExpiry (group : Nat)
  /-- MDC_PARSE_LIMIT (R389): The media core's 2 ms parse limit for a unit expires; the unit outputs no picture. -/
  | mdcParseLimit (op : Nat)
  /-- HOST_DECODE_RESULT (R402): The device takes a host decode's non-zero result word and advances the consumer. -/
  | hostDecodeResult (op sample : Nat)
  /-- ING_DECODE_DEADLINE (R403): A sample's decode deadline expires and the sample is deferred to a carry entry. -/
  | ingDecodeDeadline (op sample : Nat)
  /-- LIVE_ALIGN_WAIT_EXPIRY (R418): The live alignment wait expires and streams without an entry are missing. -/
  | liveAlignWaitExpiry (op : Nat)
  /-- SOUNE_RECEIVER_DETECT (R488): All 4 lanes of a Soune or tether port detect a receiver or reach lock, moving the port from DETECT to TRAIN and from TRAIN to ACTIVE. -/
  | souneReceiverDetect (port lanes : Nat)
  /-- DEVICE_DECODE_COMPLETE (R404): A device decode of an ING sample completes, keeping the sample in the batch or filling its carry entry. -/
  | deviceDecodeComplete (op sample ps : Nat)
  /-- LIVE_ENTRY_PUBLISHED (R418): The host publishes a live-ring entry stamped after T, meeting an aligned ING's wait before its expiry. -/
  | liveEntryPublished (op stream : Nat)
  /-- LEASE_SEND (R552): A primary manager sends a lease to the token pair at each beacon interval. -/
  | leaseSend (group : Nat)
  /-- UNKNOWN_QCMD (R566): A QOP request with a QCMD not in the table is answered with 0x0806. -/
  | unknownQcmd (frame : Frame)
  /-- ICMPV6_ECHO (R590): The device answers an ICMPv6 echo request on a management port. -/
  | icmpv6Echo (port : Nat) (payload : List Nat)
  /-- NEIGHBOUR_DISCOVERY (R590): The device answers a neighbour-discovery message on a management port. -/
  | neighbourDiscovery (port : Nat) (target : Nat)
  /-- PWR_GOOD_RELEASE (R616): Every rail reaches regulation and PWR_GOOD is released, lifting one of the two reset holds of R617. -/
  | pwrGoodRelease
  /-- THERM_TRIP_COMPARATOR (R602): The module comparator asserts THERM_TRIP_N when sensor 389 exceeds 80 C or a regulator sensor exceeds 130 C. -/
  | thermTripComparator
  /-- CQ_MOD_EXPIRY (R477): The CQ_MOD_US moderation interval ends and a held completion interrupt is sent. -/
  | cqModExpiry (ctx : Nat)
  /-- MANAGER_REPORT_ACK (R654): The leaf manager's acknowledgement of the pair report arrives and stage 9 completes. -/
  | managerReportAck
  /-- CACHE_FLUSH_COMPLETE (R276): The last write-back of a cache flush is acknowledged and CACHE_FLUSH reads 0 again. -/
  | cacheFlushComplete
  /-- MEASUREMENT_SAMPLE (R641): Every 1 us the device samples bay, rail and input power and charges the energy to contexts or to the idle counter. -/
  | measurementSample (m : EnergySample)
deriving DecidableEq, Repr

end Sys2Proof
end

