-- ==== Sys2Proof/Machine/Bits.lean ====
section
/-! DEFINITION. Bit fields, little-endian bytes (R15), CRC-64 and CRC-32C (R660), SHA-256 and HMAC-SHA-256 (R575, R585),
and two's complement, on natural numbers. -/

namespace Sys2Proof.Machine

/-- Bits `[hi:lo]` of `x` (R15). -/
def bits (x hi lo : Nat) : Nat := (x >>> lo) % 2 ^ (hi + 1 - lo)

/-- Bit `i` of `x`. -/
def bit (x i : Nat) : Bool := x.testBit i

/-- One when the condition holds. -/
def b2n (b : Bool) : Nat := if b then 1 else 0

/-- The `n`-bit two's complement number `x` as an integer (R26). -/
def toSigned (n x : Nat) : Int := if x % 2 ^ n < 2 ^ (n - 1) then (x % 2 ^ n : Nat) else (x % 2 ^ n : Nat) - (2 ^ n : Nat)

/-- The `n`-bit two's complement form of an integer. -/
def ofSigned (n : Nat) (v : Int) : Nat := (v % (2 ^ n : Nat)).toNat

/-- The number that little-endian bytes spell (R15). -/
def leNat : List Nat → Nat
  | [] => 0
  | b :: bs => b % 256 + 256 * leNat bs

/-- The `n` little-endian bytes of `x` (R15). -/
def leBytes : Nat → Nat → List Nat
  | 0, _ => []
  | n + 1, x => x % 256 :: leBytes n (x / 256)

/-- The number that big-endian bytes spell (the published hash functions, R575). -/
def beNat (bs : List Nat) : Nat := bs.foldl (fun a b => a * 256 + b % 256) 0

/-- The `n` big-endian bytes of `x`. -/
def beBytes (n x : Nat) : List Nat := (leBytes n x).reverse

/-- `n` bits put at bit `lo` of `x` in place of what stood there. -/
def setBits (x lo n v : Nat) : Nat := x - (bits x (lo + n - 1) lo) * 2 ^ lo + (v % 2 ^ n) * 2 ^ lo

/-- The least multiple of `k` at or above `x`. -/
def roundUp (x k : Nat) : Nat := (x + k - 1) / k * k

/-- Quotient rounded up. -/
def ceilDiv (x k : Nat) : Nat := (x + k - 1) / k

/-- The least `k` with `x ≤ 2 ^ k`: ceil(log2 x). -/
def clog2 (x : Nat) : Nat := if x ≤ 1 then 0 else Nat.log2 (x - 1) + 1

/-- The number of one bits among the low `n` bits. -/
def popCount : Nat → Nat → Nat
  | 0, _ => 0
  | n + 1, x => x % 2 + popCount n (x / 2)

/-- Parity of the low `n` bits. -/
def parity (n x : Nat) : Nat := popCount n x % 2

/-- The numbers of the bits set among bits 0 to `n - 1`, ascending. -/
def bitList (n x : Nat) : List Nat := (List.range n).filter (fun i => x.testBit i)

/-- One step of a reflected CRC. -/
def crcBit (poly : Nat) : Nat → Nat → Nat
  | 0, c => c
  | n + 1, c => crcBit poly n (if c % 2 = 1 then (c / 2) ^^^ poly else c / 2)

/-- A reflected CRC of `w` bits with all-ones initial value and final XOR (R660). -/
def crcReflected (w poly : Nat) (bs : List Nat) : Nat :=
  (bs.foldl (fun c b => crcBit poly 8 (c ^^^ (b % 256))) (2 ^ w - 1)) ^^^ (2 ^ w - 1)

/-- CRC-64 of R660 (0x42F0_E1EB_A9EA_3693, reflected). -/
def crc64 (bs : List Nat) : Nat := crcReflected 64 0xC96C5795D7870F42 bs

/-- CRC-32C of R660 (0x1EDC_6F41, reflected). -/
def crc32c (bs : List Nat) : Nat := crcReflected 32 0x82F63B78 bs

/-! ## SHA-2 (R573 to R575, R579, R581, R585)

The rules name SHA-256 and SHA-384 and give no secret of their own; one construction serves both. Its constants are the leading
fraction bits of the cube and square roots of the first primes, and are computed here as such. -/

/-- The first eighty primes. -/
def primes80 : List Nat :=
  [2, 3, 5, 7, 11, 13, 17, 19, 23, 29, 31, 37, 41, 43, 47, 53, 59, 61, 67, 71] ++
  [73, 79, 83, 89, 97, 101, 103, 107, 109, 113, 127, 131, 137, 139, 149, 151, 157, 163, 167, 173] ++
  [179, 181, 191, 193, 197, 199, 211, 223, 227, 229, 233, 239, 241, 251, 257, 263, 269, 271, 277, 281] ++
  [283, 293, 307, 311, 313, 317, 331, 337, 347, 349, 353, 359, 367, 373, 379, 383, 389, 397, 401, 409]

/-- Extends `r`, whose lower bits are still clear, to the greatest number whose `k`-th power is at most `n`. -/
def rootBits (k n : Nat) : Nat → Nat → Nat
  | 0, r => r
  | b + 1, r => rootBits k n b (if (r + 2 ^ b) ^ k ≤ n then r + 2 ^ b else r)

/-- The first `w` fraction bits of the `k`-th root of a prime below 2^10. -/
def rootFraction (k w p : Nat) : Nat := rootBits k (p * 2 ^ (k * w)) (w + 5) 0 % 2 ^ w

/-- A member of the SHA-2 family: word width in bits, its rotations (two sums over the working words, two over the schedule,
each of these with its shift), the number of rounds, and the primes before those of its initial words. -/
structure Sha2 where
  width : Nat
  sumA : List Nat
  sumE : List Nat
  old : List Nat × Nat
  new : List Nat × Nat
  rounds : Nat
  skip : Nat
deriving DecidableEq, Repr, Inhabited

def sha2Short : Sha2 := ⟨32, [2, 13, 22], [6, 11, 25], ([7, 18], 3), ([17, 19], 10), 64, 0⟩
def sha2Long : Sha2 := ⟨64, [28, 34, 39], [14, 18, 41], ([1, 8], 7), ([19, 61], 6), 80, 8⟩

namespace Sha2Ops

/-- The exclusive or of a word turned right by each amount. -/
def turns (w : Nat) (x : Nat) (ns : List Nat) : Nat := ns.foldl (fun a n => a ^^^ (x / 2 ^ n + x % 2 ^ n * 2 ^ (w - n))) 0

/-- Lengthens a schedule, held latest word first, by `n` words. -/
def schedule (S : Sha2) : Nat → List Nat → List Nat
  | 0, ws => ws
  | n + 1, ws =>
    let u := ws.getD 14 0
    let v := ws.getD 1 0
    let next := (turns S.width v S.new.1 ^^^ v / 2 ^ S.new.2) + ws.getD 6 0 + (turns S.width u S.old.1 ^^^ u / 2 ^ S.old.2) + ws.getD 15 0
    schedule S n (next % 2 ^ S.width :: ws)

/-- One round over the eight working words, with the sum of its schedule word and its constant. -/
def round (S : Sha2) (v : List Nat) (kw : Nat) : List Nat :=
  match v with
  | [a, b, c, d, e, f, g, h] =>
    let t := kw + h + turns S.width e S.sumE + (g ^^^ (e &&& (f ^^^ g)))
    let u := turns S.width a S.sumA + ((a &&& (b ||| c)) ||| (b &&& c))
    [(t + u) % 2 ^ S.width, a, b, c, (t + d) % 2 ^ S.width, e, f, g]
  | other => other

/-- The chaining words after a block of sixteen words, held latest first. -/
def block (S : Sha2) (ks hs ws : List Nat) : List Nat :=
  let out := (List.zipWith (· + ·) (schedule S (S.rounds - 16) ws).reverse ks).foldl (round S) hs
  List.zipWith (fun x y => (x + y) % 2 ^ S.width) hs out

/-- Big-endian words of `n` bytes each, put in front of `acc` one after another. -/
def wordsRev (n : Nat) : Nat → List Nat → List Nat → List Nat
  | 0, _, acc => acc
  | k + 1, bs, acc => wordsRev n k (bs.drop n) (beNat (bs.take n) :: acc)

def blocks (S : Sha2) (ks : List Nat) : Nat → List Nat → List Nat → List Nat
  | 0, hs, _ => hs
  | n + 1, hs, bs => blocks S ks n (block S ks hs (wordsRev (S.width / 8) 16 bs [])) (bs.drop (2 * S.width))

end Sha2Ops

/-- The hash of a byte string: eight words. A block is 16 words, and the length in bits stands at the end of the last one, in
two words. -/
def Sha2.hash (S : Sha2) (bs : List Nat) : List Nat :=
  let unit := 2 * S.width
  let tail := S.width / 4
  let fill := roundUp (bs.length + 1 + tail) unit - (bs.length + 1 + tail)
  let padded := bs ++ [0x80] ++ List.replicate fill 0 ++ beBytes tail (8 * bs.length)
  Sha2Ops.blocks S ((primes80.take S.rounds).map (rootFraction 3 S.width)) (padded.length / unit)
    (((primes80.drop S.skip).take 8).map (rootFraction 2 S.width)) padded

/-- SHA-256 of a byte string: 32 bytes. -/
def sha256 (bs : List Nat) : List Nat := (sha2Short.hash bs).flatMap (beBytes 4)

/-- SHA-384 of a byte string: 48 bytes. -/
def sha384 (bs : List Nat) : List Nat := ((sha2Long.hash bs).take 6).flatMap (beBytes 8)

/-- HMAC (RFC 2104) over a hash with the given block, under a key no longer than the block. -/
def hmacOver (hash : List Nat → List Nat) (blockBytes : Nat) (key msg : List Nat) : List Nat :=
  let pad := fun (m : Nat) => (List.range blockBytes).map (fun i => key.getD i 0 ^^^ m)
  hash (pad 0x5C ++ hash (pad 0x36 ++ msg))

def hmac256 (key msg : List Nat) : List Nat := hmacOver sha256 64 key msg

def hmac384 (key msg : List Nat) : List Nat := hmacOver sha384 128 key msg

/-- 64 bytes of HKDF-SHA-384 (RFC 5869): salt, input key material, info. -/
def hkdf384 (salt ikm info : List Nat) : List Nat :=
  let prk := hmac384 salt ikm
  let first := hmac384 prk (info ++ [1])
  (first ++ hmac384 prk (first ++ info ++ [2])).take 64

end Sys2Proof.Machine
end

