-- ==== Sys2Proof/Machine/Num.lean ====
section
/-! DEFINITION. Values and formats of 01_number_formats.md: decoding (R23, R26), rounding and overflow (R33 to R37, R661),
stochastic rounding (R52, R53), arithmetic on special values (R38, R39), the 64-bit significands of the extended path
(R49, R50) and the exact cell (R40 to R45). A finite value is held exactly, as a sign and `m * 2 ^ e`. -/

namespace Sys2Proof.Machine

/-- A value of a float or integer format: NaN, an infinity, or exactly `(-1)^neg * m * 2^e`. -/
inductive Val where
  | nan
  | inf (neg : Bool)
  | fin (neg : Bool) (m : Nat) (e : Int)
deriving DecidableEq, Repr, Inhabited

def Val.zero : Val := .fin false 0 0
def Val.one : Val := .fin false 1 0

def Val.ofNat (n : Nat) : Val := .fin false n 0
def Val.ofInt (v : Int) : Val := .fin (decide (v < 0)) v.natAbs 0

def Val.isNan : Val → Bool
  | .nan => true
  | _ => false

def Val.isZero : Val → Bool
  | .fin _ m _ => m == 0
  | _ => false

def Val.isFinite : Val → Bool
  | .fin _ _ _ => true
  | _ => false

def Val.neg : Val → Val
  | .nan => .nan
  | .inf s => .inf (!s)
  | .fin s m e => .fin (!s) m e

def Val.abs : Val → Val
  | .nan => .nan
  | .inf _ => .inf false
  | .fin _ m e => .fin false m e

/-- `m * 2 ^ k` as a natural number when `k ≥ 0`, rounded down otherwise. -/
def shiftBy (m : Nat) (k : Int) : Nat := if k < 0 then m >>> (-k).toNat else m <<< k.toNat

def signedOf (neg : Bool) (m : Nat) : Int := if neg then -(m : Int) else m

/-- The signed multiple of `2 ^ e` that a finite value is, for an `e` at or below its own exponent. -/
def Val.scaled (x : Val) (e : Int) : Int :=
  match x with
  | .fin s m f => signedOf s (shiftBy m (f - e))
  | _ => 0

/-- Exact sum under R38; an exact zero sum of unlike zeros is +0, or −0 under RDN (IEEE 754-2019). -/
def Val.add (rnd : Nat) : Val → Val → Val
  | .nan, _ => .nan
  | _, .nan => .nan
  | .inf a, .inf b => if a = b then .inf a else .nan
  | .inf a, _ => .inf a
  | _, .inf b => .inf b
  | .fin a m e, .fin b n f =>
    let g := min e f
    let v := signedOf a (shiftBy m (e - g)) + signedOf b (shiftBy n (f - g))
    if v = 0 then .fin (if m = 0 ∧ n = 0 ∧ a = b then a else decide (rnd = 2)) 0 g
    else .fin (decide (v < 0)) v.natAbs g

def Val.sub (rnd : Nat) (x y : Val) : Val := Val.add rnd x y.neg

/-- Exact product under R38. -/
def Val.mul : Val → Val → Val
  | .nan, _ => .nan
  | _, .nan => .nan
  | .inf a, .inf b => .inf (a != b)
  | .inf a, .fin b n _ => if n = 0 then .nan else .inf (a != b)
  | .fin a m _, .inf b => if m = 0 then .nan else .inf (a != b)
  | .fin a m e, .fin b n f => .fin (a != b) (m * n) (e + f)

/-- Quotient under R38: exact where it is a short dyadic, otherwise 400 bits and a sticky bit, so that every rounding of R33
to an output format gives what rounding the exact quotient gives. -/
def Val.div : Val → Val → Val
  | .nan, _ => .nan
  | _, .nan => .nan
  | .inf _, .inf _ => .nan
  | .inf a, .fin b _ _ => .inf (a != b)
  | .fin a _ _, .inf b => .fin (a != b) 0 0
  | .fin a m e, .fin b n f =>
    if n = 0 then (if m = 0 then .nan else .inf (a != b))
    else
      let k := 400 + Nat.log2 n
      let q := (m <<< k) / n
      if (m <<< k) % n = 0 then .fin (a != b) q (e - f - k) else .fin (a != b) (2 * q + 1) (e - f - k - 1)

/-- Square root under R38, to 200 bits and a sticky bit. -/
def Val.sqrt : Val → Val
  | .nan => .nan
  | .inf true => .nan
  | .inf false => .inf false
  | .fin a m e =>
    if m = 0 then .fin a 0 0
    else if a then .nan
    else
      let k : Nat := 400 + (if (e % 2) = 0 then 0 else 1)
      let n := m <<< k
      let r := Nat.sqrt n
      if r * r = n then .fin false r ((e - k) / 2) else .fin false (2 * r + 1) ((e - k) / 2 - 1)

/-- Order of finite and infinite values (R39); NaN compares as equal here and is set aside by the callers. -/
def Val.cmp : Val → Val → Ordering
  | .inf a, .inf b => if a = b then .eq else if a then .lt else .gt
  | .inf a, _ => if a then .lt else .gt
  | _, .inf b => if b then .gt else .lt
  | .fin a m e, .fin b n f =>
    let g := min e f
    compare (signedOf a (shiftBy m (e - g))) (signedOf b (shiftBy n (f - g)))
  | _, _ => .eq

def Val.lt (x y : Val) : Bool := !x.isNan && !y.isNan && (x.cmp y == .lt)
def Val.le (x y : Val) : Bool := !x.isNan && !y.isNan && (x.cmp y != .gt)
def Val.eqv (x y : Val) : Bool := !x.isNan && !y.isNan && (x.cmp y == .eq)

/-- MAX of R39: NaN wins, and +0 against −0 gives +0. -/
def Val.max (x y : Val) : Val :=
  if x.isNan || y.isNan then .nan
  else match x.cmp y with
    | .lt => y
    | .gt => x
    | .eq => if x.isZero then (match x, y with | .fin true _ _, .fin true _ _ => x | _, _ => .zero) else x

/-- MIN of R39: NaN wins, and +0 against −0 gives −0. -/
def Val.min (x y : Val) : Val :=
  if x.isNan || y.isNan then .nan
  else match x.cmp y with
    | .lt => x
    | .gt => y
    | .eq => if x.isZero then (match x, y with | .fin false _ _, .fin false _ _ => x | _, _ => .fin true 0 0) else x

/-- Largest integer not above a finite value. -/
def Val.floor : Val → Int
  | .fin s m e =>
    if 0 ≤ e then signedOf s (m <<< e.toNat)
    else
      let k := (-e).toNat
      let q := m >>> k
      if s then -((q + b2n (decide (m % 2 ^ k ≠ 0)) : Nat) : Int) else q
  | _ => 0

/-- Least integer not below a finite value. -/
def Val.ceil (x : Val) : Int := -(Val.floor x.neg)

/-- A value times `2 ^ k`. -/
def Val.scale (x : Val) (k : Int) : Val :=
  match x with
  | .fin s m e => .fin s m (e + k)
  | y => y

/-- 1/sqrt(v) of a positive value, to 200 bits and a sticky bit. -/
def Val.rsqrt (x : Val) : Val :=
  match x with
  | .fin false m e =>
    if m = 0 then .inf false
    else
      let k0 : Int := Nat.log2 m + 400
      let kk : Int := if (k0 + e) % 2 = 0 then k0 else k0 + 1
      let r := Nat.sqrt (2 ^ kk.toNat / m)
      let h := (kk + e) / 2
      if r * r * m = 2 ^ kk.toNat then .fin false r (-h) else .fin false (2 * r + 1) (-h - 1)
  | .inf false => .zero
  | _ => .nan

/-! ## Formats -/

/-- `FMT` codes of R20. -/
def fFP32 : Nat := 0
def fBF16 : Nat := 1
def fFP16 : Nat := 2
def fE4M3 : Nat := 3
def fE5M2 : Nat := 4
def fE2M1 : Nat := 5
def fINT8 : Nat := 6
def fINT4 : Nat := 7
def fUINT4 : Nat := 8
def fCB2 : Nat := 9
def fCB4 : Nat := 10
def fINT32 : Nat := 11
def fE8M0 : Nat := 12
def fFX128 : Nat := 13
def fEXT128 : Nat := 14
def fINT64 : Nat := 15

/-- Width in bits (R20); 0 for the codes that are not allowed. -/
def fmtBits (f : Nat) : Nat := [32, 16, 16, 8, 8, 4, 8, 4, 4, 2, 4, 32, 8, 128, 128, 64].getD f 0

def isFloat (f : Nat) : Bool := f ≤ 5
def isInt (f : Nat) : Bool := f = 6 || f = 7 || f = 8 || f = 11 || f = 15

/-- Layout of a float format (R23): exponent bits, significand bits, bias, whether it has infinities, its greatest
significand and the exponent of that significand's step, and the NaN it writes. -/
structure FloatFmt where
  ebits : Nat
  mbits : Nat
  bias : Nat
  hasInf : Bool
  maxT : Nat
  maxQ : Int
  nan : Option Nat
deriving DecidableEq, Repr, Inhabited

def floatFmt (f : Nat) : FloatFmt :=
  match f with
  | 0 => ⟨8, 23, 127, true, 2 ^ 24 - 1, 104, some 0x7FC00000⟩
  | 1 => ⟨8, 7, 127, true, 2 ^ 8 - 1, 120, some 0x7FC0⟩
  | 2 => ⟨5, 10, 15, true, 2 ^ 11 - 1, 5, some 0x7E00⟩
  | 3 => ⟨4, 3, 7, false, 14, 5, some 0x7F⟩
  | 4 => ⟨5, 2, 15, true, 7, 13, some 0x7E⟩
  | _ => ⟨2, 1, 1, false, 3, 1, none⟩

/-- Range of an integer format (R26). -/
def intLo (f : Nat) : Int :=
  match f with
  | 6 => -128
  | 7 => -8
  | 8 => 0
  | 11 => -(2 ^ 31)
  | _ => -(2 ^ 63)

def intHi (f : Nat) : Int :=
  match f with
  | 6 => 127
  | 7 => 7
  | 8 => 15
  | 11 => 2 ^ 31 - 1
  | _ => 2 ^ 63 - 1

/-- The value of a float code (R23, R24). -/
def decodeFloat (F : FloatFmt) (c : Nat) : Val :=
  let s := c.testBit (F.ebits + F.mbits)
  let E := bits c (F.ebits + F.mbits - 1) F.mbits
  let M := bits c (F.mbits - 1) 0
  let top := 2 ^ F.ebits - 1
  if E = top ∧ F.hasInf then (if M = 0 then .inf s else .nan)
  else if E = top ∧ F.nan.isSome ∧ M = 2 ^ F.mbits - 1 then .nan
  else if E = 0 then .fin s M (1 - (F.bias : Int) - F.mbits)
  else .fin s (M + 2 ^ F.mbits) ((E : Int) - F.bias - F.mbits)

/-- The value of a code of any format that has values of its own (R23, R26). -/
def decodeNum (f c : Nat) : Val :=
  if isFloat f then decodeFloat (floatFmt f) c
  else if f = fUINT4 then .ofNat (c % 16)
  else if f = fE8M0 then (if c % 256 = 255 then .nan else .fin false 1 ((c % 256 : Nat) - (127 : Int)))
  else .ofInt (toSigned (fmtBits f) c)

/-! ## Rounding -/

/-- sr_bits of R53. -/
def srBits (seed tag index : Nat) : Nat :=
  let x := (seed + (tag <<< 40) + index * 0x9E3779B97F4A7C15) % 2 ^ 64
  let x := ((x ^^^ (x >>> 30)) * 0xBF58476D1CE4E5B9) % 2 ^ 64
  let x := ((x ^^^ (x >>> 27)) * 0x94D049BB133111EB) % 2 ^ 64
  let x := x ^^^ (x >>> 31)
  x >>> 32

/-- Rounds `m * 2^e` to a multiple of `2^q` under `RND` (R33, R52), with the draw `r` of R52; the multiple. -/
def roundTo (rnd : Nat) (neg : Bool) (r m : Nat) (e q : Int) : Nat :=
  if q ≤ e then shiftBy m (e - q)
  else if Nat.log2 m + 40 < (q - e).toNat then
    (if (rnd = 2 ∧ neg ∧ m ≠ 0) ∨ (rnd = 3 ∧ !neg ∧ m ≠ 0) then 1 else 0)
  else
    let sh := (q - e).toNat
    let t := m >>> sh
    let rem := m % 2 ^ sh
    let half := 2 ^ (sh - 1)
    let up :=
      match rnd with
      | 0 => decide (rem > half) || (decide (rem = half) && decide (t % 2 = 1))
      | 1 => false
      | 2 => neg && decide (rem ≠ 0)
      | 3 => !neg && decide (rem ≠ 0)
      | 4 => decide (rem ≥ half)
      | _ => decide (r < (rem <<< 32) >>> sh)
    if up then t + 1 else t

/-- What an output conversion writes: the code, and whether the element overflowed (R34), was a NaN written as +0 (R35)
or is a canonical NaN (R25). -/
structure Enc where
  code : Nat
  ovf : Bool := false
  sub : Bool := false
  nan : Bool := false
deriving DecidableEq, Repr, Inhabited

/-- The rounding controls of an op: `RND`, `OVF`, seed and tag (R33, R52), and whether −0 keeps its sign (R36). -/
structure Rnd where
  rnd : Nat := 0
  ovf : Nat := 0
  seed : Nat := 0
  tag : Nat := 0
  keepNeg : Bool := false
deriving DecidableEq, Repr, Inhabited

/-- RTZ, RDN of a positive and RUP of a negative value do not overflow in a float format (R34). -/
def towardZero (rnd : Nat) (neg : Bool) : Bool := rnd = 1 || (rnd = 2 && !neg) || (rnd = 3 && neg)

def signBit (F : FloatFmt) (neg : Bool) : Nat := if neg then 2 ^ (F.ebits + F.mbits) else 0

def maxCode (F : FloatFmt) : Nat :=
  if F.hasInf then (2 ^ F.ebits - 1) * 2 ^ F.mbits - 1
  else if F.nan.isSome then 2 ^ (F.ebits + F.mbits) - 2 else 2 ^ (F.ebits + F.mbits) - 1

/-- The infinity's conversion (R35) and the `OVF` column (R34): infinity, canonical NaN or the largest magnitude. -/
def infCode (F : FloatFmt) (ovf : Nat) (neg : Bool) : Enc :=
  if ovf = 0 ∧ F.hasInf then { code := signBit F neg + (2 ^ F.ebits - 1) * 2 ^ F.mbits }
  else if ovf = 0 ∧ F.nan.isSome then { code := F.nan.getD 0, nan := true }
  else { code := signBit F neg + maxCode F }

def encodeFloat (F : FloatFmt) (R : Rnd) (r : Nat) (x : Val) : Enc :=
  match x with
  | .nan =>
    match F.nan with
    | some c => { code := c, nan := true }
    | none => { code := 0, sub := true }
  | .inf s => infCode F (if F.hasInf then 0 else R.ovf) s
  | .fin s m e =>
    let l : Int := (Nat.log2 m : Int) + e
    let qmin : Int := 1 - (F.bias : Int) - F.mbits
    let q := max (l - F.mbits) qmin
    let t := if m = 0 then 0 else roundTo R.rnd s r m e q
    if t = 0 then { code := if R.keepNeg then signBit F s else 0 }
    else
      let t1 := if t = 2 ^ (F.mbits + 1) then 2 ^ F.mbits else t
      let q1 := if t = 2 ^ (F.mbits + 1) then q + 1 else q
      if F.maxQ < q1 ∨ (q1 = F.maxQ ∧ F.maxT < t1) then
        if towardZero R.rnd s then { code := signBit F s + maxCode F }
        else { infCode F R.ovf s with ovf := true }
      else
        let mag := if t1 < 2 ^ F.mbits then t1 else ((q1 - qmin).toNat + 1) * 2 ^ F.mbits + (t1 - 2 ^ F.mbits)
        { code := signBit F s + mag }

/-- Conversion into an integer format (R34, R35, R37). -/
def encodeInt (f : Nat) (R : Rnd) (r : Nat) (x : Val) : Enc :=
  let w := fmtBits f
  match x with
  | .nan => { code := 0, sub := true }
  | .inf s => { code := ofSigned w (if s then intLo f else intHi f) }
  | .fin s m e =>
    let v := signedOf s (if m = 0 then 0 else roundTo R.rnd s r m e 0)
    if v < intLo f then { code := ofSigned w (intLo f), ovf := true }
    else if intHi f < v then { code := ofSigned w (intHi f), ovf := true }
    else { code := ofSigned w v }

/-- Conversion into E8M0 (R661). -/
def encodeE8M0 (R : Rnd) (r : Nat) (x : Val) : Enc :=
  let bad : Enc := { code := 0xFF, nan := true }
  match x with
  | .nan => bad
  | .inf true => bad
  | .inf false => if R.ovf = 0 then bad else { code := 0xFE }
  | .fin s m e =>
    if s ∨ m = 0 then bad
    else
      let l : Int := (Nat.log2 m : Int) + e
      let rem := m - 2 ^ Nat.log2 m
      let up :=
        match R.rnd with
        | 1 => false
        | 2 => false
        | 3 => decide (rem ≠ 0)
        | 5 => decide (r < (rem <<< 32) / 2 ^ Nat.log2 m)
        | _ => decide (2 * rem ≥ 2 ^ Nat.log2 m)
      let l1 := if up then l + 1 else l
      if l1 < -127 then { code := 0 }
      else if 127 < l1 then
        if towardZero R.rnd false then { code := 0xFE }
        else if R.ovf = 0 then { code := 0xFF, ovf := true, nan := true } else { code := 0xFE, ovf := true }
      else { code := (l1 + 127).toNat }

/-- The output conversion of every op (R33 to R37, R661); `idx` is the element's position in the output (R54). -/
def encodeNum (f : Nat) (R : Rnd) (idx : Nat) (x : Val) : Enc :=
  let r := if R.rnd = 5 then srBits R.seed R.tag idx else 0
  if isFloat f then encodeFloat (floatFmt f) R r x
  else if f = fE8M0 then encodeE8M0 R r x
  else encodeInt f R r x

/-- A value rounded once to FP32 under RNE, as the units that "round to FP32" do. -/
def toFP32 (x : Val) : Val := decodeNum fFP32 (encodeNum fFP32 { keepNeg := true } 0 x).code

/-! ## Extended path -/

/-- Rounds to 64 significant bits under RNE (R49); beyond the largest extended value it is infinite, and below the least
normal one it is rounded to a multiple of that value (log 16). -/
def toExt (x : Val) : Val :=
  match x with
  | .fin s m e =>
    if m = 0 then .fin s 0 0
    else
      let l : Int := (Nat.log2 m : Int) + e
      if l < -1022 then .fin s (roundTo 0 s 0 m e (-1022)) (-1022)
      else
        let q := l - 63
        let t := roundTo 0 s 0 m e q
        if 1023 < (Nat.log2 t : Int) + q then .inf s else .fin s t q
  | y => y

/-- The EXT128 code of an extended value (R50). -/
def extCode (x : Val) : Nat :=
  match toExt x with
  | .nan => 0x7FF * 2 ^ 116 + max 1 Config.extNan.toNat
  | .inf s => b2n s * 2 ^ 127 + 0x7FF * 2 ^ 116
  | .fin s m e =>
    if m = 0 then 0
    else
      let l : Int := (Nat.log2 m : Int) + e
      b2n s * 2 ^ 127 + (l + 1023).toNat * 2 ^ 116 + shiftBy m (e - (l - 63))

/-- The value of an EXT128 code, or none where it is malformed: R50's test, and, as R50's test passes it and its layout gives it no
value, DESIGN CHOICE, a code with `EXP` 0, `SIG` non-zero and bit 63 of `SIG` clear (log 76). -/
def extValue (c : Nat) : Option Val :=
  let s := c.testBit 127
  let E := bits c 126 116
  let sig := bits c 63 0
  let lead := decide (1 ≤ E ∧ E ≤ 0x7FE)
  if bits c 115 64 ≠ 0 ∨ sig.testBit 63 ≠ lead then none
  else if E = 0x7FF then some (if sig = 0 then .inf s else .nan)
  else if E = 0 then (if sig = 0 then some (.fin s 0 0) else none)
  else some (.fin s sig ((E : Int) - 1023 - 63))

/-! ## Exact path -/

/-- The exponent of the smallest step and the magnitude bound of a factor of a given format (R40). -/
def factorLo (f : Nat) : Int :=
  match f with
  | 3 => -9
  | 4 => -16
  | 5 => -1
  | _ => 0

def factorHi (f : Nat) : Int :=
  match f with
  | 3 => 9
  | 4 => 16
  | 5 => 3
  | 6 => 7
  | 7 => 3
  | 8 => 4
  | _ => 0

/-- A cell of the exact path: C in units of 2^B and its sticky flags (R42). -/
structure Cell where
  c : Int := 0
  nan : Bool := false
  pinf : Bool := false
  ninf : Bool := false
deriving DecidableEq, Repr, Inhabited

/-- Adds one product, an exact multiple of 2^B, to a cell (R42). -/
def Cell.addProd (B : Int) (k : Cell) (p : Val) : Cell :=
  match p with
  | .nan => { k with nan := true }
  | .inf s => if s then { k with ninf := true } else { k with pinf := true }
  | .fin _ _ _ => { k with c := k.c + p.scaled B }

/-- Whether C still fits 96 bits (R48). -/
def Cell.fits (k : Cell) : Bool := decide (-(2 ^ 95 : Int) ≤ k.c) && decide (k.c < 2 ^ 95)

/-- What the drain forms before rounding (R43). -/
def Cell.value (B : Int) (k : Cell) : Val :=
  if k.nan || (k.pinf && k.ninf) then .nan
  else if k.pinf then .inf false
  else if k.ninf then .inf true
  else .fin (decide (k.c < 0)) k.c.natAbs B

/-- The FX128 partial of a cell (R45). -/
def Cell.fx128 (k : Cell) : Nat := b2n k.nan * 2 ^ 127 + b2n k.pinf * 2 ^ 126 + b2n k.ninf * 2 ^ 125 + ofSigned 96 k.c

/-- The cell of an FX128 partial, or none where its reserved bits are not zero (R48). -/
def Cell.ofFx128 (c : Nat) : Option Cell :=
  if bits c 124 96 ≠ 0 then none
  else some { c := toSigned 96 c, nan := c.testBit 127, pinf := c.testBit 126, ninf := c.testBit 125 }

end Sys2Proof.Machine
end

