-- ==== Sys2Proof/Machine/Kv.lean ====
section
/-! DEFINITION. Sparse data by key: a list of key and value pairs in one canonical form (keys strictly rising, no entry
equal to what an unlisted key reads as), used for the four memories, the stored objects and the per-context records. -/

namespace Sys2Proof.Machine

/-- The value at key `k`; an unlisted key reads as `d`. -/
def kvGet {α : Type} (d : α) : List (Nat × α) → Nat → α
  | [], _ => d
  | (j, v) :: t, k => if k = j then v else kvGet d t k

/-- Whether key `k` is listed. -/
def kvHas {α : Type} : List (Nat × α) → Nat → Bool
  | [], _ => false
  | (j, _) :: t, k => decide (k = j) || kvHas t k

/-- The list without key `k`. -/
def kvDrop {α : Type} : List (Nat × α) → Nat → List (Nat × α)
  | [], _ => []
  | (j, w) :: t, k => if k = j then kvDrop t k else (j, w) :: kvDrop t k

/-- The list with an entry for key `k`, in its place. -/
def kvPut {α : Type} : List (Nat × α) → Nat → α → List (Nat × α)
  | [], k, v => [(k, v)]
  | (j, w) :: t, k, v =>
    if k < j then (k, v) :: (j, w) :: t
    else if k = j then (k, v) :: t
    else (j, w) :: kvPut t k v

/-- The list with key `k` reading as `v`; writing the default removes the entry. -/
def kvSet {α : Type} [DecidableEq α] (d : α) (l : List (Nat × α)) (k : Nat) (v : α) : List (Nat × α) :=
  if v = d then kvDrop l k else kvPut l k v

/-- Keys strictly rising from `lo` up, and no entry equal to the default of its key. -/
def kvWfFrom {α : Type} [DecidableEq α] (d : Nat → α) : Nat → List (Nat × α) → Bool
  | _, [] => true
  | lo, (j, v) :: t => decide (lo ≤ j) && decide (v ≠ d j) && kvWfFrom d (j + 1) t

/-- The canonical form. -/
def kvWf {α : Type} [DecidableEq α] (d : Nat → α) (l : List (Nat × α)) : Bool := kvWfFrom d 0 l

end Sys2Proof.Machine
end

