-- ==== Sys2Proof/Machine/ObjTable.lean ====
section
/-! DEFINITION. The object dictionary's table (R559, R560, R56 and the object table of each chapter): every object's index
and subs, type, access, whether it is a counter of R56, its default and its range, and the selector it depends on. Objects
are keyed by `selector value * 2 ^ 24 + index * 256 + sub`. -/

namespace Sys2Proof.Machine

/-- One line of an object table. `ty`: 0 unsigned, 1 signed, 2 BOOL, 3 OCTET string held as a little-endian number. `acc`:
0 RO, 1 RW, 2 WO. -/
structure ObjRow where
  index : Nat
  subLo : Nat
  subHi : Nat
  bytes : Nat
  ty : Nat
  acc : Nat
  counter : Bool
  dflt : Nat
  lo : Nat
  hi : Nat
deriving DecidableEq, Repr, Inhabited

/-- The largest value of `n` bytes. -/
def hiAll (n : Nat) : Nat := 2 ^ (8 * n) - 1

/-- 0x4000:00 `NUM_FORMATS` (R56). -/
abbrev kNumFormats : Nat := 0x400000
/-- 0x4002:00 `NEG_ZERO_OUT` (R56). -/
abbrev kNegZeroOut : Nat := 0x400200
/-- 0x4003:01 `OVF_COUNT` (R56). -/
abbrev kOvfCount : Nat := 0x400301
/-- 0x4003:02 `NAN_SUBST_COUNT` (R56). -/
abbrev kNanSubstCount : Nat := 0x400302
/-- 0x4003:03 `GSCALE_RANGE_COUNT` (R56). -/
abbrev kGscaleRangeCount : Nat := 0x400303
/-- 0x4003:04 `ACC_WINDOW_COUNT` (R56). -/
abbrev kAccWindowCount : Nat := 0x400304
/-- 0x4003:05 `CB_INDEX_COUNT` (R56). -/
abbrev kCbIndexCount : Nat := 0x400305
/-- 0x4003:06 `NAN_OUT_COUNT` (R56). -/
abbrev kNanOutCount : Nat := 0x400306
/-- 0x9010:00 `CKS_TILES_CHECKED` (R94). -/
abbrev kCksTilesChecked : Nat := 0x901000
/-- 0x9010:01 `CKS_MISS_COUNT` (R94). -/
abbrev kCksMissCount : Nat := 0x901001
/-- 0x9010:02 `CKS_RERUN_OK_COUNT` (R94). -/
abbrev kCksRerunOkCount : Nat := 0x901002
/-- 0x9010:03 `CKS_FAULT_COUNT` (R94). -/
abbrev kCksFaultCount : Nat := 0x901003
/-- 0x9010:04 `CKS_LAST_LOC` (R94). -/
abbrev kCksLastLoc : Nat := 0x901004
/-- 0x9012:00 `CKS_INJECT` (R94). -/
abbrev kCksInject : Nat := 0x901200
/-- 0x4010:01 `TBL_OWNER_0` (R133). -/
abbrev kTblOwner : Nat := 0x401001
/-- 0x4011:01 `TBL_GEN_0` (R133). -/
abbrev kTblGen : Nat := 0x401101
/-- 0x4013:01 `TBL_REJECT_COUNT` (R133). -/
abbrev kTblRejectCount : Nat := 0x401301
/-- 0x4013:02 `TBL_LAST_REJECT` (R133). -/
abbrev kTblLastReject : Nat := 0x401302
/-- 0x4013:03 `EMPTY_ROW_COUNT` (R133). -/
abbrev kEmptyRowCount : Nat := 0x401303
/-- 0x4013:04 `RMS_ZERO_ROW_COUNT` (R133). -/
abbrev kRmsZeroRowCount : Nat := 0x401304
/-- 0x4013:05 `SMX_NAN_ROW_COUNT` (R133). -/
abbrev kSmxNanRowCount : Nat := 0x401305
/-- 0x4013:06 `RMS_NAN_ROW_COUNT` (R133). -/
abbrev kRmsNanRowCount : Nat := 0x401306
/-- 0x4101:01 `ATT_PLANES_RUN` (R166). -/
abbrev kAttPlanesRun : Nat := 0x410101
/-- 0x4101:02 `ATT_PLANES_SKIPPED` (R166). -/
abbrev kAttPlanesSkipped : Nat := 0x410102
/-- 0x4101:03 `ATT_MAX_RISE_COUNT` (R166). -/
abbrev kAttMaxRiseCount : Nat := 0x410103
/-- 0x4101:04 `ATT_SEQ_WITHHELD_COUNT` (R166). -/
abbrev kAttSeqWithheldCount : Nat := 0x410104
/-- 0x4101:05 `ATT_Z_CLAMP_COUNT` (R166). -/
abbrev kAttZClampCount : Nat := 0x410105
/-- 0x4003:07 `XSC_DROP_COUNT` (R212). -/
abbrev kXscDropCount : Nat := 0x400307
/-- 0x4003:08 `EMB_INDEX_COUNT` (R212). -/
abbrev kEmbIndexCount : Nat := 0x400308
/-- 0x4020:01 `UPD_SKIP_COUNT` (R212). -/
abbrev kUpdSkipCount : Nat := 0x402001
/-- 0x4020:02 `UPD_ELEMENTS` (R212). -/
abbrev kUpdElements : Nat := 0x402002
/-- 0x4020:03 `UPD_NAN_COUNT` (R212). -/
abbrev kUpdNanCount : Nat := 0x402003
/-- 0x4030:00 `WID_CTX` (R244). -/
abbrev kWidCtx : Nat := 0x403000
/-- 0x4030:01 `WID_TABLE` (R244). -/
abbrev kWidTable : Nat := 0x403001
/-- 0x4030:02 `WID_LAYERS` (R244). -/
abbrev kWidLayers : Nat := 0x403002
/-- 0x4030:03 `WID_CLEAN` (R244). -/
abbrev kWidClean : Nat := 0x403003
/-- 0x4030:04 `WID_WIDENED_NOW` (R244). -/
abbrev kWidWidenedNow : Nat := 0x403004
/-- 0x4031:01 `WID_BLOCK_COUNT` (R244). -/
abbrev kWidBlockCount : Nat := 0x403101
/-- 0x4031:02 `WID_LAYER_COUNT` (R244). -/
abbrev kWidLayerCount : Nat := 0x403102
/-- 0x4031:03 `WID_STORM_COUNT` (R244). -/
abbrev kWidStormCount : Nat := 0x403103
/-- 0x4031:04 `WID_NARROW_COUNT` (R244). -/
abbrev kWidNarrowCount : Nat := 0x403104
/-- 0x4031:05 `WID_PROBE_COUNT` (R244). -/
abbrev kWidProbeCount : Nat := 0x403105
/-- 0x4031:06 `WID_PROBE_FAIL_COUNT` (R244). -/
abbrev kWidProbeFailCount : Nat := 0x403106
/-- 0x4031:07 `REF_MISMATCH_COUNT` (R244). -/
abbrev kRefMismatchCount : Nat := 0x403107
/-- 0x4031:08 `WIRE_SCALE_RANGE_COUNT` (R244). -/
abbrev kWireScaleRangeCount : Nat := 0x403108
/-- 0x4031:09 `WID_UNLISTED_COUNT` (R244). -/
abbrev kWidUnlistedCount : Nat := 0x403109
/-- 0x4040:01 `CNV_BOX_COUNT` (R263). -/
abbrev kCnvBoxCount : Nat := 0x404001
/-- 0x4040:02 `CNV_SLICE_COUNT` (R263). -/
abbrev kCnvSliceCount : Nat := 0x404002
/-- 0x4040:03 `CNV_EMPTY_COUNT` (R263). -/
abbrev kCnvEmptyCount : Nat := 0x404003
/-- 0x3000:01 `HBM_STACKS` (R297). -/
abbrev kHbmStacks : Nat := 0x300001
/-- 0x3000:02 `HBM_PAGES_PER_STACK` (R297). -/
abbrev kHbmPagesPerStack : Nat := 0x300002
/-- 0x3000:03 `HBM_PIN_RATE` (R297). -/
abbrev kHbmPinRate : Nat := 0x300003
/-- 0x3001:01 `HBM_REGION_0` (R297). -/
abbrev kHbmRegion : Nat := 0x300101
/-- 0x3010:01 `CACHE_KEEP_WAYS` (R297). -/
abbrev kCacheKeepWays : Nat := 0x301001
/-- 0x3010:02 `CACHE_HITS` (R297). -/
abbrev kCacheHits : Nat := 0x301002
/-- 0x3010:03 `CACHE_MISSES` (R297). -/
abbrev kCacheMisses : Nat := 0x301003
/-- 0x3010:04 `CACHE_LAST_DROPS` (R297). -/
abbrev kCacheLastDrops : Nat := 0x301004
/-- 0x3010:05 `CACHE_FLUSH` (R297). -/
abbrev kCacheFlush : Nat := 0x301005
/-- 0x3020:00 `REG_SEL` (R297). -/
abbrev kRegSel : Nat := 0x302000
/-- 0x3020:01 `REG_RATE` (R297). -/
abbrev kRegRate : Nat := 0x302001
/-- 0x3020:02 `REG_DEPTH` (R297). -/
abbrev kRegDepth : Nat := 0x302002
/-- 0x3020:03 `REG_BORROW` (R297). -/
abbrev kRegBorrow : Nat := 0x302003
/-- 0x3020:04 `REG_BYTES` (R297). -/
abbrev kRegBytes : Nat := 0x302004
/-- 0x3020:05 `REG_WAIT_NS` (R297). -/
abbrev kRegWaitNs : Nat := 0x302005
/-- 0x3030:01 `NRA_READS` (R297). -/
abbrev kNraReads : Nat := 0x303001
/-- 0x3030:02 `NRA_WRITES` (R297). -/
abbrev kNraWrites : Nat := 0x303002
/-- 0x3031:01 `MSA_ADDS` (R297). -/
abbrev kMsaAdds : Nat := 0x303101
/-- 0x3031:02 `MSA_FP_OVF` (R297). -/
abbrev kMsaFpOvf : Nat := 0x303102
/-- 0x3040:00 `ERR_CHAN_SEL` (R297). -/
abbrev kErrChanSel : Nat := 0x304000
/-- 0x3040:01 `ERR_CE` (R297). -/
abbrev kErrCe : Nat := 0x304001
/-- 0x3040:02 `ERR_UE` (R297). -/
abbrev kErrUe : Nat := 0x304002
/-- 0x3040:03 `ERR_PARITY_RETRY` (R297). -/
abbrev kErrParityRetry : Nat := 0x304003
/-- 0x3040:04 `ERR_LAST_ADDR` (R297). -/
abbrev kErrLastAddr : Nat := 0x304004
/-- 0x3040:05 `POISON_ENTRIES` (R297). -/
abbrev kPoisonEntries : Nat := 0x304005
/-- 0x3040:06 `SCRUB_PERIOD_H` (R297). -/
abbrev kScrubPeriodH : Nat := 0x304006
/-- 0x3040:07 `CE_ROW_LIMIT` (R297). -/
abbrev kCeRowLimit : Nat := 0x304007
/-- 0x3040:08 `SCRUB_PASSES` (R297). -/
abbrev kScrubPasses : Nat := 0x304008
/-- 0x3050:00 `TG_CHAN_SEL` (R297). -/
abbrev kTgChanSel : Nat := 0x305000
/-- 0x3050:01 `TG_CTRL` (R297). -/
abbrev kTgCtrl : Nat := 0x305001
/-- 0x3050:02 `TG_STATUS` (R297). -/
abbrev kTgStatus : Nat := 0x305002
/-- 0x3050:03 `TG_MISMATCH` (R297). -/
abbrev kTgMismatch : Nat := 0x305003
/-- 0x3050:04 `TG_BYTES` (R297). -/
abbrev kTgBytes : Nat := 0x305004
/-- 0x3050:05 `TG_LOG_SEL` (R297). -/
abbrev kTgLogSel : Nat := 0x305005
/-- 0x3050:06 `TG_LOG_ADDR` (R297). -/
abbrev kTgLogAddr : Nat := 0x305006
/-- 0x3050:07 `TG_LOG_EXP` (R297). -/
abbrev kTgLogExp : Nat := 0x305007
/-- 0x3050:08 `TG_LOG_XOR` (R297). -/
abbrev kTgLogXor : Nat := 0x305008
/-- 0x3100:00 `REEL_CTX` (R344). -/
abbrev kReelCtx : Nat := 0x310000
/-- 0x3100:01 `REEL_TABLE` (R344). -/
abbrev kReelTable : Nat := 0x310001
/-- 0x3101:01 `PFT_HOLD_LIMIT_US` (R344). -/
abbrev kPftHoldLimitUs : Nat := 0x310101
/-- 0x3101:02 `PFT_ENTRIES_DONE` (R344). -/
abbrev kPftEntriesDone : Nat := 0x310102
/-- 0x3101:03 `PFT_CANCEL_COUNT` (R344). -/
abbrev kPftCancelCount : Nat := 0x310103
/-- 0x3102:01 `TWIN_WINDOW_BASE` (R344). -/
abbrev kTwinWindowBase : Nat := 0x310201
/-- 0x3102:02 `TWIN_WINDOW_PAGES` (R344). -/
abbrev kTwinWindowPages : Nat := 0x310202
/-- 0x3110:01 `REEL_PUSH_BYTES` (R344). -/
abbrev kReelPushBytes : Nat := 0x311001
/-- 0x3110:02 `REEL_FULLED_BYTES` (R344). -/
abbrev kReelFulledBytes : Nat := 0x311002
/-- 0x3110:03 `REEL_SPILL_BYTES` (R344). -/
abbrev kReelSpillBytes : Nat := 0x311003
/-- 0x3110:04 `REEL_FETCH_BYTES` (R344). -/
abbrev kReelFetchBytes : Nat := 0x311004
/-- 0x3110:05 `REEL_IGNORED_COUNT` (R344). -/
abbrev kReelIgnoredCount : Nat := 0x311005
/-- 0x3110:06 `REEL_BROKEN_COUNT` (R344). -/
abbrev kReelBrokenCount : Nat := 0x311006
/-- 0x3110:07 `REEL_LOST_COUNT` (R344). -/
abbrev kReelLostCount : Nat := 0x311007
/-- 0x3110:08 `REEL_WAIT_NS` (R344). -/
abbrev kReelWaitNs : Nat := 0x311008
/-- 0x3111:01 `REEL_WAIT_LIMIT_US` (R344). -/
abbrev kReelWaitLimitUs : Nat := 0x311101
/-- 0x3120:01 `FLASH_UNITS` (R344). -/
abbrev kFlashUnits : Nat := 0x312001
/-- 0x3120:02 `FTL_SPARE_PERMILLE` (R344). -/
abbrev kFtlSparePermille : Nat := 0x312002
/-- 0x3120:03 `FTL_LIFE_USED` (R344). -/
abbrev kFtlLifeUsed : Nat := 0x312003
/-- 0x3120:04 `FTL_WEAR_SPREAD` (R344). -/
abbrev kFtlWearSpread : Nat := 0x312004
/-- 0x3120:05 `FTL_RD_LIMIT` (R344). -/
abbrev kFtlRdLimit : Nat := 0x312005
/-- 0x3120:06 `FTL_RELOCATIONS` (R344). -/
abbrev kFtlRelocations : Nat := 0x312006
/-- 0x3120:07 `FTL_READ_RETRIES` (R344). -/
abbrev kFtlReadRetries : Nat := 0x312007
/-- 0x3120:08 `FTL_REBUILDS` (R344). -/
abbrev kFtlRebuilds : Nat := 0x312008
/-- 0x3120:09 `FTL_UNCORR_COUNT` (R344). -/
abbrev kFtlUncorrCount : Nat := 0x312009
/-- 0x3120:0A `FTL_BAD_BLOCKS` (R344). -/
abbrev kFtlBadBlocks : Nat := 0x31200A
/-- 0x3121:01 `RP_WRITE_COUNTER` (R344). -/
abbrev kRpWriteCounter : Nat := 0x312101
/-- 0x4110:00 `SEQ_CTX` (R378). -/
abbrev kSeqCtx : Nat := 0x411000
/-- 0x4110:01 `SERVE_REC` (R378). -/
abbrev kServeRec : Nat := 0x411001
/-- 0x4110:02 `TICK_NO` (R378). -/
abbrev kTickNo : Nat := 0x411002
/-- 0x4110:03 `TICK_EST_NS` (R378). -/
abbrev kTickEstNs : Nat := 0x411003
/-- 0x4110:04 `HBM_POOL_FREE` (R378). -/
abbrev kHbmPoolFree : Nat := 0x411004
/-- 0x4110:05 `HOST_POOL_FREE` (R378). -/
abbrev kHostPoolFree : Nat := 0x411005
/-- 0x4110:06 `BUCKET_MODE` (R378). -/
abbrev kBucketMode : Nat := 0x411006
/-- 0x4110:07 `BUCKET_LEFT` (R378). -/
abbrev kBucketLeft : Nat := 0x411007
/-- 0x4110:08 `CMD_CONSUMER` (R378). -/
abbrev kCmdConsumer : Nat := 0x411008
/-- 0x4110:09 `BUILD_NO` (R378). -/
abbrev kBuildNo : Nat := 0x411009
/-- 0x4111:01 `SEQ_ACTIVE` (R378). -/
abbrev kSeqActive : Nat := 0x411101
/-- 0x4111:02 `SEQ_READ_SLOT` (R378). -/
abbrev kSeqReadSlot : Nat := 0x411102
/-- 0x4111:03 `SEQ_ENTRY` (R378). -/
abbrev kSeqEntry : Nat := 0x411103
/-- 0x4112:01 `PREEMPT_COUNT` (R378). -/
abbrev kPreemptCount : Nat := 0x411201
/-- 0x4112:02 `SWAP_OUT_PAGES` (R378). -/
abbrev kSwapOutPages : Nat := 0x411202
/-- 0x4112:03 `SWAP_IN_PAGES_DONE` (R378). -/
abbrev kSwapInPagesDone : Nat := 0x411203
/-- 0x4112:04 `KV_HELD_COUNT` (R378). -/
abbrev kKvHeldCount : Nat := 0x411204
/-- 0x4112:05 `DROGUE_SWITCH_COUNT` (R378). -/
abbrev kDrogueSwitchCount : Nat := 0x411205
/-- 0x4112:06 `PRIMARY_RETURN_COUNT` (R378). -/
abbrev kPrimaryReturnCount : Nat := 0x411206
/-- 0x4112:07 `DL_AT_RISK_COUNT` (R378). -/
abbrev kDlAtRiskCount : Nat := 0x411207
/-- 0x4112:08 `DL_LATE_COUNT` (R378). -/
abbrev kDlLateCount : Nat := 0x411208
/-- 0x4112:09 `SEQ_STALE_COUNT` (R378). -/
abbrev kSeqStaleCount : Nat := 0x411209
/-- 0x4112:0A `SEQ_IGNORED_COUNT` (R378). -/
abbrev kSeqIgnoredCount : Nat := 0x41120A
/-- 0x4112:0B `POOL_REJECT_COUNT` (R378). -/
abbrev kPoolRejectCount : Nat := 0x41120B
/-- 0x4112:0C `MAP_FULL_COUNT` (R378). -/
abbrev kMapFullCount : Nat := 0x41120C
/-- 0x6010:00 `ACCT_CTX` (R378). -/
abbrev kAcctCtx : Nat := 0x601000
/-- 0x6010:01 `ACCT_ARRAY_BEATS` (R378). -/
abbrev kAcctArrayBeats : Nat := 0x601001
/-- 0x6010:02 `ACCT_VECTOR_BEATS` (R378). -/
abbrev kAcctVectorBeats : Nat := 0x601002
/-- 0x6010:03 `ACCT_BYTES_NS` (R378). -/
abbrev kAcctBytesNs : Nat := 0x601003
/-- 0x6010:04 `ACCT_BYTES_HBM` (R378). -/
abbrev kAcctBytesHbm : Nat := 0x601004
/-- 0x6010:05 `ACCT_BYTES_HOST` (R378). -/
abbrev kAcctBytesHost : Nat := 0x601005
/-- 0x6010:06 `ACCT_BYTES_FLASH` (R378). -/
abbrev kAcctBytesFlash : Nat := 0x601006
/-- 0x6010:07 `ACCT_BYTES_FABRIC` (R378). -/
abbrev kAcctBytesFabric : Nat := 0x601007
/-- 0x6010:08 `ACCT_ENGINE_NS` (R378). -/
abbrev kAcctEngineNs : Nat := 0x601008
/-- 0x6010:09 `ACCT_ENERGY_MJ` (R378). -/
abbrev kAcctEnergyMj : Nat := 0x601009
/-- 0x6010:0A `ACCT_OPS` (R378). -/
abbrev kAcctOps : Nat := 0x60100A
/-- 0x6010:0B `ACCT_TICKS` (R378). -/
abbrev kAcctTicks : Nat := 0x60100B
/-- 0x6010:0C `ACCT_STEPS` (R378). -/
abbrev kAcctSteps : Nat := 0x60100C
/-- 0x6011:01 `ENERGY_IDLE_MJ` (R378). -/
abbrev kEnergyIdleMj : Nat := 0x601101
/-- 0x7000:01 `MEDIA_FW_VERSION` (R398). -/
abbrev kMediaFwVersion : Nat := 0x700001
/-- 0x7000:02 `VDEC_BUDGET_FACTOR` (R398). -/
abbrev kVdecBudgetFactor : Nat := 0x700002
/-- 0x7001:01 `VDEC_PICTURES` (R398). -/
abbrev kVdecPictures : Nat := 0x700101
/-- 0x7001:02 `VDEC_UNSUPPORTED_COUNT` (R398). -/
abbrev kVdecUnsupportedCount : Nat := 0x700102
/-- 0x7001:03 `VDEC_CONCEAL_COUNT` (R398). -/
abbrev kVdecConcealCount : Nat := 0x700103
/-- 0x7001:04 `VDEC_BUDGET_COUNT` (R398). -/
abbrev kVdecBudgetCount : Nat := 0x700104
/-- 0x7001:05 `VDEC_WINDOW_COUNT` (R398). -/
abbrev kVdecWindowCount : Nat := 0x700105
/-- 0x7002:01 `VENC_FRAMES` (R398). -/
abbrev kVencFrames : Nat := 0x700201
/-- 0x7002:02 `VENC_REENCODE_COUNT` (R398). -/
abbrev kVencReencodeCount : Nat := 0x700202
/-- 0x7002:03 `VENC_FORCED_COUNT` (R398). -/
abbrev kVencForcedCount : Nat := 0x700203
/-- 0x7002:04 `VENC_OVERRUN_COUNT` (R398). -/
abbrev kVencOverrunCount : Nat := 0x700204
/-- 0x7003:01 `MEDIA_STATE_FAIL_COUNT` (R398). -/
abbrev kMediaStateFailCount : Nat := 0x700301
/-- 0x7100:01 `ING_HOST_RATE_MPS` (R426). -/
abbrev kIngHostRateMps : Nat := 0x710001
/-- 0x7100:02 `ING_DEFER_FACTOR` (R426). -/
abbrev kIngDeferFactor : Nat := 0x710002
/-- 0x7100:03 `ING_DECODE_SCRATCH_MIB` (R426). -/
abbrev kIngDecodeScratchMib : Nat := 0x710003
/-- 0x7100:04 `ING_DEFAULT_MATRIX` (R426). -/
abbrev kIngDefaultMatrix : Nat := 0x710004
/-- 0x7100:05 `ING_CORRUPT_MASK` (R426). -/
abbrev kIngCorruptMask : Nat := 0x710005
/-- 0x7100:06 `ING_MEDIAN_PS` (R426). -/
abbrev kIngMedianPs : Nat := 0x710006
/-- 0x7101:01 `LIVE_EPOCH_BASE_NS` (R426). -/
abbrev kLiveEpochBaseNs : Nat := 0x710101
/-- 0x7101:02 `LIVE_EPOCH_NS` (R426). -/
abbrev kLiveEpochNs : Nat := 0x710102
/-- 0x7101:03 `LIVE_ALIGN_WAIT_NS` (R426). -/
abbrev kLiveAlignWaitNs : Nat := 0x710103
/-- 0x7101:04 `LIVE_STALE_NS` (R426). -/
abbrev kLiveStaleNs : Nat := 0x710104
/-- 0x7102:01 `ING_SAMPLES` (R426). -/
abbrev kIngSamples : Nat := 0x710201
/-- 0x7102:02 `ING_HOST_DECODES` (R426). -/
abbrev kIngHostDecodes : Nat := 0x710202
/-- 0x7102:03 `ING_HB_HITS` (R426). -/
abbrev kIngHbHits : Nat := 0x710203
/-- 0x7102:04 `ING_HB_MISSES` (R426). -/
abbrev kIngHbMisses : Nat := 0x710204
/-- 0x7102:05 `ING_HB_BAD` (R426). -/
abbrev kIngHbBad : Nat := 0x710205
/-- 0x7102:06 `ING_HB_STAGED` (R426). -/
abbrev kIngHbStaged : Nat := 0x710206
/-- 0x7102:07 `ING_HB_STAGE_FULL` (R426). -/
abbrev kIngHbStageFull : Nat := 0x710207
/-- 0x7102:08 `ING_DEFERRED` (R426). -/
abbrev kIngDeferred : Nat := 0x710208
/-- 0x7102:09 `ING_CORRUPT` (R426). -/
abbrev kIngCorrupt : Nat := 0x710209
/-- 0x7102:0A `ING_OVERFLOW` (R426). -/
abbrev kIngOverflow : Nat := 0x71020A
/-- 0x7102:0B `ING_CARRY_DROP` (R426). -/
abbrev kIngCarryDrop : Nat := 0x71020B
/-- 0x7102:0C `LIVE_MISSING` (R426). -/
abbrev kLiveMissing : Nat := 0x71020C
/-- 0x7102:0D `LIVE_STALE` (R426). -/
abbrev kLiveStale : Nat := 0x71020D
/-- 0x7102:0E `LIVE_SKIPPED` (R426). -/
abbrev kLiveSkipped : Nat := 0x71020E
/-- 0x6000:00 `CTX_SEL` (R459). -/
abbrev kCtxSel : Nat := 0x600000
/-- 0x6000:01 `CTX_RECORD` (R459). -/
abbrev kCtxRecord : Nat := 0x600001
/-- 0x6000:02 `CTX_CMD` (R459). -/
abbrev kCtxCmd : Nat := 0x600002
/-- 0x6000:03 `CTX_STATE` (R459). -/
abbrev kCtxState : Nat := 0x600003
/-- 0x6000:04 `CTX_FAULT_CAUSE` (R459). -/
abbrev kCtxFaultCause : Nat := 0x600004
/-- 0x6000:05 `CTX_INFLIGHT` (R459). -/
abbrev kCtxInflight : Nat := 0x600005
/-- 0x6001:01 `DEV_INFLIGHT` (R459). -/
abbrev kDevInflight : Nat := 0x600101
/-- 0x6001:02 `DEV_INFLIGHT_MAX` (R459). -/
abbrev kDevInflightMax : Nat := 0x600102
/-- 0x6001:03 `BAY_QUOTA` (R459). -/
abbrev kBayQuota : Nat := 0x600103
/-- 0x6002:01 `CTX_IGNORED_COUNT` (R459). -/
abbrev kCtxIgnoredCount : Nat := 0x600201
/-- 0x6002:02 `SQ_DOORBELL_IGNORED` (R459). -/
abbrev kSqDoorbellIgnored : Nat := 0x600202
/-- 0x6002:03 `SQ_INACTIVE_IGNORED` (R459). -/
abbrev kSqInactiveIgnored : Nat := 0x600203
/-- 0x6002:04 `SIG_REMOTE_DROP` (R459). -/
abbrev kSigRemoteDrop : Nat := 0x600204
/-- 0x6002:05 `FNC_TIMEOUT_COUNT` (R459). -/
abbrev kFncTimeoutCount : Nat := 0x600205
/-- 0x6002:06 `JOB_FAULT_COUNT` (R459). -/
abbrev kJobFaultCount : Nat := 0x600206
/-- 0x6003:00 `SIG_SEL` (R459). -/
abbrev kSigSel : Nat := 0x600300
/-- 0x6003:01 `SIG_VALUE` (R459). -/
abbrev kSigValue : Nat := 0x600301
/-- 0x6004:01 `SQ_BASE` (R483). -/
abbrev kSqBase : Nat := 0x600401
/-- 0x6004:02 `SQ_LOG2` (R483). -/
abbrev kSqLog2 : Nat := 0x600402
/-- 0x6004:03 `CQ_BASE` (R483). -/
abbrev kCqBase : Nat := 0x600403
/-- 0x6004:04 `CQ_LOG2` (R483). -/
abbrev kCqLog2 : Nat := 0x600404
/-- 0x6004:05 `CQ_VECTOR` (R483). -/
abbrev kCqVector : Nat := 0x600405
/-- 0x6004:06 `CQ_MOD_US` (R483). -/
abbrev kCqModUs : Nat := 0x600406
/-- 0x6004:07 `SQ_CONSUMER` (R483). -/
abbrev kSqConsumer : Nat := 0x600407
/-- 0x6004:08 `CQ_PRODUCER` (R483). -/
abbrev kCqProducer : Nat := 0x600408
/-- 0x6004:09 `CQ_FULL_WAIT_US` (R483). -/
abbrev kCqFullWaitUs : Nat := 0x600409
/-- 0x6004:0A `CQ_LOST` (R483). -/
abbrev kCqLost : Nat := 0x60040A
/-- 0x6005:01 `HOST_WIN_BASE` (R483). -/
abbrev kHostWinBase : Nat := 0x600501
/-- 0x6005:02 `HOST_WIN_PAGES` (R483). -/
abbrev kHostWinPages : Nat := 0x600502
/-- 0x6005:03 `ZL_CPL_TIMEOUT_US` (R483). -/
abbrev kZlCplTimeoutUs : Nat := 0x600503
/-- 0x6005:04 `ZL_PORT_STATE` (R483). -/
abbrev kZlPortState : Nat := 0x600504
/-- 0x6005:05 `ZL_REPLAY_COUNT` (R483). -/
abbrev kZlReplayCount : Nat := 0x600505
/-- 0x6005:06 `ZL_LATE_CPL_COUNT` (R483). -/
abbrev kZlLateCplCount : Nat := 0x600506
/-- 0x6005:07 `ZL_WIDTH_DOWN_COUNT` (R483). -/
abbrev kZlWidthDownCount : Nat := 0x600507
/-- 0x6005:08 `CTRL_IGNORED_COUNT` (R483). -/
abbrev kCtrlIgnoredCount : Nat := 0x600508
/-- 0x6005:09 `MBX_IGNORED` (R483). -/
abbrev kMbxIgnored : Nat := 0x600509
/-- 0x6005:0A `MBX_VECTOR` (R483). -/
abbrev kMbxVector : Nat := 0x60050A
/-- 0x5000:01 `SOUNE_PORTS` (R520). -/
abbrev kSounePorts : Nat := 0x500001
/-- 0x5000:02 `SOUNE_ADDR` (R520). -/
abbrev kSouneAddr : Nat := 0x500002
/-- 0x5001:00 `PORT_SEL` (R520). -/
abbrev kPortSel : Nat := 0x500100
/-- 0x5001:01 `PORT_STATE` (R520). -/
abbrev kPortState : Nat := 0x500101
/-- 0x5001:02 `PORT_REPLAYS` (R520). -/
abbrev kPortReplays : Nat := 0x500102
/-- 0x5001:03 `PORT_FEC_CORR` (R520). -/
abbrev kPortFecCorr : Nat := 0x500103
/-- 0x5001:04 `PORT_FEC_UNCORR` (R520). -/
abbrev kPortFecUncorr : Nat := 0x500104
/-- 0x5001:05 `PORT_DOWN_COUNT` (R520). -/
abbrev kPortDownCount : Nat := 0x500105
/-- 0x5001:06 `PORT_ENABLE` (R520). -/
abbrev kPortEnable : Nat := 0x500106
/-- 0x5002:00 `ROUTE_SEL` (R520). -/
abbrev kRouteSel : Nat := 0x500200
/-- 0x5002:01 `ROUTE_PORTS` (R520). -/
abbrev kRoutePorts : Nat := 0x500201
/-- 0x5010:01 `COLL_TIMEOUT_US` (R520). -/
abbrev kCollTimeoutUs : Nat := 0x501001
/-- 0x5011:01 `COLL_MISMATCH_COUNT` (R520). -/
abbrev kCollMismatchCount : Nat := 0x501101
/-- 0x5011:02 `COLL_TIMEOUT_COUNT` (R520). -/
abbrev kCollTimeoutCount : Nat := 0x501102
/-- 0x5011:03 `COLL_REFORMED_COUNT` (R520). -/
abbrev kCollReformedCount : Nat := 0x501103
/-- 0x5011:04 `COLL_RESEND_COUNT` (R520). -/
abbrev kCollResendCount : Nat := 0x501104
/-- 0x5011:05 `COLL_CHUNK_FAIL` (R520). -/
abbrev kCollChunkFail : Nat := 0x501105
/-- 0x5011:06 `COLL_LATE_COUNT` (R520). -/
abbrev kCollLateCount : Nat := 0x501106
/-- 0x5011:07 `COLL_STALE_COUNT` (R520). -/
abbrev kCollStaleCount : Nat := 0x501107
/-- 0x5011:08 `COLL_BYTES_SENT` (R520). -/
abbrev kCollBytesSent : Nat := 0x501108
/-- 0x5011:09 `COLL_DUP_COUNT` (R520). -/
abbrev kCollDupCount : Nat := 0x501109
/-- 0x5011:0A `TICKET_WAIT_NS` (R520). -/
abbrev kTicketWaitNs : Nat := 0x50110A
/-- 0x5012:01 `TICKETS_HELD` (R520). -/
abbrev kTicketsHeld : Nat := 0x501201
/-- 0x5100:01 `TWIN_STATE` (R556). -/
abbrev kTwinState : Nat := 0x510001
/-- 0x5100:02 `TWIN_PARTNER_ID` (R556). -/
abbrev kTwinPartnerId : Nat := 0x510002
/-- 0x5100:03 `TWIN_MEMBER` (R556). -/
abbrev kTwinMember : Nat := 0x510003
/-- 0x5100:04 `TETHER_HB_LIMIT` (R556). -/
abbrev kTetherHbLimit : Nat := 0x510004
/-- 0x5100:05 `TWIN_PROBE_US` (R556). -/
abbrev kTwinProbeUs : Nat := 0x510005
/-- 0x5100:06 `TETHER_PORTS` (R556). -/
abbrev kTetherPorts : Nat := 0x510006
/-- 0x5100:07 `TWIN_CMD` (R556). -/
abbrev kTwinCmd : Nat := 0x510007
/-- 0x5100:08 `TWIN_VECTOR` (R556). -/
abbrev kTwinVector : Nat := 0x510008
/-- 0x5110:01 `TETHER_HB_SENT` (R556). -/
abbrev kTetherHbSent : Nat := 0x511001
/-- 0x5110:02 `TETHER_HB_MISS` (R556). -/
abbrev kTetherHbMiss : Nat := 0x511002
/-- 0x5110:03 `TWIN_TAKEOVER_COUNT` (R556). -/
abbrev kTwinTakeoverCount : Nat := 0x511003
/-- 0x5110:04 `MIRROR_BYTES` (R556). -/
abbrev kMirrorBytes : Nat := 0x511004
/-- 0x5110:05 `MIRROR_WAIT_NS` (R556). -/
abbrev kMirrorWaitNs : Nat := 0x511005
/-- 0x5110:06 `DIGEST_MISMATCH_COUNT` (R556). -/
abbrev kDigestMismatchCount : Nat := 0x511006
/-- 0x5110:07 `TETHER_DROP_COUNT` (R556). -/
abbrev kTetherDropCount : Nat := 0x511007
/-- 0x5110:08 `PROBE_COUNT` (R556). -/
abbrev kProbeCount : Nat := 0x511008
/-- 0x5120:00 `MIRROR_CTX` (R556). -/
abbrev kMirrorCtx : Nat := 0x512000
/-- 0x5120:01 `MIRROR_POOL` (R556). -/
abbrev kMirrorPool : Nat := 0x512001
/-- 0x5120:02 `MIRROR_POOL_CAP` (R556). -/
abbrev kMirrorPoolCap : Nat := 0x512002
/-- 0x5120:03 `MIRROR_POOL_FREE` (R556). -/
abbrev kMirrorPoolFree : Nat := 0x512003
/-- 0x5130:00 `DIGEST_CTX` (R556). -/
abbrev kDigestCtx : Nat := 0x513000
/-- 0x5130:01 `DIGEST_LIST` (R556). -/
abbrev kDigestList : Nat := 0x513001
/-- 0x5130:02 `DIGEST_COUNT` (R556). -/
abbrev kDigestCount : Nat := 0x513002
/-- 0x5130:03 `DIGEST_LAST_STEP` (R556). -/
abbrev kDigestLastStep : Nat := 0x513003
/-- 0x5200:00 `GRP_SEL` (R556). -/
abbrev kGrpSel : Nat := 0x520000
/-- 0x5200:01 `GRP_ID` (R556). -/
abbrev kGrpId : Nat := 0x520001
/-- 0x5200:02 `GRP_EPOCH` (R556). -/
abbrev kGrpEpoch : Nat := 0x520002
/-- 0x5200:03 `GRP_MEMBER` (R556). -/
abbrev kGrpMember : Nat := 0x520003
/-- 0x5200:04 `GRP_SIZE` (R556). -/
abbrev kGrpSize : Nat := 0x520004
/-- 0x5200:05 `GRP_ROLE` (R556). -/
abbrev kGrpRole : Nat := 0x520005
/-- 0x5200:06 `GRP_STATE` (R556). -/
abbrev kGrpState : Nat := 0x520006
/-- 0x5200:07 `GRP_PRIMARY` (R556). -/
abbrev kGrpPrimary : Nat := 0x520007
/-- 0x5200:08 `GRP_TOKEN_PAIR` (R556). -/
abbrev kGrpTokenPair : Nat := 0x520008
/-- 0x5200:09 `GRP_STANDIN` (R556). -/
abbrev kGrpStandin : Nat := 0x520009
/-- 0x5201:01 `TOKEN_BEACON_US` (R556). -/
abbrev kTokenBeaconUs : Nat := 0x520101
/-- 0x5201:02 `TOKEN_LEASE_MS` (R556). -/
abbrev kTokenLeaseMs : Nat := 0x520102
/-- 0x5201:03 `REFORM_PREPARE_MS` (R556). -/
abbrev kReformPrepareMs : Nat := 0x520103
/-- 0x5202:01 `REFORM_COUNT` (R556). -/
abbrev kReformCount : Nat := 0x520201
/-- 0x5202:02 `TOKEN_HALT_COUNT` (R556). -/
abbrev kTokenHaltCount : Nat := 0x520202
/-- 0x5202:03 `MGR_STALE_DROP` (R556). -/
abbrev kMgrStaleDrop : Nat := 0x520203
/-- 0x1000:01 `DEVICE_ID` (R595). -/
abbrev kDeviceId : Nat := 0x100001
/-- 0x1000:02 `PART_NUMBER` (R595). -/
abbrev kPartNumber : Nat := 0x100002
/-- 0x1000:03 `SERIAL` (R595). -/
abbrev kSerial : Nat := 0x100003
/-- 0x1000:04 `DEVICE_CERT` (R595). -/
abbrev kDeviceCert : Nat := 0x100004
/-- 0x1000:06 `ATTEST_RECORD` (R595). -/
abbrev kAttestRecord : Nat := 0x100006
/-- 0x1000:07 `ATTEST_SIG` (R595). -/
abbrev kAttestSig : Nat := 0x100007
/-- 0x1100:01 `SESSIONS_OPEN` (R595). -/
abbrev kSessionsOpen : Nat := 0x110001
/-- 0x1100:02 `SESSION_IDLE_S` (R595). -/
abbrev kSessionIdleS : Nat := 0x110002
/-- 0x1100:03 `QOP_UDP_PORT` (R595). -/
abbrev kQopUdpPort : Nat := 0x110003
/-- 0x1101:01 `NET_ADDR_0` (R595). -/
abbrev kNetAddr0 : Nat := 0x110101
/-- 0x1101:02 `NET_ADDR_1` (R595). -/
abbrev kNetAddr1 : Nat := 0x110102
/-- 0x1101:03 `NET_FEC` (R595). -/
abbrev kNetFec : Nat := 0x110103
/-- 0x1102:01 `SESSION_PROOF` (R595). -/
abbrev kSessionProof : Nat := 0x110201
/-- 0x1102:02 `CLIENT_PROOF` (R595). -/
abbrev kClientProof : Nat := 0x110202
/-- 0x1103:01 `TIME_NOW` (R595). -/
abbrev kTimeNow : Nat := 0x110301
/-- 0x1103:02 `PTP_STATE` (R595). -/
abbrev kPtpState : Nat := 0x110302
/-- 0x1103:03 `PTP_OFFSET_NS` (R595). -/
abbrev kPtpOffsetNs : Nat := 0x110303
/-- 0x1103:04 `PTP_DOMAIN` (R595). -/
abbrev kPtpDomain : Nat := 0x110304
/-- 0x1103:05 `PTP_PORT` (R595). -/
abbrev kPtpPort : Nat := 0x110305
/-- 0x1103:06 `PTP_SLEW_COUNT` (R595). -/
abbrev kPtpSlewCount : Nat := 0x110306
/-- 0x1110:01 `TXN_OPEN` (R595). -/
abbrev kTxnOpen : Nat := 0x111001
/-- 0x1110:02 `TXN_COMMITS` (R595). -/
abbrev kTxnCommits : Nat := 0x111002
/-- 0x1110:03 `TXN_ROLLBACKS` (R595). -/
abbrev kTxnRollbacks : Nat := 0x111003
/-- 0x1110:04 `TXN_EXPIRED` (R595). -/
abbrev kTxnExpired : Nat := 0x111004
/-- 0x1110:05 `MGMT_IGNORED_COUNT` (R595). -/
abbrev kMgmtIgnoredCount : Nat := 0x111005
/-- 0x1111:01 `QOP_AUTH_FAIL` (R595). -/
abbrev kQopAuthFail : Nat := 0x111101
/-- 0x1111:02 `QOP_MALFORMED` (R595). -/
abbrev kQopMalformed : Nat := 0x111102
/-- 0x1200:01 `OPERATORS` (R595). -/
abbrev kOperators : Nat := 0x120001
/-- 0x1201:01 `RB_COUNTER` (R595). -/
abbrev kRbCounter : Nat := 0x120101
/-- 0x1210:01 `FW_STAGE` (R595). -/
abbrev kFwStage : Nat := 0x121001
/-- 0x1210:02 `FW_CMD` (R595). -/
abbrev kFwCmd : Nat := 0x121002
/-- 0x1210:03 `FW_SLOT_A` (R595). -/
abbrev kFwSlotA : Nat := 0x121003
/-- 0x1210:04 `FW_SLOT_B` (R595). -/
abbrev kFwSlotB : Nat := 0x121004
/-- 0x1210:05 `FW_RUNNING` (R595). -/
abbrev kFwRunning : Nat := 0x121005
/-- 0x1210:06 `FW_VERSION` (R595). -/
abbrev kFwVersion : Nat := 0x121006
/-- 0x1210:07 `FW_RESULT` (R595). -/
abbrev kFwResult : Nat := 0x121007
/-- 0x1211:01 `CFG_RECORDS` (R595). -/
abbrev kCfgRecords : Nat := 0x121101
/-- 0x2100:00 `SENSOR_SEL` (R595). -/
abbrev kSensorSel : Nat := 0x210000
/-- 0x2100:01 `SENSOR_TEMP` (R595). -/
abbrev kSensorTemp : Nat := 0x210001
/-- 0x2101:01 `THERM_WARN_C` (R595). -/
abbrev kThermWarnC : Nat := 0x210101
/-- 0x2101:02 `THERM_TRIP_C` (R595). -/
abbrev kThermTripC : Nat := 0x210102
/-- 0x2101:03 `THERM_HOTTEST` (R595). -/
abbrev kThermHottest : Nat := 0x210103
/-- 0x2101:04 `THERM_WARN_COUNT` (R595). -/
abbrev kThermWarnCount : Nat := 0x210104
/-- 0xA000:01 `LOG_HEAD_SEQ` (R595). -/
abbrev kLogHeadSeq : Nat := 0xA00001
/-- 0xA000:02 `LOG_FIRST_SEQ` (R595). -/
abbrev kLogFirstSeq : Nat := 0xA00002
/-- 0xA000:03 `LOG_ANCHOR` (R595). -/
abbrev kLogAnchor : Nat := 0xA00003
/-- 0xA000:04 `LOG_HEAD_CHAIN` (R595). -/
abbrev kLogHeadChain : Nat := 0xA00004
/-- 0xA000:05 `LOG_DROPPED` (R595). -/
abbrev kLogDropped : Nat := 0xA00005
/-- 0x2010:01 `VIN_MV` (R607). -/
abbrev kVinMv : Nat := 0x201001
/-- 0x2010:02 `IIN_MA` (R607). -/
abbrev kIinMa : Nat := 0x201002
/-- 0x2010:03 `PIN_W` (R607). -/
abbrev kPinW : Nat := 0x201003
/-- 0x2010:04 `VIN_UV_COUNT` (R607). -/
abbrev kVinUvCount : Nat := 0x201004
/-- 0x2010:05 `PIN_PEAK_W` (R607). -/
abbrev kPinPeakW : Nat := 0x201005
/-- 0x2010:06 `CTRL_PINS` (R607). -/
abbrev kCtrlPins : Nat := 0x201006
/-- 0x2000:01 `PWR_LIMIT_W` (R643). -/
abbrev kPwrLimitW : Nat := 0x200001
/-- 0x2000:02 `PWR_PEAK_W` (R643). -/
abbrev kPwrPeakW : Nat := 0x200002
/-- 0x2000:03 `ARB_INTERVAL_US` (R643). -/
abbrev kArbIntervalUs : Nat := 0x200003
/-- 0x2000:04 `PROT_VMIN_MV` (R643). -/
abbrev kProtVminMv : Nat := 0x200004
/-- 0x2000:05 `PROT_BAYS` (R643). -/
abbrev kProtBays : Nat := 0x200005
/-- 0x2000:06 `BAY_VMAX_MV` (R643). -/
abbrev kBayVmaxMv : Nat := 0x200006
/-- 0x2000:07 `GRANT_SHARED_MV` (R643). -/
abbrev kGrantSharedMv : Nat := 0x200007
/-- 0x2000:08 `ARB_MODE` (R643). -/
abbrev kArbMode : Nat := 0x200008
/-- 0x2001:00 `BAY_SEL` (R643). -/
abbrev kBaySel : Nat := 0x200100
/-- 0x2001:01 `BAY_V_MV` (R643). -/
abbrev kBayVMv : Nat := 0x200101
/-- 0x2001:02 `BAY_I_MA` (R643). -/
abbrev kBayIMa : Nat := 0x200102
/-- 0x2001:03 `BAY_BEATS_PER_US` (R643). -/
abbrev kBayBeatsPerUs : Nat := 0x200103
/-- 0x2001:04 `BAY_ENERGY_MJ` (R643). -/
abbrev kBayEnergyMj : Nat := 0x200104
/-- 0x2001:05 `BAY_BEATS` (R643). -/
abbrev kBayBeats : Nat := 0x200105
/-- 0x2001:06 `BAY_LIMIT_COUNT` (R643). -/
abbrev kBayLimitCount : Nat := 0x200106
/-- 0x2002:01 `PWR_PEAK_INTERVALS` (R643). -/
abbrev kPwrPeakIntervals : Nat := 0x200201
/-- 0x2002:02 `THERM_CAP_COUNT` (R643). -/
abbrev kThermCapCount : Nat := 0x200202
/-- 0x2002:03 `PEAK_CREDIT_MJ` (R643). -/
abbrev kPeakCreditMj : Nat := 0x200203
/-- 0x9020:01 `MUTEX_SLOW_COUNT` (R643). -/
abbrev kMutexSlowCount : Nat := 0x902001
/-- 0x9020:02 `MUTEX_SKEW_NS` (R643). -/
abbrev kMutexSkewNs : Nat := 0x902002
/-- 0x9000:01 `BOOT_STAGE` (R657). -/
abbrev kBootStage : Nat := 0x900001
/-- 0x9000:02 `BOOT_FAIL` (R657). -/
abbrev kBootFail : Nat := 0x900002
/-- 0x9000:03 `RESET_KIND` (R657). -/
abbrev kResetKind : Nat := 0x900003
/-- 0x9000:04 `RESET_CMD` (R657). -/
abbrev kResetCmd : Nat := 0x900004
/-- 0x9000:05 `BOOT_TIME_MS` (R657). -/
abbrev kBootTimeMs : Nat := 0x900005
/-- 0x9000:06 `PAIR_REFUSED_COUNT` (R657). -/
abbrev kPairRefusedCount : Nat := 0x900006
/-- 0x9001:01 `ST_LEVEL` (R657). -/
abbrev kStLevel : Nat := 0x900101
/-- 0x9001:02 `ST_RESULT` (R657). -/
abbrev kStResult : Nat := 0x900102
/-- 0x9001:03 `ST_FAIL_UNIT` (R657). -/
abbrev kStFailUnit : Nat := 0x900103
/-- 0x9001:04 `ST_REPAIRS` (R657). -/
abbrev kStRepairs : Nat := 0x900104
/-- 0x5203:01 `LEAF_MGR_ADDR` (R657). -/
abbrev kLeafMgrAddr : Nat := 0x520301
/-- 0x9030:00 `BT_SEL` (R657). -/
abbrev kBtSel : Nat := 0x903000
/-- 0x9030:01 `BT_CMD` (R657). -/
abbrev kBtCmd : Nat := 0x903001
/-- 0x9030:02 `BT_RESULT` (R657). -/
abbrev kBtResult : Nat := 0x903002
/-- 0x9040:00 `LB_PORT_SEL` (R657). -/
abbrev kLbPortSel : Nat := 0x904000
/-- 0x9040:01 `LB_CTRL` (R657). -/
abbrev kLbCtrl : Nat := 0x904001
/-- 0x9040:02 `LB_BITS` (R657). -/
abbrev kLbBits : Nat := 0x904002
/-- 0x9040:03 `LB_ERRORS` (R657). -/
abbrev kLbErrors : Nat := 0x904003
/-- 0x9040:04 `LB_WORST_LANE` (R657). -/
abbrev kLbWorstLane : Nat := 0x904004

def objRows0 : List ObjRow :=
  [⟨0x4000, 0, 0, 4, 0, 0, false, 65535, 0, hiAll 4⟩,
   ⟨0x4002, 0, 0, 1, 2, 1, false, 1, 0, 1⟩,
   ⟨0x4003, 1, 1, 8, 0, 1, true, 0, 0, hiAll 8⟩,
   ⟨0x4003, 2, 2, 8, 0, 1, true, 0, 0, hiAll 8⟩,
   ⟨0x4003, 3, 3, 8, 0, 1, true, 0, 0, hiAll 8⟩,
   ⟨0x4003, 4, 4, 8, 0, 1, true, 0, 0, hiAll 8⟩,
   ⟨0x4003, 5, 5, 8, 0, 1, true, 0, 0, hiAll 8⟩,
   ⟨0x4003, 6, 6, 8, 0, 1, true, 0, 0, hiAll 8⟩,
   ⟨0x9010, 0, 0, 8, 0, 1, true, 0, 0, hiAll 8⟩,
   ⟨0x9010, 1, 1, 8, 0, 1, true, 0, 0, hiAll 8⟩,
   ⟨0x9010, 2, 2, 8, 0, 1, true, 0, 0, hiAll 8⟩,
   ⟨0x9010, 3, 3, 8, 0, 1, true, 0, 0, hiAll 8⟩,
   ⟨0x9010, 4, 4, 8, 0, 0, false, 0, 0, hiAll 8⟩,
   ⟨0x9012, 0, 0, 4, 0, 1, false, 0, 0, hiAll 4⟩,
   ⟨0x4010, 1, 16, 2, 0, 1, false, 256, 0, 256⟩,
   ⟨0x4011, 1, 16, 4, 0, 0, false, 0, 0, hiAll 4⟩,
   ⟨0x4013, 1, 1, 8, 0, 1, true, 0, 0, hiAll 8⟩,
   ⟨0x4013, 2, 2, 4, 0, 0, false, 0, 0, hiAll 4⟩,
   ⟨0x4013, 3, 3, 8, 0, 1, true, 0, 0, hiAll 8⟩,
   ⟨0x4013, 4, 4, 8, 0, 1, true, 0, 0, hiAll 8⟩,
   ⟨0x4013, 5, 5, 8, 0, 1, true, 0, 0, hiAll 8⟩,
   ⟨0x4013, 6, 6, 8, 0, 1, true, 0, 0, hiAll 8⟩,
   ⟨0x4101, 1, 1, 8, 0, 1, true, 0, 0, hiAll 8⟩,
   ⟨0x4101, 2, 2, 8, 0, 1, true, 0, 0, hiAll 8⟩]

def objRows1 : List ObjRow :=
  [⟨0x4101, 3, 3, 8, 0, 1, true, 0, 0, hiAll 8⟩,
   ⟨0x4101, 4, 4, 8, 0, 1, true, 0, 0, hiAll 8⟩,
   ⟨0x4101, 5, 5, 8, 0, 1, true, 0, 0, hiAll 8⟩,
   ⟨0x4003, 7, 7, 8, 0, 1, true, 0, 0, hiAll 8⟩,
   ⟨0x4003, 8, 8, 8, 0, 1, true, 0, 0, hiAll 8⟩,
   ⟨0x4020, 1, 1, 8, 0, 1, true, 0, 0, hiAll 8⟩,
   ⟨0x4020, 2, 2, 8, 0, 1, true, 0, 0, hiAll 8⟩,
   ⟨0x4020, 3, 3, 8, 0, 1, true, 0, 0, hiAll 8⟩,
   ⟨0x4030, 0, 0, 1, 0, 1, false, 0, 0, hiAll 1⟩,
   ⟨0x4030, 1, 1, 8, 0, 1, false, 0, 0, hiAll 8⟩,
   ⟨0x4030, 2, 2, 2, 0, 1, false, 0, 0, 4095⟩,
   ⟨0x4030, 3, 3, 1, 0, 0, false, 0, 0, hiAll 1⟩,
   ⟨0x4030, 4, 4, 2, 0, 0, false, 0, 0, hiAll 2⟩,
   ⟨0x4031, 1, 1, 8, 0, 1, true, 0, 0, hiAll 8⟩,
   ⟨0x4031, 2, 2, 8, 0, 1, true, 0, 0, hiAll 8⟩,
   ⟨0x4031, 3, 3, 8, 0, 1, true, 0, 0, hiAll 8⟩,
   ⟨0x4031, 4, 4, 8, 0, 1, true, 0, 0, hiAll 8⟩,
   ⟨0x4031, 5, 5, 8, 0, 1, true, 0, 0, hiAll 8⟩,
   ⟨0x4031, 6, 6, 8, 0, 1, true, 0, 0, hiAll 8⟩,
   ⟨0x4031, 7, 7, 8, 0, 1, true, 0, 0, hiAll 8⟩,
   ⟨0x4031, 8, 8, 8, 0, 1, true, 0, 0, hiAll 8⟩,
   ⟨0x4031, 9, 9, 8, 0, 1, true, 0, 0, hiAll 8⟩,
   ⟨0x4040, 1, 1, 8, 0, 1, true, 0, 0, hiAll 8⟩,
   ⟨0x4040, 2, 2, 8, 0, 1, true, 0, 0, hiAll 8⟩]

def objRows2 : List ObjRow :=
  [⟨0x4040, 3, 3, 8, 0, 1, true, 0, 0, hiAll 8⟩,
   ⟨0x3000, 1, 1, 1, 0, 0, false, 20, 0, hiAll 1⟩,
   ⟨0x3000, 2, 2, 4, 0, 0, false, 11440, 0, hiAll 4⟩,
   ⟨0x3000, 3, 3, 2, 0, 0, false, 9600, 0, hiAll 2⟩,
   ⟨0x3001, 1, 8, 8, 0, 1, false, 0, 0, hiAll 8⟩,
   ⟨0x3010, 1, 1, 1, 0, 1, false, 12, 0, 15⟩,
   ⟨0x3010, 2, 2, 8, 0, 1, true, 0, 0, hiAll 8⟩,
   ⟨0x3010, 3, 3, 8, 0, 1, true, 0, 0, hiAll 8⟩,
   ⟨0x3010, 4, 4, 8, 0, 1, true, 0, 0, hiAll 8⟩,
   ⟨0x3010, 5, 5, 1, 2, 1, false, 0, 0, 1⟩,
   ⟨0x3020, 0, 0, 1, 0, 1, false, 0, 0, 63⟩,
   ⟨0x3020, 1, 1, 2, 0, 1, false, 0, 0, 1100⟩,
   ⟨0x3020, 2, 2, 2, 0, 1, false, 64, 1, 65535⟩,
   ⟨0x3020, 3, 3, 1, 2, 1, false, 1, 0, 1⟩,
   ⟨0x3020, 4, 4, 8, 0, 1, true, 0, 0, hiAll 8⟩,
   ⟨0x3020, 5, 5, 8, 0, 1, true, 0, 0, hiAll 8⟩,
   ⟨0x3030, 1, 1, 8, 0, 1, true, 0, 0, hiAll 8⟩,
   ⟨0x3030, 2, 2, 8, 0, 1, true, 0, 0, hiAll 8⟩,
   ⟨0x3031, 1, 1, 8, 0, 1, true, 0, 0, hiAll 8⟩,
   ⟨0x3031, 2, 2, 8, 0, 1, true, 0, 0, hiAll 8⟩,
   ⟨0x3040, 0, 0, 2, 0, 1, false, 0, 0, 319⟩,
   ⟨0x3040, 1, 1, 8, 0, 1, true, 0, 0, hiAll 8⟩,
   ⟨0x3040, 2, 2, 8, 0, 1, true, 0, 0, hiAll 8⟩,
   ⟨0x3040, 3, 3, 8, 0, 1, true, 0, 0, hiAll 8⟩]

def objRows3 : List ObjRow :=
  [⟨0x3040, 4, 4, 8, 0, 0, false, 0, 0, hiAll 8⟩,
   ⟨0x3040, 5, 5, 2, 0, 0, false, 0, 0, hiAll 2⟩,
   ⟨0x3040, 6, 6, 2, 0, 1, false, 24, 1, 720⟩,
   ⟨0x3040, 7, 7, 2, 0, 1, false, 16, 0, hiAll 2⟩,
   ⟨0x3040, 8, 8, 8, 0, 1, true, 0, 0, hiAll 8⟩,
   ⟨0x3050, 0, 0, 2, 0, 1, false, 0, 0, 319⟩,
   ⟨0x3050, 1, 1, 8, 0, 1, false, 4295081984, 0, hiAll 8⟩,
   ⟨0x3050, 2, 2, 8, 0, 0, false, 0, 0, hiAll 8⟩,
   ⟨0x3050, 3, 3, 8, 0, 1, true, 0, 0, hiAll 8⟩,
   ⟨0x3050, 4, 4, 8, 0, 1, true, 0, 0, hiAll 8⟩,
   ⟨0x3050, 5, 5, 1, 0, 1, false, 0, 0, 15⟩,
   ⟨0x3050, 6, 6, 8, 0, 0, false, 0, 0, hiAll 8⟩,
   ⟨0x3050, 7, 7, 8, 0, 0, false, 0, 0, hiAll 8⟩,
   ⟨0x3050, 8, 8, 8, 0, 0, false, 0, 0, hiAll 8⟩,
   ⟨0x3100, 0, 0, 1, 0, 1, false, 0, 0, hiAll 1⟩,
   ⟨0x3100, 1, 1, 8, 0, 1, false, 0, 0, hiAll 8⟩,
   ⟨0x3101, 1, 1, 4, 0, 1, false, 10000, 1, 10000000⟩,
   ⟨0x3101, 2, 2, 8, 0, 1, true, 0, 0, hiAll 8⟩,
   ⟨0x3101, 3, 3, 8, 0, 1, true, 0, 0, hiAll 8⟩,
   ⟨0x3102, 1, 1, 4, 0, 1, false, 0, 0, hiAll 4⟩,
   ⟨0x3102, 2, 2, 4, 0, 1, false, 0, 0, hiAll 4⟩,
   ⟨0x3110, 1, 1, 8, 0, 1, true, 0, 0, hiAll 8⟩,
   ⟨0x3110, 2, 2, 8, 0, 1, true, 0, 0, hiAll 8⟩,
   ⟨0x3110, 3, 3, 8, 0, 1, true, 0, 0, hiAll 8⟩]

def objRows4 : List ObjRow :=
  [⟨0x3110, 4, 4, 8, 0, 1, true, 0, 0, hiAll 8⟩,
   ⟨0x3110, 5, 5, 8, 0, 1, true, 0, 0, hiAll 8⟩,
   ⟨0x3110, 6, 6, 8, 0, 1, true, 0, 0, hiAll 8⟩,
   ⟨0x3110, 7, 7, 8, 0, 1, true, 0, 0, hiAll 8⟩,
   ⟨0x3110, 8, 8, 8, 0, 1, true, 0, 0, hiAll 8⟩,
   ⟨0x3111, 1, 1, 4, 0, 1, false, 2000, 1, 10000000⟩,
   ⟨0x3120, 1, 1, 4, 0, 0, false, 7629394, 0, hiAll 4⟩,
   ⟨0x3120, 2, 2, 2, 0, 0, false, 0, 0, hiAll 2⟩,
   ⟨0x3120, 3, 3, 2, 0, 0, false, 0, 0, hiAll 2⟩,
   ⟨0x3120, 4, 4, 2, 0, 1, false, 200, 0, hiAll 2⟩,
   ⟨0x3120, 5, 5, 4, 0, 1, false, 100000, 0, hiAll 4⟩,
   ⟨0x3120, 6, 6, 8, 0, 1, true, 0, 0, hiAll 8⟩,
   ⟨0x3120, 7, 7, 8, 0, 1, true, 0, 0, hiAll 8⟩,
   ⟨0x3120, 8, 8, 8, 0, 1, true, 0, 0, hiAll 8⟩,
   ⟨0x3120, 9, 9, 8, 0, 1, true, 0, 0, hiAll 8⟩,
   ⟨0x3120, 10, 10, 4, 0, 0, false, 0, 0, hiAll 4⟩,
   ⟨0x3121, 1, 1, 8, 0, 0, false, 0, 0, hiAll 8⟩,
   ⟨0x4110, 0, 0, 1, 0, 1, false, 0, 0, hiAll 1⟩,
   ⟨0x4110, 1, 1, 8, 0, 1, false, 0, 0, hiAll 8⟩,
   ⟨0x4110, 2, 2, 8, 0, 0, false, 0, 0, hiAll 8⟩,
   ⟨0x4110, 3, 3, 4, 0, 0, false, 0, 0, hiAll 4⟩,
   ⟨0x4110, 4, 4, 4, 0, 0, false, 0, 0, hiAll 4⟩,
   ⟨0x4110, 5, 5, 4, 0, 0, false, 0, 0, hiAll 4⟩,
   ⟨0x4110, 6, 6, 1, 2, 1, false, 1, 0, 1⟩]

def objRows5 : List ObjRow :=
  [⟨0x4110, 7, 7, 1, 0, 0, false, 0, 0, hiAll 1⟩,
   ⟨0x4110, 8, 8, 4, 0, 0, false, 0, 0, hiAll 4⟩,
   ⟨0x4110, 9, 9, 8, 0, 0, false, 0, 0, hiAll 8⟩,
   ⟨0x4111, 1, 1, 4, 0, 0, false, 0, 0, hiAll 4⟩,
   ⟨0x4111, 2, 2, 4, 0, 1, false, 0, 0, 1048575⟩,
   ⟨0x4111, 3, 3, 128, 3, 0, false, 0, 0, 0⟩,
   ⟨0x4112, 1, 1, 8, 0, 1, true, 0, 0, hiAll 8⟩,
   ⟨0x4112, 2, 2, 8, 0, 1, true, 0, 0, hiAll 8⟩,
   ⟨0x4112, 3, 3, 8, 0, 1, true, 0, 0, hiAll 8⟩,
   ⟨0x4112, 4, 4, 8, 0, 1, true, 0, 0, hiAll 8⟩,
   ⟨0x4112, 5, 5, 8, 0, 1, true, 0, 0, hiAll 8⟩,
   ⟨0x4112, 6, 6, 8, 0, 1, true, 0, 0, hiAll 8⟩,
   ⟨0x4112, 7, 7, 8, 0, 1, true, 0, 0, hiAll 8⟩,
   ⟨0x4112, 8, 8, 8, 0, 1, true, 0, 0, hiAll 8⟩,
   ⟨0x4112, 9, 9, 8, 0, 1, true, 0, 0, hiAll 8⟩,
   ⟨0x4112, 10, 10, 8, 0, 1, true, 0, 0, hiAll 8⟩,
   ⟨0x4112, 11, 11, 8, 0, 1, true, 0, 0, hiAll 8⟩,
   ⟨0x4112, 12, 12, 8, 0, 1, true, 0, 0, hiAll 8⟩,
   ⟨0x6010, 0, 0, 1, 0, 1, false, 0, 0, hiAll 1⟩,
   ⟨0x6010, 1, 1, 8, 0, 1, true, 0, 0, hiAll 8⟩,
   ⟨0x6010, 2, 2, 8, 0, 1, true, 0, 0, hiAll 8⟩,
   ⟨0x6010, 3, 3, 8, 0, 1, true, 0, 0, hiAll 8⟩,
   ⟨0x6010, 4, 4, 8, 0, 1, true, 0, 0, hiAll 8⟩,
   ⟨0x6010, 5, 5, 8, 0, 1, true, 0, 0, hiAll 8⟩]

def objRows6 : List ObjRow :=
  [⟨0x6010, 6, 6, 8, 0, 1, true, 0, 0, hiAll 8⟩,
   ⟨0x6010, 7, 7, 8, 0, 1, true, 0, 0, hiAll 8⟩,
   ⟨0x6010, 8, 8, 8, 0, 1, true, 0, 0, hiAll 8⟩,
   ⟨0x6010, 9, 9, 8, 0, 1, true, 0, 0, hiAll 8⟩,
   ⟨0x6010, 10, 10, 8, 0, 1, true, 0, 0, hiAll 8⟩,
   ⟨0x6010, 11, 11, 8, 0, 1, true, 0, 0, hiAll 8⟩,
   ⟨0x6010, 12, 12, 8, 0, 1, true, 0, 0, hiAll 8⟩,
   ⟨0x6011, 1, 1, 8, 0, 1, true, 0, 0, hiAll 8⟩,
   ⟨0x7000, 1, 1, 4, 0, 0, false, 0, 0, hiAll 4⟩,
   ⟨0x7000, 2, 2, 1, 0, 1, false, 4, 1, 64⟩,
   ⟨0x7001, 1, 1, 8, 0, 1, true, 0, 0, hiAll 8⟩,
   ⟨0x7001, 2, 2, 8, 0, 1, true, 0, 0, hiAll 8⟩,
   ⟨0x7001, 3, 3, 8, 0, 1, true, 0, 0, hiAll 8⟩,
   ⟨0x7001, 4, 4, 8, 0, 1, true, 0, 0, hiAll 8⟩,
   ⟨0x7001, 5, 5, 8, 0, 1, true, 0, 0, hiAll 8⟩,
   ⟨0x7002, 1, 1, 8, 0, 1, true, 0, 0, hiAll 8⟩,
   ⟨0x7002, 2, 2, 8, 0, 1, true, 0, 0, hiAll 8⟩,
   ⟨0x7002, 3, 3, 8, 0, 1, true, 0, 0, hiAll 8⟩,
   ⟨0x7002, 4, 4, 8, 0, 1, true, 0, 0, hiAll 8⟩,
   ⟨0x7003, 1, 1, 8, 0, 1, true, 0, 0, hiAll 8⟩,
   ⟨0x7100, 1, 1, 4, 0, 1, false, 0, 0, hiAll 4⟩,
   ⟨0x7100, 2, 2, 1, 0, 1, false, 8, 2, 255⟩,
   ⟨0x7100, 3, 3, 2, 0, 1, false, 512, 64, 4096⟩,
   ⟨0x7100, 4, 4, 1, 0, 1, false, 2, 1, 3⟩]

def objRows7 : List ObjRow :=
  [⟨0x7100, 5, 5, 2, 0, 1, false, 630, 0, hiAll 2⟩,
   ⟨0x7100, 6, 6, 4, 0, 0, false, 0, 0, hiAll 4⟩,
   ⟨0x7101, 1, 1, 8, 0, 1, false, 0, 0, hiAll 8⟩,
   ⟨0x7101, 2, 2, 4, 0, 1, false, 16666667, 0, hiAll 4⟩,
   ⟨0x7101, 3, 3, 4, 0, 1, false, 2000000, 0, hiAll 4⟩,
   ⟨0x7101, 4, 4, 4, 0, 1, false, 50000000, 0, hiAll 4⟩,
   ⟨0x7102, 1, 1, 8, 0, 1, true, 0, 0, hiAll 8⟩,
   ⟨0x7102, 2, 2, 8, 0, 1, true, 0, 0, hiAll 8⟩,
   ⟨0x7102, 3, 3, 8, 0, 1, true, 0, 0, hiAll 8⟩,
   ⟨0x7102, 4, 4, 8, 0, 1, true, 0, 0, hiAll 8⟩,
   ⟨0x7102, 5, 5, 8, 0, 1, true, 0, 0, hiAll 8⟩,
   ⟨0x7102, 6, 6, 8, 0, 1, true, 0, 0, hiAll 8⟩,
   ⟨0x7102, 7, 7, 8, 0, 1, true, 0, 0, hiAll 8⟩,
   ⟨0x7102, 8, 8, 8, 0, 1, true, 0, 0, hiAll 8⟩,
   ⟨0x7102, 9, 9, 8, 0, 1, true, 0, 0, hiAll 8⟩,
   ⟨0x7102, 10, 10, 8, 0, 1, true, 0, 0, hiAll 8⟩,
   ⟨0x7102, 11, 11, 8, 0, 1, true, 0, 0, hiAll 8⟩,
   ⟨0x7102, 12, 12, 8, 0, 1, true, 0, 0, hiAll 8⟩,
   ⟨0x7102, 13, 13, 8, 0, 1, true, 0, 0, hiAll 8⟩,
   ⟨0x7102, 14, 14, 8, 0, 1, true, 0, 0, hiAll 8⟩,
   ⟨0x6000, 0, 0, 1, 0, 1, false, 0, 0, hiAll 1⟩,
   ⟨0x6000, 1, 1, 8, 0, 1, false, 0, 0, hiAll 8⟩,
   ⟨0x6000, 2, 2, 1, 0, 2, false, 0, 0, hiAll 1⟩,
   ⟨0x6000, 3, 3, 1, 0, 0, false, 0, 0, hiAll 1⟩]

def objRows8 : List ObjRow :=
  [⟨0x6000, 4, 4, 1, 0, 0, false, 0, 0, hiAll 1⟩,
   ⟨0x6000, 5, 5, 2, 0, 0, false, 0, 0, hiAll 2⟩,
   ⟨0x6001, 1, 1, 2, 0, 0, false, 0, 0, hiAll 2⟩,
   ⟨0x6001, 2, 2, 2, 0, 0, false, 4096, 0, hiAll 2⟩,
   ⟨0x6001, 3, 3, 1, 0, 0, false, 24, 0, hiAll 1⟩,
   ⟨0x6002, 1, 1, 8, 0, 1, true, 0, 0, hiAll 8⟩,
   ⟨0x6002, 2, 2, 8, 0, 1, true, 0, 0, hiAll 8⟩,
   ⟨0x6002, 3, 3, 8, 0, 1, true, 0, 0, hiAll 8⟩,
   ⟨0x6002, 4, 4, 8, 0, 1, true, 0, 0, hiAll 8⟩,
   ⟨0x6002, 5, 5, 8, 0, 1, true, 0, 0, hiAll 8⟩,
   ⟨0x6002, 6, 6, 8, 0, 1, true, 0, 0, hiAll 8⟩,
   ⟨0x6003, 0, 0, 2, 0, 1, false, 0, 0, 4095⟩,
   ⟨0x6003, 1, 1, 8, 0, 0, false, 0, 0, hiAll 8⟩,
   ⟨0x6004, 1, 1, 8, 0, 1, false, 0, 0, hiAll 8⟩,
   ⟨0x6004, 2, 2, 1, 0, 1, false, 8, 4, 16⟩,
   ⟨0x6004, 3, 3, 8, 0, 1, false, 0, 0, hiAll 8⟩,
   ⟨0x6004, 4, 4, 1, 0, 1, false, 10, 4, 16⟩,
   ⟨0x6004, 5, 5, 2, 0, 1, false, 65535, 0, hiAll 2⟩,
   ⟨0x6004, 6, 6, 2, 0, 1, false, 0, 0, hiAll 2⟩,
   ⟨0x6004, 7, 7, 4, 0, 0, false, 0, 0, hiAll 4⟩,
   ⟨0x6004, 8, 8, 4, 0, 0, false, 0, 0, hiAll 4⟩,
   ⟨0x6004, 9, 9, 4, 0, 1, false, 1000, 1, 10000000⟩,
   ⟨0x6004, 10, 10, 8, 0, 1, true, 0, 0, hiAll 8⟩,
   ⟨0x6005, 1, 1, 4, 0, 1, false, 0, 0, hiAll 4⟩]

def objRows9 : List ObjRow :=
  [⟨0x6005, 2, 2, 4, 0, 1, false, 0, 0, 2097152⟩,
   ⟨0x6005, 3, 3, 2, 0, 1, false, 100, 10, 10000⟩,
   ⟨0x6005, 4, 4, 1, 0, 0, false, 0, 0, hiAll 1⟩,
   ⟨0x6005, 5, 5, 8, 0, 1, true, 0, 0, hiAll 8⟩,
   ⟨0x6005, 6, 6, 8, 0, 1, true, 0, 0, hiAll 8⟩,
   ⟨0x6005, 7, 7, 8, 0, 1, true, 0, 0, hiAll 8⟩,
   ⟨0x6005, 8, 8, 8, 0, 1, true, 0, 0, hiAll 8⟩,
   ⟨0x6005, 9, 9, 8, 0, 1, true, 0, 0, hiAll 8⟩,
   ⟨0x6005, 10, 10, 2, 0, 1, false, 65535, 0, hiAll 2⟩,
   ⟨0x5000, 1, 1, 1, 0, 0, false, 36, 0, hiAll 1⟩,
   ⟨0x5000, 2, 2, 4, 0, 1, false, 0, 0, 16777215⟩,
   ⟨0x5001, 0, 0, 1, 0, 1, false, 0, 0, 35⟩,
   ⟨0x5001, 1, 1, 1, 0, 0, false, 0, 0, hiAll 1⟩,
   ⟨0x5001, 2, 2, 8, 0, 1, true, 0, 0, hiAll 8⟩,
   ⟨0x5001, 3, 3, 8, 0, 1, true, 0, 0, hiAll 8⟩,
   ⟨0x5001, 4, 4, 8, 0, 1, true, 0, 0, hiAll 8⟩,
   ⟨0x5001, 5, 5, 8, 0, 1, true, 0, 0, hiAll 8⟩,
   ⟨0x5001, 6, 6, 1, 2, 1, false, 1, 0, 1⟩,
   ⟨0x5002, 0, 0, 4, 0, 1, false, 0, 0, 16777215⟩,
   ⟨0x5002, 1, 1, 4, 0, 1, false, 0, 0, 4294967295⟩,
   ⟨0x5010, 1, 1, 4, 0, 1, false, 100000, 1, 10000000⟩,
   ⟨0x5011, 1, 1, 8, 0, 1, true, 0, 0, hiAll 8⟩,
   ⟨0x5011, 2, 2, 8, 0, 1, true, 0, 0, hiAll 8⟩,
   ⟨0x5011, 3, 3, 8, 0, 1, true, 0, 0, hiAll 8⟩]

def objRows10 : List ObjRow :=
  [⟨0x5011, 4, 4, 8, 0, 1, true, 0, 0, hiAll 8⟩,
   ⟨0x5011, 5, 5, 8, 0, 1, true, 0, 0, hiAll 8⟩,
   ⟨0x5011, 6, 6, 8, 0, 1, true, 0, 0, hiAll 8⟩,
   ⟨0x5011, 7, 7, 8, 0, 1, true, 0, 0, hiAll 8⟩,
   ⟨0x5011, 8, 8, 8, 0, 1, true, 0, 0, hiAll 8⟩,
   ⟨0x5011, 9, 9, 8, 0, 1, true, 0, 0, hiAll 8⟩,
   ⟨0x5011, 10, 10, 8, 0, 1, true, 0, 0, hiAll 8⟩,
   ⟨0x5012, 1, 1, 2, 0, 0, false, 0, 0, hiAll 2⟩,
   ⟨0x5100, 1, 1, 1, 0, 0, false, 0, 0, hiAll 1⟩,
   ⟨0x5100, 2, 2, 8, 0, 0, false, 0, 0, hiAll 8⟩,
   ⟨0x5100, 3, 3, 1, 0, 0, false, 0, 0, hiAll 1⟩,
   ⟨0x5100, 4, 4, 1, 0, 1, false, 4, 2, 16⟩,
   ⟨0x5100, 5, 5, 2, 0, 1, false, 8, 4, 1000⟩,
   ⟨0x5100, 6, 6, 1, 0, 0, false, 0, 0, hiAll 1⟩,
   ⟨0x5100, 7, 7, 1, 0, 2, false, 0, 0, hiAll 1⟩,
   ⟨0x5100, 8, 8, 2, 0, 1, false, 65535, 0, hiAll 2⟩,
   ⟨0x5110, 1, 1, 8, 0, 1, true, 0, 0, hiAll 8⟩,
   ⟨0x5110, 2, 2, 8, 0, 1, true, 0, 0, hiAll 8⟩,
   ⟨0x5110, 3, 3, 8, 0, 1, true, 0, 0, hiAll 8⟩,
   ⟨0x5110, 4, 4, 8, 0, 1, true, 0, 0, hiAll 8⟩,
   ⟨0x5110, 5, 5, 8, 0, 1, true, 0, 0, hiAll 8⟩,
   ⟨0x5110, 6, 6, 8, 0, 1, true, 0, 0, hiAll 8⟩,
   ⟨0x5110, 7, 7, 8, 0, 1, true, 0, 0, hiAll 8⟩,
   ⟨0x5110, 8, 8, 8, 0, 1, true, 0, 0, hiAll 8⟩]

def objRows11 : List ObjRow :=
  [⟨0x5120, 0, 0, 1, 0, 1, false, 0, 0, hiAll 1⟩,
   ⟨0x5120, 1, 1, 8, 0, 1, false, 0, 0, hiAll 8⟩,
   ⟨0x5120, 2, 2, 4, 0, 1, false, 0, 0, hiAll 4⟩,
   ⟨0x5120, 3, 3, 4, 0, 0, false, 0, 0, hiAll 4⟩,
   ⟨0x5130, 0, 0, 1, 0, 1, false, 0, 0, hiAll 1⟩,
   ⟨0x5130, 1, 1, 8, 0, 1, false, 0, 0, hiAll 8⟩,
   ⟨0x5130, 2, 2, 2, 0, 1, false, 0, 0, 4096⟩,
   ⟨0x5130, 3, 3, 8, 0, 0, false, 0, 0, hiAll 8⟩,
   ⟨0x5200, 0, 0, 1, 0, 1, false, 0, 0, 15⟩,
   ⟨0x5200, 1, 1, 2, 0, 0, false, 0, 0, hiAll 2⟩,
   ⟨0x5200, 2, 2, 4, 0, 0, false, 0, 0, hiAll 4⟩,
   ⟨0x5200, 3, 3, 2, 0, 0, false, 0, 0, hiAll 2⟩,
   ⟨0x5200, 4, 4, 4, 0, 0, false, 0, 0, hiAll 4⟩,
   ⟨0x5200, 5, 5, 1, 0, 0, false, 0, 0, hiAll 1⟩,
   ⟨0x5200, 6, 6, 1, 0, 0, false, 0, 0, hiAll 1⟩,
   ⟨0x5200, 7, 7, 2, 0, 0, false, 0, 0, hiAll 2⟩,
   ⟨0x5200, 8, 8, 2, 0, 0, false, 0, 0, hiAll 2⟩,
   ⟨0x5200, 9, 9, 4, 0, 0, false, 4294967295, 0, hiAll 4⟩,
   ⟨0x5201, 1, 1, 4, 0, 1, false, 1000, 100, 100000⟩,
   ⟨0x5201, 2, 2, 2, 0, 1, false, 10, 0, hiAll 2⟩,
   ⟨0x5201, 3, 3, 2, 0, 1, false, 500, 100, 1000⟩,
   ⟨0x5202, 1, 1, 8, 0, 1, true, 0, 0, hiAll 8⟩,
   ⟨0x5202, 2, 2, 8, 0, 1, true, 0, 0, hiAll 8⟩,
   ⟨0x5202, 3, 3, 8, 0, 1, true, 0, 0, hiAll 8⟩]

def objRows12 : List ObjRow :=
  [⟨0x1000, 1, 1, 8, 0, 0, false, 0, 0, hiAll 8⟩,
   ⟨0x1000, 2, 2, 16, 3, 0, false, 0, 0, 0⟩,
   ⟨0x1000, 3, 3, 16, 3, 0, false, 0, 0, 0⟩,
   ⟨0x1000, 4, 4, 16384, 3, 0, false, 0, 0, 0⟩,
   ⟨0x1000, 6, 6, 256, 3, 0, false, 0, 0, 0⟩,
   ⟨0x1000, 7, 7, 3405, 3, 0, false, 0, 0, 0⟩,
   ⟨0x1100, 1, 1, 1, 0, 0, false, 0, 0, hiAll 1⟩,
   ⟨0x1100, 2, 2, 4, 0, 1, false, 600, 60, 86400⟩,
   ⟨0x1100, 3, 3, 2, 0, 1, false, 4817, 1024, 65535⟩,
   ⟨0x1101, 1, 1, 16, 3, 1, false, 0, 0, 0⟩,
   ⟨0x1101, 2, 2, 16, 3, 1, false, 0, 0, 0⟩,
   ⟨0x1101, 3, 3, 1, 0, 1, false, 1, 0, 2⟩,
   ⟨0x1102, 1, 1, 3405, 3, 0, false, 0, 0, 0⟩,
   ⟨0x1102, 2, 2, 3405, 3, 2, false, 0, 0, 0⟩,
   ⟨0x1103, 1, 1, 8, 0, 0, false, 0, 0, hiAll 8⟩,
   ⟨0x1103, 2, 2, 1, 0, 0, false, 0, 0, hiAll 1⟩,
   ⟨0x1103, 3, 3, 4, 1, 0, false, 0, 0, hiAll 4⟩,
   ⟨0x1103, 4, 4, 1, 0, 1, false, 0, 0, 127⟩,
   ⟨0x1103, 5, 5, 1, 0, 0, false, 0, 0, hiAll 1⟩,
   ⟨0x1103, 6, 6, 8, 0, 1, true, 0, 0, hiAll 8⟩,
   ⟨0x1110, 1, 1, 1, 0, 0, false, 0, 0, hiAll 1⟩,
   ⟨0x1110, 2, 2, 8, 0, 1, true, 0, 0, hiAll 8⟩,
   ⟨0x1110, 3, 3, 8, 0, 1, true, 0, 0, hiAll 8⟩,
   ⟨0x1110, 4, 4, 8, 0, 1, true, 0, 0, hiAll 8⟩]

def objRows13 : List ObjRow :=
  [⟨0x1110, 5, 5, 8, 0, 1, true, 0, 0, hiAll 8⟩,
   ⟨0x1111, 1, 1, 8, 0, 1, true, 0, 0, hiAll 8⟩,
   ⟨0x1111, 2, 2, 8, 0, 1, true, 0, 0, hiAll 8⟩,
   ⟨0x1200, 1, 1, 1, 0, 0, false, 0, 0, hiAll 1⟩,
   ⟨0x1201, 1, 1, 8, 0, 0, false, 0, 0, hiAll 8⟩,
   ⟨0x1210, 1, 1, 33554432, 3, 2, false, 0, 0, 0⟩,
   ⟨0x1210, 2, 2, 1, 0, 2, false, 0, 0, hiAll 1⟩,
   ⟨0x1210, 3, 3, 1, 0, 0, false, 0, 0, hiAll 1⟩,
   ⟨0x1210, 4, 4, 1, 0, 0, false, 0, 0, hiAll 1⟩,
   ⟨0x1210, 5, 5, 1, 0, 0, false, 0, 0, hiAll 1⟩,
   ⟨0x1210, 6, 6, 4, 0, 0, false, 0, 0, hiAll 4⟩,
   ⟨0x1210, 7, 7, 2, 0, 0, false, 0, 0, hiAll 2⟩,
   ⟨0x1211, 1, 1, 2, 0, 0, false, 0, 0, hiAll 2⟩,
   ⟨0x2100, 0, 0, 2, 0, 1, false, 0, 0, 403⟩,
   ⟨0x2100, 1, 1, 2, 1, 0, false, 0, 0, hiAll 2⟩,
   ⟨0x2101, 1, 1, 1, 0, 1, false, 100, 0, hiAll 1⟩,
   ⟨0x2101, 2, 2, 1, 0, 1, false, 110, 0, hiAll 1⟩,
   ⟨0x2101, 3, 3, 2, 0, 0, false, 0, 0, hiAll 2⟩,
   ⟨0x2101, 4, 4, 8, 0, 1, true, 0, 0, hiAll 8⟩,
   ⟨0xA000, 1, 1, 8, 0, 0, false, 0, 0, hiAll 8⟩,
   ⟨0xA000, 2, 2, 8, 0, 0, false, 0, 0, hiAll 8⟩,
   ⟨0xA000, 3, 3, 32, 3, 0, false, 0, 0, 0⟩,
   ⟨0xA000, 4, 4, 32, 3, 0, false, 0, 0, 0⟩,
   ⟨0xA000, 5, 5, 8, 0, 1, true, 0, 0, hiAll 8⟩]

def objRows14 : List ObjRow :=
  [⟨0x2010, 1, 1, 4, 0, 0, false, 0, 0, hiAll 4⟩,
   ⟨0x2010, 2, 2, 4, 0, 0, false, 0, 0, hiAll 4⟩,
   ⟨0x2010, 3, 3, 2, 0, 0, false, 0, 0, hiAll 2⟩,
   ⟨0x2010, 4, 4, 8, 0, 1, true, 0, 0, hiAll 8⟩,
   ⟨0x2010, 5, 5, 2, 0, 1, true, 0, 0, hiAll 2⟩,
   ⟨0x2010, 6, 6, 2, 0, 0, false, 0, 0, hiAll 2⟩,
   ⟨0x2000, 1, 1, 2, 0, 1, false, 3000, 1000, 3000⟩,
   ⟨0x2000, 2, 2, 2, 0, 1, false, 3300, 0, hiAll 2⟩,
   ⟨0x2000, 3, 3, 1, 0, 0, false, 10, 0, hiAll 1⟩,
   ⟨0x2000, 4, 4, 2, 0, 1, false, 700, 550, 800⟩,
   ⟨0x2000, 5, 5, 16, 3, 1, false, 0, 0, 0⟩,
   ⟨0x2000, 6, 6, 2, 0, 1, false, 800, 550, 800⟩,
   ⟨0x2000, 7, 7, 2, 0, 0, false, 550, 0, hiAll 2⟩,
   ⟨0x2000, 8, 8, 1, 0, 1, false, 0, 0, 1⟩,
   ⟨0x2001, 0, 0, 1, 0, 1, false, 0, 0, 127⟩,
   ⟨0x2001, 1, 1, 2, 0, 0, false, 550, 0, hiAll 2⟩,
   ⟨0x2001, 2, 2, 4, 0, 0, false, 0, 0, hiAll 4⟩,
   ⟨0x2001, 3, 3, 2, 0, 0, false, 0, 0, hiAll 2⟩,
   ⟨0x2001, 4, 4, 8, 0, 1, true, 0, 0, hiAll 8⟩,
   ⟨0x2001, 5, 5, 8, 0, 1, true, 0, 0, hiAll 8⟩,
   ⟨0x2001, 6, 6, 8, 0, 1, true, 0, 0, hiAll 8⟩,
   ⟨0x2002, 1, 1, 8, 0, 1, true, 0, 0, hiAll 8⟩,
   ⟨0x2002, 2, 2, 8, 0, 1, true, 0, 0, hiAll 8⟩,
   ⟨0x2002, 3, 3, 4, 0, 0, false, 3000, 0, hiAll 4⟩]

def objRows15 : List ObjRow :=
  [⟨0x9020, 1, 1, 8, 0, 1, true, 0, 0, hiAll 8⟩,
   ⟨0x9020, 2, 2, 2, 1, 1, false, 0, 0, hiAll 2⟩,
   ⟨0x9000, 1, 1, 1, 0, 0, false, 1, 0, hiAll 1⟩,
   ⟨0x9000, 2, 2, 2, 0, 0, false, 0, 0, hiAll 2⟩,
   ⟨0x9000, 3, 3, 1, 0, 0, false, 1, 0, hiAll 1⟩,
   ⟨0x9000, 4, 4, 1, 0, 2, false, 0, 0, hiAll 1⟩,
   ⟨0x9000, 5, 5, 4, 0, 0, false, 0, 0, hiAll 4⟩,
   ⟨0x9000, 6, 6, 8, 0, 1, true, 0, 0, hiAll 8⟩,
   ⟨0x9001, 1, 1, 1, 0, 1, false, 1, 0, 2⟩,
   ⟨0x9001, 2, 2, 2, 0, 0, false, 0, 0, hiAll 2⟩,
   ⟨0x9001, 3, 3, 2, 0, 0, false, 65535, 0, hiAll 2⟩,
   ⟨0x9001, 4, 4, 4, 0, 0, false, 0, 0, hiAll 4⟩,
   ⟨0x5203, 1, 1, 16, 3, 1, false, 0, 0, 0⟩,
   ⟨0x9030, 0, 0, 1, 0, 1, false, 0, 0, 127⟩,
   ⟨0x9030, 1, 1, 1, 0, 2, false, 0, 0, hiAll 1⟩,
   ⟨0x9030, 2, 2, 1, 0, 0, false, 0, 0, hiAll 1⟩,
   ⟨0x9040, 0, 0, 1, 0, 1, false, 0, 0, hiAll 1⟩,
   ⟨0x9040, 1, 1, 1, 0, 1, false, 0, 0, hiAll 1⟩,
   ⟨0x9040, 2, 2, 8, 0, 0, false, 0, 0, hiAll 8⟩,
   ⟨0x9040, 3, 3, 8, 0, 0, false, 0, 0, hiAll 8⟩,
   ⟨0x9040, 4, 4, 1, 0, 0, false, 0, 0, hiAll 1⟩]

/-- Every object of the manual. -/
def objTable : List ObjRow :=
  objRows0 ++ objRows1 ++ objRows2 ++ objRows3 ++ objRows4 ++ objRows5 ++ objRows6 ++ objRows7 ++ objRows8 ++ objRows9 ++ objRows10 ++ objRows11 ++ objRows12 ++ objRows13 ++ objRows14 ++ objRows15

/-- The line of the object at `index:sub`, if the dictionary has it. -/
def objRow (index sub : Nat) : Option ObjRow := objTable.find? (fun r => r.index = index && r.subLo ≤ sub && sub ≤ r.subHi)

/-- The selector on which an object depends, as its key (R297, R344, R459, R483 and the other object tables). -/
def selectorOf (index sub : Nat) : Option Nat :=
  if sub = 0 then none
  else match index with
    | 0x2001 => some kBaySel
    | 0x2100 => some kSensorSel
    | 0x3020 => some kRegSel
    | 0x3040 => if sub ≤ 4 then some kErrChanSel else none
    | 0x3050 => some kTgChanSel
    | 0x3100 => some kReelCtx
    | 0x4030 => some kWidCtx
    | 0x4110 => some kSeqCtx
    | 0x5001 => some kPortSel
    | 0x5002 => some kRouteSel
    | 0x5120 => some kMirrorCtx
    | 0x5130 => some kDigestCtx
    | 0x5200 => some kGrpSel
    | 0x6000 => some kCtxSel
    | 0x6003 => some kSigSel
    | 0x6004 => some kCtxSel
    | 0x6010 => some kAcctCtx
    | 0x9030 => some kBtSel
    | 0x9040 => some kLbPortSel
    | _ => none

/-- The key of an object for a value of its selector. -/
def objKey (sel k : Nat) : Nat := sel * 2 ^ 24 + k

/-- The default of a key (R560): region 0 of R297 and partition 63 of R285 differ from the line's own default. -/
def objDefault (key : Nat) : Nat :=
  let k := key % 2 ^ 24
  if key = kHbmRegion then 0x800002CB00000000
  else if key = objKey 63 kRegRate then 1
  else if key = objKey 63 kRegBorrow then 0
  else match objRow (k / 256) (k % 256) with
    | some r => r.dflt
    | none => 0

end Sys2Proof.Machine
end

