-- ==== Sys2Proof/Machine/State.lean ====
section
/-! DEFINITION. The state of the block as plain data: the queue of waiting commands, the memories, the object dictionary and
every register, queue, counter, mode and pin the chapters give the device; the reasons a step can stop; and reset. -/

namespace Sys2Proof.Machine

/-- Why a step stops with a fault. Safe: no claim about a next state follows from a stop. -/
inductive Fault where
  /-- Stands for a unit that the device does not have. No command raises it: one that names such a port, bay, sensor or context
  reaches nothing and leaves the state as it is (log 2). Safe. -/
  | noSuchUnit
deriving DecidableEq, Repr

/-- Why a step is refused. -/
inductive Refusal where
  /-- Raised by an arm of exec that has no meaning yet, with its mnemonic. Safe: it allows nothing. -/
  | notModelled (mnemonic : String)
deriving DecidableEq, Repr

/-- What the device sends or signals, oldest first in `State.out`: the packets, responses, interrupts and reports that the
rules name. `dest` is a port, a fabric member, a vector or a session, as `kind` says; `data` the fields in the rule's order. -/
inductive OutKind where
  | zlFlit | zlRead | interrupt | mailboxResponse | netResponse | souneFrame | fabric | tether | leafReport | mgr | ptp
  | pin | beacon | deviceReset | icmp | neighbour
deriving DecidableEq, Repr, Inhabited

structure Out where
  kind : OutKind
  dest : Nat
  data : List Nat
deriving DecidableEq, Repr, Inhabited

/-- The four memories by tier (R299 to R301), each in canonical form: near store keyed by bay and byte, HBM3E by stack and
byte, host by physical address, flash by logical unit and byte. -/
structure Mem where
  near : List Host.Cell := []
  hbm : List Host.Cell := []
  host : List Host.Cell := []
  flash : List Host.Cell := []
deriving DecidableEq, Repr, Inhabited

/-- A 128-byte line of a tile's cache (R270): valid and dirty sectors as 4-bit sets, KEEP mark, partition of the latest
write (R282), age stamp, what HBM3E holds of each dirty sector (R274), and the clean sectors of which HBM3E holds other bytes than the
line, because a traffic generator has written past the cache (R295); their bytes in HBM3E are in `back` too. -/
structure CacheLine where
  line : Nat
  valid : Nat
  dirty : Nat
  keep : Bool
  part : Nat
  stamp : Nat
  back : List (Nat × Nat) := []
  stale : Nat := 0
deriving DecidableEq, Repr, Inhabited

/-- What an event-log entry says (R585, R662): `SOURCE`, `CODE`, `SEVERITY`, `CTX`, and `DATA` with bit 0 at bit 256 of the
entry. -/
structure Event where
  source : Nat
  code : Nat
  sev : Nat
  ctx : Nat := 0xFFFF
  data : Nat := 0
deriving DecidableEq, Repr, Inhabited

/-- A table slot of R97: active and shadow bank, generation (R108), and which of the two banks is the active one. The owner is an object (R113). -/
structure TableSlot where
  active : Option Nat := none
  shadow : Option Nat := none
  gen : Nat := 0
  bank : Bool := false
deriving DecidableEq, Repr, Inhabited

/-- Widening state of a layer (R218, R226): whether it is WIDE, its widened blocks in the current step, and its state at
the start of the step (R228). -/
structure WidLayer where
  wide : Bool := false
  blocks : Nat := 0
  atStep : Bool := false
deriving DecidableEq, Repr, Inhabited

/-- Widening state of a context (R217, R229 to R232). -/
structure WidCtx where
  layers : List (Nat × WidLayer) := []
  clean : Nat := 0
  w : Nat := 0
  storm : Bool := false
  probeFailed : Bool := false
  steps : Nat := 0
deriving DecidableEq, Repr, Inhabited

/-- An entry of a reel frame (R317): what PSH recorded, and the length of its fulled data, which lie in the frame's blocks. -/
structure ReelEntry where
  rows : Nat
  elems : Nat
  fmt : Nat
  full : Nat
  len : Nat
deriving DecidableEq, Repr, Inhabited

inductive FrameSt where
  | opened | closed | broken | lost
deriving DecidableEq, Repr, Inhabited

/-- A 64 KiB block of a frame (R321 to R323): whether it is spilled, its number in the reel area or in the spill area, and of a spilled
block its CRC-64 and, where the twin holds it, the bytes that the twin holds. -/
structure ReelBlock where
  slot : Nat
  spilled : Bool := false
  crc : Nat := 0
  away : List Nat := []
deriving DecidableEq, Repr, Inhabited

/-- A reel frame (R316): its entries, top first, and its blocks in push order (R321). -/
structure ReelFrame where
  tag : Nat
  rank : Nat
  st : FrameSt := .opened
  entries : List ReelEntry := []
  blocks : List ReelBlock := []
deriving DecidableEq, Repr, Inhabited

/-- The reel of one bay in one context (R313), with the record in force (R314), whether it is spilling down to `SPILL_LO`
(R322), and its frames in opening order. -/
structure Reel where
  ctx : Nat
  bay : Nat
  record : Nat := 0
  spilling : Bool := false
  frames : List ReelFrame := []
deriving DecidableEq, Repr, Inhabited

/-- A traffic generator's results (R295, R296). -/
structure TgChan where
  running : Bool := false
  done : Bool := false
  fail : Bool := false
  stopping : Bool := false
  passes : Nat := 0
  mbps : Nat := 0
  log : List (Nat × Nat × Nat) := []
deriving DecidableEq, Repr, Inhabited

/-- An event-log entry with its number, time and chain value (R585, R586). -/
structure LogEntry where
  seq : Nat
  time : Nat
  ev : Event
  chain : List Nat := []
deriving DecidableEq, Repr, Inhabited

/-- The event log (R585, R586): entries that wait in SRAM and those kept in management flash, oldest first, the `CHAIN` before
the oldest kept and of the latest kept, the next number, events dropped since the latest note of them, and whether `ALERT_N` is
asserted (R613). -/
structure Log where
  sram : List LogEntry := []
  flash : List LogEntry := []
  anchor : List Nat := List.replicate 32 0
  headChain : List Nat := List.replicate 32 0
  nextSeq : Nat := 1
  dropFrom : Nat := 0
  alert : Bool := false
deriving DecidableEq, Repr, Inhabited

/-- Flash translation layer (R335 to R342): the map of units (block + 1, 0 while a unit has never been written) and its journal,
oldest first; erase and read counts by block, granules of blocks that fail correction with how they fail, blocks that will fail their next
program or erase, retired blocks; what start-up found of wear, spare and bad blocks, with the erases and retirements since; and the
replay-protected records in both copies with their write counter. -/
structure Ftl where
  map : List (Nat × Nat) := []
  journal : List (Nat × Nat) := []
  erases : List (Nat × Nat) := []
  reads : List (Nat × Nat) := []
  granules : List (Nat × Nat) := []
  weak : List Nat := []
  bad : List Nat := []
  worn : Nat := 0
  lost : Nat := 0
  lifeUsed : Nat := 0
  spare : Nat := 0
  badBlocks : Nat := 0
  rp : List (Nat × List Nat) := []
  rp2 : List (Nat × List Nat) := []
  rpCounter : Nat := 0
deriving DecidableEq, Repr, Inhabited

/-- The part of the state that ops read and change through their descriptors: memories, memory system, stored objects,
tables, widening, reels, log. `partnerPages` is the size of the partner's twin window (R325), 0 without a partner. `sev` is what
each sector's stack shows on an access (0 nothing, 1 a corrected error, 2 an uncorrectable one, 2 + n that n attempts fail their parity,
R291, R292), `sram` the same for the cache's own memory; `hwDue` is a hardware fault that the memory system has met and that is still
to be raised (log 78); `xlat` the translations that the device caches, leaf entries by context and page (R303), and `xlatCtr` numbers the
workings that use them. -/
structure Dp where
  time : Nat := 0
  objs : List (Nat × Nat) := []
  mem : Mem := {}
  poison : List Nat := []
  sev : List (Nat × Nat) := []
  sram : List (Nat × Nat) := []
  hwDue : Option (Nat × Nat × Nat) := none
  xlat : List (Nat × Nat) := []
  xlatCtr : Nat := 0
  rowCE : List (Nat × Nat) := []
  repairRows : List Nat := []
  cache : List CacheLine := []
  useCtr : Nat := 0
  flushing : Bool := false
  buckets : List (Nat × Nat) := []
  tg : List (Nat × TgChan) := []
  ftl : Ftl := {}
  tables : List (Nat × TableSlot) := []
  wid : List (Nat × WidCtx) := []
  reels : List Reel := []
  partnerPages : Nat := 0
  log : Log := {}
  freeCtr : Nat := 0
deriving DecidableEq, Repr, Inhabited

/-- Where a byte run of one page lies: tier, address in the tier (near store: bay × 8 MiB + offset; HBM3E and host: physical
address; flash: unit × 2 MiB + offset), and the page's hint. -/
structure Place where
  tier : Nat
  addr : Nat
  hint : Nat
deriving DecidableEq, Repr, Inhabited

/-- What an op has read at its issue and keeps (R28, R75, R86, R149, R216): the virtual address and length, the runs that
hold the bytes, whether they were read as narrow requests, and the bytes. -/
structure Held where
  va : Nat
  n : Nat
  runs : List (Place × Nat)
  narrow : Bool
  bytes : List Nat
deriving DecidableEq, Repr, Inhabited

inductive Phase where
  | placed | started | done
deriving DecidableEq, Repr, Inhabited

/-- A table bank that an op captured at its start (R108): slot, generation, the slot's owner then (R112), and the image the
bank held. -/
structure BankRef where
  slot : Nat
  gen : Nat
  owner : Nat
  image : Option Nat
  bank : Bool := false
deriving DecidableEq, Repr, Inhabited

/-- An op in flight (R441): from its placement until its completion is posted. `held` is what it has read at its issue,
`keepNeg` whether `NEG_ZERO_OUT` was 0 then (R56), `image` the table image that a LOAD has read and checked (R109), `startNo` its place in the
order in which ops started, 0 before its start, `hostAsked` whether it has begun to read host memory, `hostTodo` its transfers that
wait for a tag, and `hostOk` whether all of them have come (R462, R469). -/
structure Op where
  id : Nat
  ctx : Nat
  queue : Nat
  opc : Nat
  desc : Nat
  phase : Phase := .placed
  status : Nat := 0
  info : Nat := 0
  startedAt : Nat := 0
  arrays : Nat := 0
  banks : List BankRef := []
  layerWide : Bool := false
  stepWide : Bool := false
  stormy : Bool := false
  held : List Held := []
  keepNeg : Bool := false
  image : Option Nat := none
  startNo : Nat := 0
  hostAsked : Bool := false
  hostTodo : List (Nat × Nat × Nat) := []
  hostOk : Bool := false
  heldSince : Option Nat := none
  waitSince : Option Nat := none
  cqSince : Option Nat := none
deriving DecidableEq, Repr, Inhabited

inductive CtxSt where
  | free | active | teardown | faulted
deriving DecidableEq, Repr, Inhabited

/-- A context (R437, R438, R474 to R478): its state, the record read at CREATE or RESTART, queue indices, interrupt
moderation, the ops whose completion waits to be posted (in completion order), the groups it has issued collectives of (R553),
and whether a digest mismatch holds its ops (R535). -/
structure Ctx where
  st : CtxSt := .free
  record : Nat := 0
  sqProd : Nat := 0
  sqCons : Nat := 0
  cqProd : Nat := 0
  cqCons : Nat := 0
  intArmed : Bool := false
  intHeld : Bool := false
  lastInt : Option Nat := none
  doneQ : List Nat := []
  groups : List Nat := []
  digestStop : Bool := false
deriving DecidableEq, Repr, Inhabited

/-- An entry of a prefetch schedule (R307). -/
structure SchedEntry where
  src : Nat
  dst : Nat
  bytes : Nat
  after : Nat
  done : Nat
  forLayer : Nat
  bay : Nat
deriving DecidableEq, Repr, Inhabited

/-- A running prefetch schedule (R306 to R309): the op that runs it, the number of its current entry counted over all
repeats, whether the start event has come, the ops that `DONE_LAYER` waits for, entries whose gate is met and that wait for
the window, and copies in flight. -/
structure Sched where
  op : Nat
  ctx : Nat
  id : Nat
  addr : Nat
  entries : Nat
  rep : Nat
  window : Nat
  pos : Nat := 0
  cur : Option SchedEntry := none
  started : Bool := false
  waitOps : List Nat := []
  ready : List (Nat × SchedEntry) := []
  inflight : List (Nat × SchedEntry) := []
deriving DecidableEq, Repr, Inhabited

/-- A ZelugLink or Soune port (R464, R465, R487, R488): state code of `ZL_PORT_STATE` or `PORT_STATE`, the sequence numbers
expected and sent next, the replay buffer (sequence number, control area, data), the frame replayed latest and how often in a
row, whether a NAK has been sent, credits held by class or channel, data frames that wait for a credit (class, header, data),
entries to DOWN since start-up, the time it entered its state, lanes in use, whether it comes from RECOVERY, and the class of
the transaction whose data arrive. -/
structure Port where
  st : Nat := 0
  nextIn : Nat := 0
  nextOut : Nat := 0
  buf : List (Nat × Nat × Nat) := []
  replayed : Option (Nat × Nat) := none
  naked : Bool := false
  credits : List Nat := [0, 0, 0, 0]
  wait : List (Nat × Nat × Nat) := []
  downs : Nat := 0
  since : Nat := 0
  lanes : Nat := 16
  recovering : Bool := false
  inClass : Nat := 0
deriving DecidableEq, Repr, Inhabited

/-- An outstanding device read of host memory (R462, R469): port, tag, op, the entry of a prefetch schedule that it is for (0 for
other ops), and the time it was issued. -/
structure HostRd where
  port : Nat
  tag : Nat
  op : Nat
  part : Nat
  since : Nat
deriving DecidableEq, Repr, Inhabited

/-- The mailbox of the control window (R472, R482): its buffers, the request in service, and `MBX_STATUS`. -/
structure Mbx where
  req : List Nat := []
  cur : List Nat := []
  resp : List Nat := []
  busy : Bool := false
  done : Bool := false
  respLen : Nat := 0
deriving DecidableEq, Repr, Inhabited

/-- A group of this device (R545): the roster in force, `GRP_STATE`, the roster that PREPARE brought, the roster that a
primary manager is forming with the members that have acknowledged it and the time it was sent, times of the latest beacon
and lease, and the member number whose spare pair has reported SYNCED. -/
structure Group where
  roster : Roster
  st : Nat := 1
  prep : Option Roster := none
  forming : Option Roster := none
  acks : List Nat := []
  sentAt : Nat := 0
  beaconAt : Nat := 0
  leaseAt : Option Nat := none
  synced : Option Nat := none
deriving DecidableEq, Repr, Inhabited

/-- A JOIN that a collector holds (R498): its ticket, whether it comes from a member (0) or from a level-0 collector (1), the
member it speaks for, signature, code, and whether it reports a mismatch. -/
structure CollJoin where
  ticket : Nat
  level : Nat
  member : Nat
  sig : List Nat
  code : Nat
  differ : Bool
deriving DecidableEq, Repr, Inhabited

/-- An input of a reducer (R492, R507): chunk, level, source (member number at level 0, set number at level 1), scale and
bytes; `bad` is the status with which it is withheld, or 0. -/
structure CollPart where
  chunk : Nat
  level : Nat
  src : Nat
  scale : Nat := 127
  bytes : List Nat := []
  bad : Nat := 0
deriving DecidableEq, Repr, Inhabited

/-- A chunk sent to a fabric address and not yet acknowledged (R503), with the port it left on (R489). -/
structure CollSent where
  dst : Nat
  chunk : Nat
  level : Nat
  scale : Nat
  bytes : List Nat
  port : Nat
deriving DecidableEq, Repr, Inhabited

/-- A collective on this device (R494 to R514): its op with context and descriptor, the member number it speaks for, ticket and PRIOR, whether it waits to
start (0), for GO (1), moves data (2), or only serves others after its completion (3), whether it has sent its own data, the
start of its wait, inputs held,
packets accepted, chunks reduced by level, chunks written, chunks withheld with their status, whether a NaN of its own data became
+0 on the wire, packets asked again, and chunks sent without acknowledgement. -/
structure Coll where
  op : Nat
  ctx : Nat := 0
  desc : Nat := 0
  member : Nat := 0
  ticket : Option Nat := none
  prior : Nat := 0
  phase : Nat := 0
  moved : Bool := false
  since : Nat := 0
  parts : List CollPart := []
  seen : List (Nat × Nat × Nat) := []
  reduced : List (Nat × Nat) := []
  written : List Nat := []
  lost : List (Nat × Nat) := []
  subst : Bool := false
  again : List (Nat × Nat × Nat) := []
  sent : List CollSent := []
deriving DecidableEq, Repr, Inhabited

/-- Tickets of a primary manager (R494): the next, those assigned to (group, epoch, GSEQ), and answers that wait for the
twin's acknowledgement of a MIRROR (R546): its number, destination, and the answer's group, epoch, ticket, GSEQ and PRIOR. -/
structure Manager where
  next : Nat := 0
  given : List (Nat × Nat × Nat × Nat) := []
  waiting : List (Nat × Nat × List Nat) := []
deriving DecidableEq, Repr, Inhabited

/-- The twin and its tether (R521 to R540): `TWIN_STATE`, member number, pair epoch, partner's identity and fabric address, consecutive missed
intervals, heartbeat seen in this interval, probe outstanding since, paired since reset, sequence number of the next MIRROR,
own and partner's digest words by context and step, the partner's blocks in the twin window, and the partner's role as a manager of each
group (R546). -/
structure Twin where
  st : Nat := 0
  member : Nat := 0
  epoch : Nat := 0
  partner : Nat := 0
  addr : Nat := 0
  missed : Nat := 0
  beat : Bool := false
  probeAt : Option Nat := none
  paired : Bool := false
  seq : Nat := 0
  own : List (Nat × Nat × List Nat) := []
  theirs : List (Nat × Nat × List Nat) := []
  blocks : Nat := 0
  roles : List (Nat × Nat) := []
deriving DecidableEq, Repr, Inhabited

/-- The stream fields that a command sets (R348, R362). -/
structure StreamCfg where
  deadline : Nat := 0
  period : Nat := 0
  target : Nat := 0
  mapOff : Nat := 0
  mapCap : Nat := 0
  chunk : Nat := 0
  passes : Nat := 0
  dPasses : Nat := 0
  model : Nat := 0
  dModel : Nat := 0
  prio : Nat := 0
  dKind : Nat := 0
  modePin : Nat := 0
  pin : Bool := false
  mirror : Bool := false
  user : Nat := 0
deriving DecidableEq, Repr, Inhabited

/-- A sequence table entry that is not FREE (R348), or a mirrored one (R528); with the state into which a PREEMPTED stream
resumes (R363); of a mirrored one the blocks held in mirror pages (R530) and `MODE` as of its partner's latest commit, and of an
adopted one whether it came without pages (R540). -/
structure Stream where
  cfg : StreamCfg := {}
  ctx : Nat := 0
  st : Nat := 0
  kvLen : Nat := 0
  pass : Nat := 0
  mode : Nat := 0
  note : Nat := 0
  alloc : Nat := 0
  preemptSeq : Nat := 0
  ticksRun : Nat := 0
  dChunks : Nat := 0
  lateChunks : Nat := 0
  lastTick : Nat := 0
  resume : Nat := 1
  mblocks : Nat := 0
  cmode : Nat := 0
  orphan : Bool := false
deriving DecidableEq, Repr, Inhabited

/-- An open tick (R365, R374): arrival of its BUILD, its work list (slot and query rows), the entries of its streams before
the build, and the pages taken in it (slot, map entry address, page). -/
structure Tick where
  builtAt : Nat := 0
  work : List (Nat × Nat) := []
  saved : List (Nat × Stream) := []
  pages : List (Nat × Nat × Nat) := []
deriving DecidableEq, Repr, Inhabited

/-- The free list of a pool (R350): its array in the context's memory, of which the first `count` entries are free pages, the next
one to be taken last, and free pages beyond what the array can hold, which are taken first. -/
structure FreeList where
  base : Nat := 0
  cap : Nat := 0
  count : Nat := 0
  extra : List Nat := []
deriving DecidableEq, Repr, Inhabited

/-- A serving context (R349 to R375): its record and model records as accepted, free pages of the three pools, tick estimate,
tick and build numbers, command consumer index, latest pre-emption order, ticks of recovery bucket mode left, the open tick,
and of a commit that waits for MIRROR_ACK (R530) the arrival, the outstanding mirrors (number, slot), and the slots answered
NO_SPACE. -/
structure Serve where
  record : Nat := 0
  models : List Nat := []
  hbm : FreeList := {}
  host : FreeList := {}
  est : Nat := 0
  tickNo : Nat := 0
  buildNo : Nat := 0
  cons : Nat := 0
  preemptSeq : Nat := 0
  bucketLeft : Nat := 0
  tick : Option Tick := none
  commitAt : Option Nat := none
  acks : List (Nat × Nat) := []
  dropped : List Nat := []
deriving DecidableEq, Repr, Inhabited

/-- A decoded picture of a stream (R381, R387): its name, slot of the reference pool, place in display order, coded size, 10-bit
samples, and whether a block of it is concealed. -/
structure RefPic where
  name : Nat
  slot : Nat
  order : Int
  width : Nat
  height : Nat
  ten : Bool
  bad : Bool
deriving DecidableEq, Repr, Inhabited

/-- What the device keeps for a stream of MDC or MEN ops beside its state block (R383 to R385, R391 to R393): the block's CRC,
the decoded pictures in the reference pool, pictures that wait for their turn in display order and those held past `OUT_SLOTS`;
frames taken in, frames held for a group of B frames with their tags, bits of the latest frames, newest first, buffer fullness,
and frames since the latest key frame, none before the first. -/
structure MediaBlk where
  crc : Nat := 0
  dpb : List RefPic := []
  waiting : List (Int × Config.Picture) := []
  held : List Config.Picture := []
  taken : Nat := 0
  frames : List (Nat × Config.Planes) := []
  prev : List Nat := []
  vbv : Option Int := none
  sinceKey : Option Nat := none
deriving DecidableEq, Repr, Inhabited

/-- A sample of an ING (R399 to R405): its list or stream entry, `SOURCE`, state (0 waits to start, 1 decoding, 2 has its
pictures or payload, 3 left the batch), `EVENT`, start of its decode, the op and sample that started the decode, whether it
is claimed from a carry entry, the entry that the decode was begun with; of a device decode its decoder and its part of the
scratch area; address and size of the host ring of a host decode (0 for a device decode) with its index there and its frame
address; pictures, hatbox payload, and token count of a hit. -/
structure IngSample where
  entry : Nat := 0
  source : Nat := 0
  st : Nat := 0
  event : Nat := 0
  since : Nat := 0
  origin : Nat × Nat := (0, 0)
  carried : Bool := false
  begun : Nat := 0
  decoder : Nat := 0
  scratch : Nat := 0
  ring : Nat := 0
  ringLog2 : Nat := 0
  slot : Nat := 0
  frameAddr : Nat := 0
  pics : List Config.Picture := []
  payload : List Nat := []
  tokens : Nat := 0
deriving DecidableEq, Repr, Inhabited

/-- An ING in work: its samples, its scratch area, and the live streams that hold an entry after T (R418). -/
structure IngJob where
  op : Nat
  samples : List IngSample := []
  scratch : Nat := 0
  scratchBytes : Nat := 0
  met : List Nat := []
deriving DecidableEq, Repr, Inhabited

/-- A carry entry (R403, R405): its context, the deferred sample, and the later INGs that have not claimed it. -/
structure Carry where
  ctx : Nat
  sample : IngSample
  age : Nat := 0
deriving DecidableEq, Repr, Inhabited

/-- A management session (R573, R575, R577): its number, the operator's number, whether it is OPEN, the time of its start or of
its latest accepted frame, the transcript hash, both proofs, keys, and the latest counters. -/
structure Session where
  id : Nat
  operator : Nat := 0
  opened : Bool := false
  since : Nat := 0
  transcript : List Nat := []
  proof : List Nat := []
  client : List Nat := []
  exchange : List Nat := []
  keys : List Nat := []
  inCtr : Nat := 0
  outCtr : Nat := 0
deriving DecidableEq, Repr, Inhabited

/-- A write: object, offset of an OCTET segment, and the bytes of its value. -/
structure Staged where
  index : Nat
  sub : Nat
  offset : Nat := 0
  bytes : List Nat
deriving DecidableEq, Repr, Inhabited

/-- A QOP request as it is served (R565): its transport, command, session, transaction and number, and whether the response
carries a MAC. -/
structure Req where
  net : Bool
  cmd : Nat
  sess : Nat
  txn : Nat
  reqId : Nat
  mac : Bool := false
  body : List Nat := []
deriving DecidableEq, Repr, Inhabited

/-- An open transaction (R568, R570): its session (0: the mailbox), staged writes, the time a frame named it latest, and the
COMMIT that waits for the safe point. -/
structure Txn where
  id : Nat
  sess : Nat
  writes : List Staged := []
  since : Nat := 0
  commit : Option Req := none
deriving DecidableEq, Repr, Inhabited

/-- Sessions, transactions, remembered expired transactions by session, operators with their critical right, and what the
configuration records brought (R563, R571, R576, R579). -/
structure Mgmt where
  sessions : List Session := []
  lastSess : Nat := 0
  txns : List Txn := []
  lastTxn : Nat := 0
  expired : List (Nat × Nat) := []
  operators : List (Nat × Bool) := []
  locks : List Nat := []
  cfgBytes : List Nat := []
deriving DecidableEq, Repr, Inhabited

/-- A firmware slot (R583): its state and the bytes staged into it that are not 0. -/
structure FwSlot where
  st : Nat := 0
  image : List (Nat × Nat) := []
deriving DecidableEq, Repr, Inhabited

/-- Firmware (R581 to R584): both slots, the running slot, and the records installed in the configuration and identity areas. -/
structure Fw where
  a : FwSlot := { st := 5 }
  b : FwSlot := {}
  running : Nat := 0
  records : List (Nat × List Nat) := []
  owner : List Nat := []
deriving DecidableEq, Repr, Inhabited

/-- Start-up and resets (R644 to R656): stages completed, the time `MOD_RST_N` was released, the time of the latest refused
pairing and of the latest report that awaits its acknowledgement, the bay under test, ports in loopback with the end of the
run, and the reset that is to take effect with its time. -/
structure Boot where
  done : List Nat := []
  since : Nat := 0
  refusedAt : Option Nat := none
  reportAt : Option Nat := none
  testing : Option Nat := none
  loops : List (Nat × Nat) := []
  resetDue : Option (Nat × Nat) := none
deriving DecidableEq, Repr, Inhabited

/-- Control signals (R613, R617): levels of `PWR_EN`, `MOD_RST_N` and `PWR_GOOD`, whether the regulators run, the kind of the
next reset, sensors in thermal trip, and since when `THERM_TRIP_N` is asserted. -/
structure Pins where
  pwrEn : Bool := true
  modRst : Bool := true
  pwrGood : Bool := true
  regs : Bool := true
  nextKind : Nat := 2
  trips : List Nat := []
  tripAt : Option Nat := none
deriving DecidableEq, Repr, Inhabited

/-- A bay in the arbiter (R633 to R637): rail setpoint and grant in mV, how far its thermal cap lies below `BAY_VMAX_MV`,
measured power, voltage and current of the latest interval, whether it was busy at its start, its current ceiling, and whether
its current stands above it. -/
structure BayPwr where
  set : Nat := 550
  grant : Nat := 550
  cap : Option Nat := none
  mw : Nat := 0
  mv : Nat := 550
  ma : Nat := 0
  busy : Bool := false
  ceiling : Nat := 0
  above : Bool := false
deriving DecidableEq, Repr, Inhabited

/-- The power arbiter (R632): peak credit in units of 10 nJ, the limit L of the latest interval in mW, bays, and the latest ten
input measurements in mV, mA and mW. -/
structure Pwr where
  credit : Nat := 300000000
  limit : Option Nat := none
  bays : List (Nat × BayPwr) := []
  window : List (Nat × Nat × Nat) := []
deriving DecidableEq, Repr, Inhabited

/-- Energy charged and not yet counted as a whole mJ, in fJ: by context, idle, and by bay (R641, R643). -/
structure Energy where
  ctx : List (Nat × Nat) := []
  idle : Nat := 0
  bay : List (Nat × Nat) := []
deriving DecidableEq, Repr, Inhabited

/-- Time discipline (R592, R593): `PTP_STATE`, and whether LOCKED has been reached since the reset. -/
structure Ptp where
  st : Nat := 0
  locked : Bool := false
deriving DecidableEq, Repr, Inhabited

/-- The machine: the waiting commands, what has been sent, and the device. -/
structure State where
  pending : List Instr := []
  out : List Out := []
  dp : Dp := {}
  ops : List Op := []
  nextOp : Nat := 0
  ctxs : List (Nat × Ctx) := []
  sig : List (Nat × Nat) := []
  turn : Nat := 0
  turnUsed : Nat := 0
  scheds : List Sched := []
  zl : List Port := [{}, {}]
  zlReads : List HostRd := []
  zlTag : Nat := 0
  mbx : Mbx := {}
  db : List (Nat × Nat) := []
  soune : List Port := List.replicate 36 {}
  colls : List Coll := []
  joins : List CollJoin := []
  late : List Nat := []
  started : List (Nat × Nat) := []
  skipped : List (Nat × Nat) := []
  mgr : Manager := {}
  groups : List Group := []
  twin : Twin := {}
  fault : Nat := 0
  seq : List (Nat × Stream) := []
  gens : List (Nat × Nat) := []
  serve : List (Nat × Serve) := []
  mpools : List (Nat × FreeList) := []
  seqTable : List (Nat × Nat) := []
  media : List (Nat × MediaBlk) := []
  ing : List IngJob := []
  carries : List Carry := []
  ingTimes : List (Nat × List Nat) := []
  mgmt : Mgmt := {}
  fw : Fw := {}
  boot : Boot := {}
  pins : Pins := {}
  temps : List (Nat × Int) := []
  pwr : Pwr := {}
  energy : Energy := {}
  ptp : Ptp := {}
  off : Bool := false
deriving DecidableEq, Repr, Inhabited

/-- The machine right after a COLD reset, powered and with `MOD_RST_N` released (R563, R644, R655; log 12): no stage has
completed, every object has its default, every context is FREE, and nothing is queued. Values that the spec does not give are
those of log 12. -/
def State.reset : State := {}

end Sys2Proof.Machine
end

