-- ==== Sys2Proof/Machine/Ops.lean ====
section
/-! DEFINITION. The named operations over memories, stored objects, the event log, the regions and the memory-side cache
(08_memory_channels.md, R56, R585, R660). -/

namespace Sys2Proof.Machine

/-! ## Commands of the device -/

/-- What a command of the device leaves alone: the waiting commands, which `step` takes, the levels of the module's control
signals, whether the device is in reset, and the temperatures (R588, R613, R617). Commands of those have meanings of their own. -/
def State.inside (s t : State) : State := { t with pending := s.pending, off := s.off, pins := s.pins, temps := s.temps }

/-- A command of the device. One that is in reset, or without power, takes none (R617, log 2). -/
def live (s : State) (f : State → State) : Host.Outcome State Fault Refusal := .next (if s.off then s else s.inside (f s))

/-! ## Memories -/

/-- One byte; what nothing has written reads as 0 (log 6). -/
def memByte (m : List Host.Cell) (a : Nat) : Nat := (kvGet (0 : BitVec 8) m a).toNat

def memSet (m : List Host.Cell) (a b : Nat) : List Host.Cell := kvSet (0 : BitVec 8) m a (BitVec.ofNat 8 b)

/-- The canonical form of a memory. -/
abbrev memWf (m : List Host.Cell) : Bool := kvWf (fun _ => (0 : BitVec 8)) m

abbrev Mem.wf (m : Mem) : Bool := memWf m.near && memWf m.hbm && memWf m.host && memWf m.flash

/-- The contents of a tier (R301). -/
def Mem.tier (m : Mem) (t : Nat) : List Host.Cell :=
  match t with
  | 0 => m.near
  | 1 => m.hbm
  | 2 => m.host
  | _ => m.flash

def Mem.setTier (m : Mem) (t : Nat) (l : List Host.Cell) : Mem :=
  match t with
  | 0 => { m with near := l }
  | 1 => { m with hbm := l }
  | 2 => { m with host := l }
  | _ => { m with flash := l }

/-- Bytes at the given keys. -/
def memRead (m : List Host.Cell) (ks : List Nat) : List Nat := ks.map (memByte m)

/-- Bytes stored at the given keys, in order. -/
def memStore : List Host.Cell → List Nat → List Nat → List Host.Cell
  | m, k :: ks, b :: bs => memStore (memSet m k b) ks bs
  | m, _, _ => m

/-- The `n` keys from `a` up. -/
def keysFrom (a n : Nat) : List Nat := (List.range n).map (a + ·)

def hostRead (m : Mem) (a n : Nat) : List Nat := memRead m.host (keysFrom a n)

def hostWrite (m : Mem) (a : Nat) (bs : List Nat) : Mem := { m with host := memStore m.host (keysFrom a bs.length) bs }

/-! ## Stored objects and counters -/

/-- The stored value of an object (R560). -/
def objGet (d : Dp) (key : Nat) : Nat := kvGet (objDefault key) d.objs key

def objSet (d : Dp) (key v : Nat) : Dp := { d with objs := kvSet (objDefault key) d.objs key v }

/-- Adds to a U64 counter, which saturates and never wraps (R56). -/
def bump (d : Dp) (key n : Nat) : Dp := if n = 0 then d else objSet d key (min (objGet d key + n) (2 ^ 64 - 1))

/-- Adds to several counters. -/
def bumps (d : Dp) (l : List (Nat × Nat)) : Dp := l.foldl (fun d p => bump d p.1 p.2) d

/-! ## Event log -/

/-- A field of `DATA`, given by its lowest bit in the entry (R662). -/
def dataAt (lo v : Nat) : Nat := v * 2 ^ (lo - 256)

/-- Adds one entry for an event, or counts it while 1,024 entries wait (R586). -/
def logEvent (d : Dp) (e : Event) : Dp :=
  if d.log.sram.length < 1024 then
    { d with log := { d.log with
        sram := d.log.sram ++ [{ seq := d.log.nextSeq, time := d.time, ev := e }], nextSeq := d.log.nextSeq + 1
        alert := d.log.alert || decide (1 ≤ e.sev) } }
  else bump { d with log := { d.log with dropFrom := d.log.dropFrom + 1 } } kLogDropped 1

/-! ## Regions (R267 to R269) -/

structure Region where
  valid : Bool
  kind : Nat
  unit : Nat
  first : Nat
  pages : Nat
  base : Nat
deriving DecidableEq, Repr, Inhabited

/-- The fields of `HBM_REGION_r` (R267). -/
def regionOf (v : Nat) : Region :=
  { valid := bit v 63, kind := bits v 62 61, unit := bits v 60 56, first := bits v 55 42, pages := bits v 41 28,
    base := bits v 27 0 }

def regions (d : Dp) : List Region := (List.range 8).map (fun r => regionOf (objGet d (kHbmRegion + r)))

/-- Stacks in a region's set. -/
def Region.stacks (r : Region) : Nat := if r.kind = 0 then 20 else if r.kind = 1 then 5 else 1

/-- Size in tensor pages. -/
def Region.size (r : Region) : Nat := r.stacks * r.pages

/-- Whether a physical page lies in the region. -/
def Region.hasPage (r : Region) (p : Nat) : Bool := r.valid && decide (r.base ≤ p) && decide (p < r.base + r.size)

/-- `hbm_map` of R269: stack, pseudo-channel and chunk within the stack of a byte offset. -/
def hbmMap (kind unit off : Nat) : Nat × Nat × Nat :=
  let chunk := off / 256
  let sc : Nat × Nat :=
    if kind = 0 then (5 * (chunk % 20 % 4) + chunk % 20 / 4, chunk / 20)
    else if kind = 1 then (5 * unit + chunk % 5, chunk / 5)
    else (unit, chunk)
  let c := sc.2
  (sc.1, (c ^^^ (c >>> 5) ^^^ (c >>> 10) ^^^ (c >>> 15)) % 32, c)

/-- Where a byte of HBM3E lies: stack and byte within the stack, as one key; the c-th chunk of a stack's share follows the
region's first page (log 19). -/
def Region.home (r : Region) (p : Nat) : Nat :=
  let off := p - r.base * Config.pageBytes
  let m := hbmMap r.kind r.unit off
  m.1 * Config.stackBytes + r.first * Config.pageBytes + m.2.2 * 256 + off % 256

/-- The key of an HBM3E physical address, if a valid region holds it. -/
def hbmHome (d : Dp) (p : Nat) : Option Nat :=
  ((regions d).find? (fun r => r.hasPage (p / Config.pageBytes))).map (fun r => r.home p)

/-- Channel 16 × stack + channel of an HBM3E physical address (R269). -/
def hbmChannel (d : Dp) (p : Nat) : Nat :=
  match (regions d).find? (fun r => r.hasPage (p / Config.pageBytes)) with
  | some r => let m := hbmMap r.kind r.unit (p - r.base * Config.pageBytes); 16 * m.1 + m.2.1 / 2
  | none => 0

/-- The keys of `n` bytes from an address of a tier; an HBM3E address outside every region has none. -/
def tierKeys (d : Dp) (tier a n : Nat) : List Nat :=
  if tier = 1 then (keysFrom a n).filterMap (hbmHome d) else keysFrom a n

/-! ## Places in a stack -/

/-- Bytes of HBM3E outside the device reserve, per stack (R266). -/
def openBytes : Nat := 11440 * Config.pageBytes

def stackOf (k : Nat) : Nat := k / Config.stackBytes

/-- Whether a region's set holds a stack, and its pages a byte of it. -/
def Region.holds (r : Region) (k : Nat) : Bool :=
  let page := k % Config.stackBytes / Config.pageBytes
  r.valid && (match r.kind with | 0 => true | 1 => stackOf k / 5 == r.unit | _ => stackOf k == r.unit) &&
  decide (r.first ≤ page) && decide (page < r.first + r.pages)

def regionAt (d : Dp) (k : Nat) : Option Region := (regions d).find? (·.holds k)

/-- Number of the 256 B chunk of a stack's share in which a byte lies (R269); outside every region it counts from the stack's
first byte (log 19). -/
def chunkAt (d : Dp) (k : Nat) : Nat :=
  let first := ((regionAt d k).map (·.first)).getD 0
  (k % Config.stackBytes - first * Config.pageBytes) / 256

/-- The pseudo-channel of its stack in which a byte lies. -/
def pseudoAt (d : Dp) (k : Nat) : Nat :=
  let c := chunkAt d k
  (c ^^^ (c >>> 5) ^^^ (c >>> 10) ^^^ (c >>> 15)) % 32

/-- Channel 16 × stack + channel of a byte. -/
def channelAt (d : Dp) (k : Nat) : Nat := 16 * stackOf k + pseudoAt d k / 2

/-- The physical address of a byte (R269), or its place in the device where no region holds it. -/
def physAt (d : Dp) (k : Nat) : Nat :=
  match regionAt d k with
  | none => k
  | some r =>
    let i := if r.kind = 0 then 4 * (stackOf k % 5) + stackOf k / 5 else if r.kind = 1 then stackOf k % 5 else 0
    r.base * Config.pageBytes + (chunkAt d k * r.stacks + i) * 256 + k % 256

def tileOfHome (k : Nat) : Nat := k / Config.stackBytes / 5

/-! ## Errors and poison (R291 to R294) -/

/-- Notes a hardware fault: cause, `SOURCE`, detail bits [631:568] (R662). The first stands until it is raised (log 78). -/
def noteHw (d : Dp) (cause source detail : Nat) : Dp :=
  if d.hwDue.isSome then d else { d with hwDue := some (cause, source, detail) }

/-- Poisoned sectors recorded for a tile (R293). -/
def poisonOfTile (d : Dp) (tile : Nat) : Nat := (d.poison.filter (fun s => tileOfHome (s * 32) = tile)).length

def isPoisoned (d : Dp) (sec : Nat) : Bool := d.poison.contains sec

/-- Records a poisoned sector; one more on a tile whose record is full is a hardware fault (R293). -/
def poisonSector (d : Dp) (sec : Nat) : Dp :=
  if isPoisoned d sec then d
  else if poisonOfTile d (tileOfHome (sec * 32)) < 4096 then { d with poison := sec :: d.poison }
  else noteHw d 3 0x3040 (tileOfHome (sec * 32) * 2 ^ 56)

def unpoison (d : Dp) (sec : Nat) : Dp := { d with poison := d.poison.filter (· ≠ sec) }

/-- Parity errors of one access to a sector whose first `n` attempts fail: the retries are counted, and the fourth failure is a
hardware fault (R291). -/
def parityErrors (d : Dp) (sec n : Nat) : Dp :=
  let ch := channelAt d (sec * 32)
  let d1 := bump d (objKey ch kErrParityRetry) (min n 3)
  if 4 ≤ n then noteHw d1 2 0x3040 (ch * 2 ^ 48) else d1

/-- What a write of a sector to HBM3E meets: its parity errors, as a read does (R264, R291). -/
def writeErrors (d : Dp) (sec : Nat) : Dp :=
  let n := kvGet 0 d.sev sec
  if 3 ≤ n then parityErrors d sec (n - 2) else d

/-- Counts a corrected error of a row; one that reaches the limit names the row for repair (R294). A row is taken as 32
sectors (log 46). -/
def countRow (d : Dp) (sec : Nat) : Dp :=
  let row := sec / 32
  let n := kvGet 0 d.rowCE row + 1
  let d1 := { d with rowCE := kvSet 0 d.rowCE row n }
  if n = objGet d kCeRowLimit then
    logEvent { d1 with repairRows := if d1.repairRows.contains row then d1.repairRows else d1.repairRows ++ [row] }
      { source := 0x3040, code := 0x3040, sev := 1
        data := dataAt 576 (physAt d (sec * 32)) + dataAt 560 (channelAt d (sec * 32)) + dataAt 544 n }
  else d1

/-- What a read of a sector from HBM3E meets at a severity (R291, R292): 0 nothing, 1 a corrected error with its row's count
(R294), 2 poison, 2 + n that n attempts fail their parity. -/
def errorAt (ctx : Nat) (d : Dp) (sec n : Nat) : Dp :=
  let ch := channelAt d (sec * 32)
  let last := fun (x : Dp) => objSet x (objKey ch kErrLastAddr) (sec * 32)
  match n with
  | 0 => d
  | 1 => countRow (last (bump d (objKey ch kErrCe) 1)) sec
  | 2 => logEvent (last (bump (poisonSector d sec) (objKey ch kErrUe) 1))
      { source := 0x3040, code := 0x0F10, sev := 2, ctx := ctx, data := dataAt 576 (physAt d (sec * 32)) + dataAt 560 ch }
  | n => parityErrors d sec (n - 2)

/-- The errors of a read of a sector from HBM3E. -/
def sectorErrors (ctx : Nat) (d : Dp) (sec : Nat) : Dp := errorAt ctx d sec (kvGet 0 d.sev sec)

/-! ## Cache and regulators (R270 to R276, R281 to R285) -/

def cacheFind (d : Dp) (line : Nat) : Option CacheLine := d.cache.find? (fun l => l.line = line)

/-- Replaces a line's entry; a line without valid sectors is dropped. -/
def cachePut (d : Dp) (l : CacheLine) : Dp :=
  let rest := d.cache.filter (fun x => x.line ≠ l.line)
  { d with cache := if l.valid = 0 then rest else l :: rest }

/-- Whether two lines share a set: the same tile, and the same set of it (R270, log 17). -/
def sameSet (a b : Nat) : Bool :=
  decide (tileOfHome (a * 128) = tileOfHome (b * 128)) && decide (Config.cacheSet a % 32768 = Config.cacheSet b % 32768)

/-- Tokens of a bucket in bytes: its depth less what has been taken and not regained (R282). -/
def bucketKey (part stack : Nat) : Nat := part * 32 + stack

def bucketDepth (d : Dp) (part : Nat) : Nat := objGet d (objKey part kRegDepth) * 1024

/-- Whether a partition's buckets never gain a token and it may not borrow (R282, R283). -/
def dryPartition (d : Dp) (part : Nat) : Bool :=
  objGet d (objKey part kRegRate) == 0 && objGet d (objKey part kRegBorrow) != 1

/-- An access of `n` bytes reaches HBM3E (R282, R283): it takes its tokens where the bucket holds them; otherwise it is
admitted without tokens where the partition borrows, and otherwise waits until the bucket has gained them. A bucket that gains none
is left overdrawn, by which `starves` knows that the access waits for ever (log 79). -/
def takeTokens (d : Dp) (part stack n : Nat) : Dp :=
  let used := kvGet 0 d.buckets (bucketKey part stack)
  let level := bucketDepth d part - used
  let d1 := bump d (objKey part kRegBytes) n
  if n ≤ level then { d1 with buckets := kvSet 0 d1.buckets (bucketKey part stack) (used + n) }
  else if objGet d (objKey part kRegBorrow) = 1 then d1
  else
    let rate := objGet d (objKey part kRegRate)
    if rate = 0 then { d with buckets := kvSet 0 d.buckets (bucketKey part stack) (used + n) }
    else
      let d2 := bump d1 (objKey part kRegWaitNs) (ceilDiv (n - level) rate)
      { d2 with buckets := kvSet 0 d2.buckets (bucketKey part stack) (bucketDepth d part) }

/-- Whether work that leads from `d` to `t` has met a bucket of a partition that holds too little and never gains. -/
def starves (d t : Dp) (part : Nat) : Bool :=
  dryPartition d part &&
    t.buckets.any (fun b => b.1 / 32 == part && decide (bucketDepth d part < b.2) && decide (kvGet 0 d.buckets b.1 < b.2))

/-- Writes back one line's dirty sectors, under the partition of its tag (R282). -/
def writeBack (d : Dp) (l : CacheLine) : Dp :=
  (bitList 4 l.dirty).foldl (fun d s => writeErrors d (l.line * 4 + s))
    (takeTokens d l.part (l.line * 128 / Config.stackBytes) (32 * popCount 4 l.dirty))

/-- What the cache held of a sector is gone, and the bytes that HBM3E holds of it come to light (R274). -/
def reveal (d : Dp) (l : CacheLine) (s : Nat) : Dp :=
  { d with mem := { d.mem with
      hbm := memStore d.mem.hbm (keysFrom ((l.line * 4 + s) * 32) 32) (leBytes 32 (kvGet 0 l.back s)) } }

/-- A line leaves the cache: its dirty sectors are written back. -/
def dropLine (d : Dp) (v : CacheLine) : Dp :=
  let d1 := if v.dirty = 0 then d else writeBack d v
  let d2 := (bitList 4 v.stale).foldl (fun d s => reveal d v s) d1
  { d2 with cache := d2.cache.filter (fun x => x.line ≠ v.line) }

/-- The least recently used of some lines. -/
def lruOf (ls : List CacheLine) : Option CacheLine :=
  ls.foldl (fun (b : Option CacheLine) l =>
    match b with
    | none => some l
    | some x => if l.stamp < x.stamp then some l else some x) none

/-- The lines of a line's set. -/
def setOf (d : Dp) (line : Nat) : List CacheLine := d.cache.filter (fun l => sameSet l.line line)

/-- The KEEP line that leaves a set at its limit of KEEP lines for a further one (R273). -/
def keepVictim (d : Dp) (line : Nat) : Option CacheLine :=
  let keeps := (setOf d line).filter (·.keep)
  if objGet d kCacheKeepWays ≤ keeps.length then lruOf keeps else none

/-- The line that leaves a full set for a new line, or none where no line may leave (R272, R273). -/
def victim (d : Dp) (line : Nat) (keep : Bool) : Option CacheLine :=
  match (if keep then keepVictim d line else none) with
  | some v => some v
  | none =>
    if (setOf d line).length < 16 then none
    else lruOf ((setOf d line).filter (fun l => !l.keep))

/-- Whether an allocation finds a way: an invalid one, or a victim. -/
def canAllocate (d : Dp) (line : Nat) (keep : Bool) : Bool :=
  decide ((setOf d line).length < 16) || (victim d line keep).isSome

def evict (d : Dp) (line : Nat) (keep : Bool) : Dp :=
  match victim d line keep with
  | none => d
  | some v => dropLine d v

/-- Hints of R272. -/
def hNormal : Nat := 0
def hStream : Nat := 1
def hKeep : Nat := 2
def hLast : Nat := 3

/-- Whether an access under a hint marks its line KEEP (R272, R273). -/
def marksKeep (d : Dp) (hint : Nat) : Bool := decide (hint = hKeep) && decide (objGet d kCacheKeepWays ≠ 0)

/-- Whether a miss under a hint allocates (R272). -/
def allocates (hint : Nat) : Bool := decide (hint = hNormal) || decide (hint = hKeep)

/-- The bytes of a sector as one number. -/
def sectorBytes (d : Dp) (sec : Nat) : Nat := leNat (memRead d.mem.hbm (keysFrom (sec * 32) 32))

/-- A use of a line that the cache holds: it becomes the latest used, and KEEP under a KEEP hint. A line that becomes KEEP in a set at
its limit of KEEP lines takes the place of the least recently used of them (log 17). -/
def touch (d : Dp) (l : CacheLine) (hint : Nat) : Dp :=
  let keep := marksKeep d hint
  let d1 := if keep && !l.keep then (match keepVictim d l.line with | some v => dropLine d v | none => d) else d
  cachePut { d1 with useCtr := d1.useCtr + 1 } { l with keep := l.keep || keep, stamp := d1.useCtr }

/-- Makes one sector of a line valid, allocating the line where it has none (R272, R273). -/
def allocate (d : Dp) (sec hint part : Nat) : Dp :=
  let line := sec / 4
  match cacheFind d line with
  | some l => touch d { l with valid := l.valid ||| 2 ^ (sec % 4) } hint
  | none =>
    let keep := marksKeep d hint
    if canAllocate d line keep then
      let d1 := evict d line keep
      cachePut { d1 with useCtr := d1.useCtr + 1 }
        { line := line, valid := 2 ^ (sec % 4), dirty := 0, keep := keep, part := part, stamp := d1.useCtr }
    else d

def sectorValid (d : Dp) (sec : Nat) : Bool :=
  match cacheFind d (sec / 4) with
  | some l => bit l.valid (sec % 4)
  | none => false

def sectorDirty (d : Dp) (sec : Nat) : Bool :=
  match cacheFind d (sec / 4) with
  | some l => bit l.dirty (sec % 4)
  | none => false

/-- A sector leaves the cache without write-back. -/
def invalidate (d : Dp) (sec : Nat) : Dp :=
  let s := sec % 4
  match cacheFind d (sec / 4) with
  | none => d
  | some l =>
    let shown := bit l.dirty s || bit l.stale s
    cachePut (if shown then reveal d l s else d)
      { l with valid := l.valid - (if bit l.valid s then 2 ^ s else 0), dirty := l.dirty - (if bit l.dirty s then 2 ^ s else 0)
               stale := l.stale - (if bit l.stale s then 2 ^ s else 0), back := kvSet 0 l.back s 0 }

/-- A read of one sector under a hint (R272, R274). A dirty sector that LAST discards leaves the bytes of its latest
write-back. -/
def cacheRead (d : Dp) (sec hint part : Nat) : Dp :=
  if sectorValid d sec then
    let d1 := bump d kCacheHits 1
    if hint = hLast then invalidate (if sectorDirty d sec then bump d1 kCacheLastDrops 1 else d1) sec
    else match cacheFind d1 (sec / 4) with
      | some l => touch d1 l hint
      | none => d1
  else
    let d1 := takeTokens (bump d kCacheMisses 1) part (sec * 32 / Config.stackBytes) 32
    if allocates hint then allocate d1 sec hint part else d1

/-- A write of a sector, whole or in part, before its bytes change (R272): a sector that becomes dirty keeps its bytes as
last written back. -/
def cacheWrite (d : Dp) (sec hint part : Nat) (whole : Bool) : Dp :=
  let s := sec % 4
  let stack := sec * 32 / Config.stackBytes
  let hit := sectorValid d sec
  let d1 := bump d (if hit then kCacheHits else kCacheMisses) 1
  let d2 := if hit then d1
            else if allocates hint then allocate (if whole then d1 else takeTokens d1 part stack 32) sec hint part
            else writeErrors (takeTokens d1 part stack 32) sec
  match cacheFind d2 (sec / 4) with
  | some l =>
    if bit l.valid s then
      touch d2 { l with dirty := l.dirty ||| 2 ^ s, part := part, stale := l.stale - (if bit l.stale s then 2 ^ s else 0)
                        back := if bit l.dirty s || bit l.stale s then l.back else kvSet 0 l.back s (sectorBytes d2 sec) } hint
    else d2
  | none => d2

/-- Write-back of every dirty sector; the lines stay valid and clean (R276). -/
def cacheFlushAll (d : Dp) : Dp :=
  let d1 := (d.cache.filter (fun l => l.dirty ≠ 0)).foldl writeBack d
  { d1 with cache := d1.cache.map (fun l => { l with dirty := 0, back := l.back.filter (fun p => bit l.stale p.1) }) }

/-- Every bucket's gain over `ns` nanoseconds at its partition's rate (R282: GB/s is bytes per nanosecond). -/
def bucketsGain (d : Dp) (ns : Nat) : Dp :=
  { d with buckets := d.buckets.filterMap (fun p =>
      let used := p.2 - ns * objGet d (objKey (p.1 / 32) kRegRate)
      if used = 0 then none else some (p.1, used)) }

/-! ## Errors of the cache's own memory (R292) -/

/-- Whether an access to a sector reaches HBM3E: the cache does not hold it, or holds it clean with an uncorrectable error. -/
def fromHbm (d : Dp) (sec : Nat) : Bool :=
  !sectorValid d sec || (!sectorDirty d sec && kvGet 0 d.sram sec == 2)

/-- Whether a read of a sector returns no data (R292, R293). -/
def sectorDead (d : Dp) (sec : Nat) : Bool :=
  isPoisoned d sec || (if fromHbm d sec then kvGet 0 d.sev sec == 2 else kvGet 0 d.sram sec == 2)

/-- Whether an access to a sector fails its parity four times (R291). -/
def parityFails (d : Dp) (sec : Nat) : Bool := fromHbm d sec && decide (6 ≤ kvGet 0 d.sev sec)

/-- What an access to a sector meets before the cache serves it: the stack's errors where it reaches HBM3E, and else those of the
cache, which corrects one bit, poisons a dirty sector and fetches a clean one anew. -/
def accessErrors (ctx : Nat) (d : Dp) (sec : Nat) : Dp :=
  let d1 := { d with sram := kvSet 0 d.sram sec 0 }
  if !sectorValid d sec then sectorErrors ctx d1 sec
  else if fromHbm d sec then sectorErrors ctx (invalidate d1 sec) sec
  else if kvGet 0 d.sram sec = 2 then poisonSector d1 sec
  else d1

end Sys2Proof.Machine
end

