-- ==== Sys2Proof/Machine/Flash.lean ====
section
/-! DEFINITION. The flash translation layer (R335 to R341): blocks, the map of units with its journal, placement, wear, reads and
retirement; and the replay-protected partition (R342). -/

namespace Sys2Proof.Machine

/-! ## Blocks and the map of units -/

/-- Raw capacity in bytes (R335). -/
def flashRawBytes : Nat := 19200000000000

/-- Blocks of the raw space; one erase block holds one logical unit (log 7). -/
def rawBlocks : Nat := flashRawBytes / Config.pageBytes

/-- Blocks that hold data or are spare: one page in every 16 of a stripe is the stripe's parity (R335). -/
def flashBlocks : Nat := flashRawBytes * 15 / 16 / Config.pageBytes

/-- The block in which a unit lies; none while nothing has written the unit. -/
def Ftl.blockOf (f : Ftl) (u : Nat) : Option Nat := match kvGet 0 f.map u with | 0 => none | b + 1 => some b

/-- The unit that a block holds. -/
def Ftl.unitOf (f : Ftl) (b : Nat) : Option Nat := (f.map.find? (fun p => p.2 == b + 1)).map (·.1)

/-- Whether a block is free for a unit. -/
def Ftl.isFree (f : Ftl) (b : Nat) : Bool := decide (b < flashBlocks) && !f.bad.contains b && (f.unitOf b).isNone

/-- The free block with the lowest erase count, the lowest number among equals (R338, log 7). -/
def Ftl.freeBlock (f : Ftl) : Option Nat :=
  match (List.range (f.map.length + f.bad.length + f.erases.length + 1)).find? (fun b => f.isFree b && kvGet 0 f.erases b == 0) with
  | some b => some b
  | none =>
    ((f.erases.filter (fun p => f.isFree p.1)).foldl (fun (x : Option (Nat × Nat)) p =>
      match x with
      | none => some p
      | some y => if p.2 < y.2 then some p else some y) none).map (·.1)

/-- The map as the journal tells it, its latest change of a unit standing (R337). -/
def Ftl.recovered (f : Ftl) : List (Nat × Nat) := f.journal.foldl (fun m p => kvSet 0 m p.1 (p.2 + 1)) []

/-- A unit's map entry switches to a block; the change is journaled first (R337, R339). -/
def Ftl.switch (f : Ftl) (u b : Nat) : Ftl := { f with journal := f.journal ++ [(u, b)], map := kvSet 0 f.map u (b + 1) }

/-- A block that fails a program or erase is retired (R340). -/
def Ftl.retire (f : Ftl) (b : Nat) : Ftl := { f with bad := f.bad ++ [b], lost := f.lost + 1 }

/-- A block is erased: one more erase, no reads, no failing granules; one that fails is retired. -/
def Ftl.erase (f : Ftl) (b : Nat) : Ftl :=
  let g := { f with erases := kvSet 0 f.erases b (kvGet 0 f.erases b + 1), worn := f.worn + 1, reads := kvSet 0 f.reads b 0
                    granules := f.granules.filter (fun x => x.1 / 512 ≠ b) }
  if f.weak.contains b then g.retire b else g

/-- Writes a unit to a free block; a block that fails its program is retired and the unit goes to the next (R338, R340). The block
that held the unit is erased. -/
def Ftl.program : Nat → Ftl → Nat → Ftl
  | 0, f, _ => f
  | n + 1, f, u =>
    match f.freeBlock with
    | none => f
    | some b =>
      if f.weak.contains b then (f.retire b).program n u
      else match f.blockOf u with
        | none => f.switch u b
        | some old => (f.switch u b).erase old

def Ftl.rewrite (f : Ftl) (u : Nat) : Ftl := f.program (f.weak.length + 1) u

/-- A relocation: the unit of a block is copied and its map entry switched, and the block is erased (R339). A granule of which nothing
can be read any more stays unreadable in the copy until the unit is rewritten (R340). -/
def Ftl.relocate (f : Ftl) (b : Nat) : Ftl :=
  match f.unitOf b with
  | none => f.erase b
  | some u =>
    let dead := f.granules.filter (fun x => x.1 / 512 == b && decide (10 ≤ x.2))
    let g := f.rewrite u
    match g.blockOf u with
    | none => g
    | some n => { g with granules := dead.foldl (fun l x => kvSet 0 l (n * 512 + x.1 % 512) x.2) g.granules }

/-- Static levelling: the unit of a cold block moves onto a worn block; a unit that lies there moves to a free one first (R338). -/
def Ftl.level (f : Ftl) (cold worn : Nat) : Ftl :=
  let g := if (f.unitOf worn).isSome then f.relocate worn else f
  match g.unitOf cold with
  | none => g
  | some u => if g.isFree worn then (g.switch u worn).erase cold else g

/-- Units that leave a block in `level` (R344). -/
def Ftl.levelMoves (f : Ftl) (cold worn : Nat) : Nat := b2n (f.unitOf worn).isSome + b2n (f.unitOf cold).isSome

/-! ## What software sees of it (R344) -/

/-- `FTL_SPARE_PERMILLE`: what start-up found, less the blocks retired since (log 7). -/
def Ftl.spareNow (f : Ftl) : Nat := f.spare - 1000 * f.lost / rawBlocks

/-- `FTL_LIFE_USED`: what start-up found, and the erases since against 3,000 for each block (R338, log 7). -/
def Ftl.lifeNow (f : Ftl) : Nat := f.lifeUsed + 1000 * f.worn / (3000 * flashBlocks)

/-- `FTL_BAD_BLOCKS`. -/
def Ftl.badNow (f : Ftl) : Nat := f.badBlocks + f.lost

/-! ## Accesses -/

/-- The granules of flash that `n` bytes from an address touch (R336). -/
def granulesOf (a n : Nat) : List Nat :=
  if n = 0 then [] else (List.range ((a + n - 1) / 4096 - a / 4096 + 1)).map (a / 4096 + ·)

/-- How a granule of the user space fails (R340): 0 not, up to 8 by as many retries, 9 rebuilt from parity, 10 not to be rebuilt. -/
def granuleFails (d : Dp) (g : Nat) : Nat :=
  match d.ftl.blockOf (g / 512) with
  | none => 0
  | some b => kvGet 0 d.ftl.granules (b * 512 + g % 512)

/-- A granule is read: its block's reads, and retries and rebuilds, are counted; an uncorrectable granule is logged (R339, R340). -/
def flashRead (ctx : Nat) (d : Dp) (g : Nat) : Dp :=
  match d.ftl.blockOf (g / 512) with
  | none => d
  | some b =>
    let d0 := { d with ftl := { d.ftl with reads := kvSet 0 d.ftl.reads b (kvGet 0 d.ftl.reads b + 1) } }
    match granuleFails d g with
    | 0 => d0
    | n =>
      let d1 := bump d0 kFtlReadRetries (min n 8)
      if n ≤ 8 then d1
      else if n = 9 then bump d1 kFtlRebuilds 1
      else logEvent (bump d1 kFtlUncorrCount 1)
        { source := 0x3120, code := 0x0F12, sev := 2, ctx := ctx, data := dataAt 608 (g / 512) + dataAt 592 (g % 512) }

/-- The units whose first byte lies in a run: a MOV writes whole units, each of them once (R332). -/
def unitsFrom (a n : Nat) : List Nat :=
  if n = 0 then [] else
  (List.range ((a + n - 1) / Config.pageBytes + 1 - ceilDiv a Config.pageBytes)).map (ceilDiv a Config.pageBytes + ·)

/-- A MOV has written bytes of flash: each unit that begins among them goes to a new block, and a retirement relocates its unit
(R338, R340). -/
def flashWritten (d : Dp) (a n : Nat) : Dp :=
  let f := (unitsFrom a n).foldl Ftl.rewrite d.ftl
  bump { d with ftl := f } kFtlRelocations (f.lost - d.ftl.lost)

/-! ## The replay-protected partition (R342) -/

/-- What the message authentication of a write covers: record, counter and contents (log 80). -/
def rpMac (rec counter : Nat) (bytes : List Nat) : List Nat :=
  hmac256 (leBytes 32 Config.rpKey.toNat) (leBytes 8 rec ++ leBytes 8 counter ++ bytes)

/-- A write of a record: both copies and the counter, or a refusal that leaves all. -/
def Ftl.rpWrite (f : Ftl) (rec counter : Nat) (bytes mac : List Nat) : Ftl :=
  if rec < 64 ∧ bytes.length = 256 ∧ f.rpCounter < counter ∧ mac = rpMac rec counter bytes then
    { f with rp := kvSet [] f.rp rec bytes, rp2 := kvSet [] f.rp2 rec bytes, rpCounter := counter }
  else f

end Sys2Proof.Machine
end

