-- ==== Sys2Proof/Machine/Operands.lean ====
section
/-! DEFINITION. Operands of ops: translation of virtual addresses (R299 to R302, R471), reads, writes and adds through it,
the layout of tensor rows (R22, R70), and what an op does in the end: its accesses, counts, log entries and codes, which are
worked out from the state at the op's command and then applied in order (log 13). -/

namespace Sys2Proof.Machine

/-- Who accesses: the context, its table root and partition, whether the op is a MOV, the op's own hint where R271 gives
one, what the op has read at its issue, whether its outputs keep −0 (R36, R56), how many translations the working has asked for, and the
state it acts on. -/
structure Env where
  d : Dp
  ctx : Nat
  root : Nat
  part : Nat
  mov : Bool := false
  hint : Option Nat := none
  held : List Held := []
  keepNeg : Bool := false
  turn : Nat := 0
deriving DecidableEq, Repr, Inhabited

/-! ## Translation -/

/-- Bytes of HBM3E at a physical address; outside every region they read as 0. -/
def physRead (d : Dp) (a n : Nat) : Nat :=
  leNat ((keysFrom a n).map (fun p => match hbmHome d p with | some k => memByte d.mem.hbm k | none => 0))

/-- What stops a read of an entry at a physical address: poison, or a parity error that survives its retries (R291 to R293). -/
def physStop (d : Dp) (a : Nat) : Option Nat :=
  match hbmHome d a with
  | some k => if parityFails d (k / 32) then some 0x0701 else if sectorDead d (k / 32) then some 0x0F10 else none
  | none => none

/-- Whether HBM3E page `p` lies within a valid region and outside the twin window (R301, R325). -/
def hbmPageOk (d : Dp) (p : Nat) : Bool :=
  (regions d).any (fun r => r.hasPage p) &&
    !(decide (objGet d kTwinWindowBase ≤ p) && decide (p < objGet d kTwinWindowBase + objGet d kTwinWindowPages))

/-- Whether host page `p` lies within the host window (R470). -/
def hostPageOk (d : Dp) (p : Nat) : Bool :=
  decide (objGet d kHostWinBase ≤ p) && decide (p < objGet d kHostWinBase + objGet d kHostWinPages)

/-- The address of the entry that a walk reads of a table, for the level whose index starts at bit `sh`. -/
def entryAddr (va table sh : Nat) : Nat := table + 8 * ((va >>> sh) % (if sh = 48 then 256 else 512))

/-- Walks levels 3 to 1 (R299, R300, R302 step 1); the level-0 table's physical address. -/
def walk (d : Dp) (va : Nat) : List Nat → Nat → Except Nat Nat
  | [], table => .ok table
  | sh :: rest, table =>
    let a := entryAddr va table sh
    let e := physRead d a 8
    match physStop d a with
    | some c => .error c
    | none =>
      if !bit e 63 then .error 0x0201
      else if bits e 62 56 ≠ 0 ∨ bits e 11 0 ≠ 0 then .error 0x0205
      else walk d va rest (bits e 55 12 * 4096)

/-- The levels of a walk above the leaf. -/
def walkLevels : List Nat := [48, 39, 30]

/-- The leaf entry that a walk of the tables finds (R302 steps 1 and 2). -/
def leafEntry (E : Env) (va : Nat) : Except Nat Nat :=
  match walk E.d va walkLevels E.root with
  | .error c => .error c
  | .ok table =>
    let a := entryAddr va table 21
    let e := physRead E.d a 8
    match physStop E.d a with
    | some c => .error c
    | none => if bit e 63 then .ok e else .error 0x0201

/-- The physical addresses of the entries that a walk reads, from level 3 down to the leaf or to the entry that ends it. -/
def walkAddrs (d : Dp) (va : Nat) : List Nat → Nat → List Nat
  | [], table => [entryAddr va table 21]
  | sh :: rest, table =>
    let a := entryAddr va table sh
    a :: (if (walk d va [sh] table).toOption.isNone then [] else walkAddrs d va rest (bits (physRead d a 8) 55 12 * 4096))

/-- The page of a context, as the device's cached translations name it. -/
def xlatKey (ctx va : Nat) : Nat := ctx * 2 ^ 35 + va % 2 ^ 56 / Config.pageBytes

/-- Whether a translation comes from the device's cache (R303). Which of the old and the new entry an access sees before the fence is
open; a cached entry that memory still holds gives the same translation either way. -/
def usesCached (E : Env) (va : Nat) : Bool :=
  kvGet 0 E.d.xlat (xlatKey E.ctx va) != 0 && Config.usesCached E.d.xlatCtr E.turn (xlatKey E.ctx va)

/-- The leaf entry through which an access is translated. -/
def entryOf (E : Env) (va : Nat) : Except Nat Nat :=
  if usesCached E va then .ok (kvGet 0 E.d.xlat (xlatKey E.ctx va)) else leafEntry E va

/-- What a valid leaf entry gives an access that does not cross its page (R301, R302). -/
def placeOf (E : Env) (va n : Nat) (write : Bool) (e : Nat) : Except Nat Place :=
  let tier := bits e 61 60
  let bay := bits e 57 51
  let len := bits e 50 46
  let frame := bits e 40 0
  let off := va % Config.pageBytes
  let frameOk :=
    match tier with
    | 0 => decide (frame + len + 1 ≤ 112)
    | 1 => hbmPageOk E.d frame
    | 2 => hostPageOk E.d frame
    | _ => decide (frame < objGet E.d kFlashUnits)
  if bits e 45 41 ≠ 0 ∨ (tier ≠ 0 ∧ (bay ≠ 0 ∨ len ≠ 0)) then .error 0x0205
  else if !frameOk then .error 0x0204
  else if tier = 0 ∧ (len + 1) * Config.blockBytes < off + n then .error 0x0203
  else if write ∧ !bit e 62 then .error 0x0202
  else if write ∧ tier = 3 ∧ !E.mov then .error 0x0206
  else .ok {
    tier := tier
    addr := if tier = 0 then bay * 2 ^ 23 + frame * Config.blockBytes + off else frame * Config.pageBytes + off
    hint := if tier = 1 then E.hint.getD (bits e 59 58) else 0 }

/-- Translates one address for an access that does not cross its page (R302). -/
def translate (E : Env) (va n : Nat) (write : Bool) : Except Nat Place :=
  match entryOf E va with
  | .error c => .error c
  | .ok e => placeOf E va n write e

/-- Cuts `n` bytes from `va` into runs that do not cross a tensor page. -/
def pageRuns : Nat → Nat → Nat → List (Nat × Nat)
  | 0, _, _ => []
  | f + 1, va, n =>
    if n = 0 then []
    else
      let k := min n (Config.pageBytes - va % Config.pageBytes)
      (va % 2 ^ 56, k) :: pageRuns f (va + k) (n - k)

def runsOf (va n : Nat) : List (Nat × Nat) := pageRuns (n / Config.pageBytes + 2) va n

/-! ## What an op does -/

/-- One access of an op. -/
inductive Act where
  /-- A read of `n` bytes. -/
  | rd (p : Place) (n : Nat) (narrow : Bool)
  /-- A write of bytes. -/
  | wr (p : Place) (bytes : List Nat) (narrow : Bool)
  /-- An add request to elements of one sector, under a mask (R286). -/
  | add (p : Place) (fmt : Nat) (addends : List (Option Nat))
  /-- The read of a page-table entry at a physical address (R277, R299). -/
  | walk (a : Nat)
deriving DecidableEq, Repr, Inhabited

/-- What an op has done so far: accesses, counts and log entries (latest first), run-time codes, `INFO`, what a family
records for itself, what it has read to keep, the translations it has met, and how many it has asked for. -/
structure Eff where
  acts : List Act := []
  counts : List (Nat × Nat) := []
  events : List Event := []
  codes : List Nat := []
  info : Nat := 0
  notes : List (Nat × Nat) := []
  hw : Option (Nat × Nat × Nat) := none
  held : List Held := []
  xlats : List (Nat × Nat) := []
  turn : Nat := 0
deriving DecidableEq, Repr, Inhabited

/-- The working of an op: it ends early with a status, or goes on. -/
abbrev Plan (α : Type) := ExceptT Nat (StateM Eff) α

namespace Plan

/-- Ends the op with a status (R92). -/
def stop {α : Type} (code : Nat) : Plan α := throw code

def need (ok : Bool) (code : Nat) : Plan Unit := if ok then pure () else stop code

/-- Counts in an object. -/
def count (key : Nat) (n : Nat) : Plan Unit := modify (fun e => { e with counts := (key, n) :: e.counts })

/-- Raises a run-time code (R55). -/
def code (c : Nat) : Plan Unit := modify (fun e => { e with codes := c :: e.codes })

def event (x : Event) : Plan Unit := modify (fun e => { e with events := x :: e.events })

def note (k v : Nat) : Plan Unit := modify (fun e => { e with notes := (k, v) :: e.notes })

def setInfo (n : Nat) : Plan Unit := modify (fun e => { e with info := n })

def act (a : Act) : Plan Unit := modify (fun e => { e with acts := a :: e.acts })

/-- A hardware fault: cause, `SOURCE`, detail bits [631:568] (R662); the op ends with 0x0701. -/
def hardware {α : Type} (cause source detail : Nat) : Plan α := do
  modify (fun e => { e with hw := some (cause, source, detail) })
  stop 0x0701

end Plan

/-- The 32-byte sectors of HBM3E, as home keys ÷ 32, that `n` bytes from a physical address touch. -/
def sectorsOf (d : Dp) (a n : Nat) : List Nat :=
  if n = 0 then [] else
  (List.range ((a + n - 1) / 32 - a / 32 + 1)).filterMap (fun i => (hbmHome d ((a / 32 + i) * 32)).map (· / 32))

/-- What stops a read of a run (R291 to R293, R340): a parity error that survives its retries, poison or an uncorrectable sector, or
an uncorrectable granule. -/
def readStop (d : Dp) (p : Place) (n : Nat) : Option Nat :=
  if p.tier = 1 then
    let ss := sectorsOf d p.addr n
    if ss.any (parityFails d) then some 0x0701 else if ss.any (sectorDead d) then some 0x0F10 else none
  else if p.tier = 3 ∧ (granulesOf p.addr n).any (fun g => decide (10 ≤ granuleFails d g)) then some 0x0F12
  else none

/-- The bytes of a run. -/
def runBytes (d : Dp) (p : Place) (n : Nat) : List Nat := memRead (d.mem.tier p.tier) (tierKeys d p.tier p.addr n)

/-- Translates an access of the op. A page that the device's cache of translations does not give is found by a walk, whose reads
are narrow requests, and is cached from then on (R277, R299, R303). -/
def xlate (E : Env) (va n : Nat) (write : Bool) : Plan Place := do
  let st ← get
  let E' := { E with turn := st.turn }
  let k := xlatKey E.ctx va
  let walks := kvGet 0 st.xlats k == 0 && !usesCached E' va
  set { st with
    turn := st.turn + 1
    acts := if walks then (walkAddrs E.d va walkLevels E.root).reverse.map Act.walk ++ st.acts else st.acts
    xlats := match entryOf E' va with | .ok e => if walks then kvPut st.xlats k e else st.xlats | .error _ => st.xlats }
  match translate E' va n write with
  | .error c => Plan.stop c
  | .ok p => pure p

/-- Reads `n` bytes from a virtual address within one page. -/
def rdPlace (E : Env) (narrow : Bool) (r : Nat × Nat) : Plan ((Place × Nat) × List Nat) := do
  let p ← xlate E r.1 r.2 false
  Plan.act (.rd p r.2 narrow)
  match readStop E.d p r.2 with
  | some c => Plan.stop c
  | none => pure ((p, r.2), runBytes E.d p r.2)

def rdRun (E : Env) (narrow : Bool) (r : Nat × Nat) : Plan (List Nat) := do pure (← rdPlace E narrow r).2

/-- Reads `n` bytes from a virtual address, by narrow or by line requests (R277). -/
def rdN (E : Env) (narrow : Bool) (va n : Nat) : Plan (List Nat) := do
  let ls ← (runsOf va n).mapM (rdRun E narrow)
  pure ls.flatten

def rd (E : Env) (va n : Nat) : Plan (List Nat) := rdN E false va n

/-- A little-endian number in virtual memory. -/
def rdNat (E : Env) (va n : Nat) : Plan Nat := do pure (leNat (← rd E va n))

/-- Reads `n` bytes that the op keeps from its issue on: what it has read then stands, whatever is written later (R28, R75,
R86, R149, R216). The accesses are the op's either way. -/
def rdHeld (E : Env) (narrow : Bool) (va n : Nat) : Plan (List Nat) :=
  match E.held.find? (fun h => h.va == va && h.n == n) with
  | some h => do
    h.runs.forM (fun r => Plan.act (.rd r.1 r.2 h.narrow))
    pure h.bytes
  | none => do
    let rs ← (runsOf va n).mapM (rdPlace E narrow)
    let bs := (rs.map (·.2)).flatten
    modify (fun e => { e with held := ⟨va, n, rs.map (·.1), narrow, bs⟩ :: e.held })
    pure bs

/-- A record that the device reads whole: a number of `n` bytes, by line requests (R277). -/
def rdRec (E : Env) (va n : Nat) : Plan Nat := do pure (leNat (← rd E va n))

/-- A record that the op keeps from its issue on. -/
def rdHeldRec (E : Env) (va n : Nat) : Plan Nat := do pure (leNat (← rdHeld E false va n))

def wrRuns (E : Env) (narrow : Bool) : List (Nat × Nat) → List Nat → Plan Unit
  | [], _ => pure ()
  | r :: rs, bs => do
    let p ← xlate E r.1 r.2 true
    Plan.act (.wr p (bs.take r.2) narrow)
    wrRuns E narrow rs (bs.drop r.2)

/-- Writes bytes at a virtual address, by narrow or by line requests (R277). -/
def wrN (E : Env) (narrow : Bool) (va : Nat) (bs : List Nat) : Plan Unit := wrRuns E narrow (runsOf va bs.length) bs

def wr (E : Env) (va : Nat) (bs : List Nat) : Plan Unit := wrN E false va bs

/-- Add requests (R286), one for each sector that has an addend: aligned elements of one format at consecutive addresses, of
which some are masked off. Adds take the page's own hint (R271). A target outside HBM3E has been refused at issue (R289). -/
def addSectors (E : Env) (fmt : Nat) : Nat → Nat → List (Option Nat) → Plan Unit
  | 0, _, _ => pure ()
  | f + 1, va, xs =>
    let k := max 1 ((32 - va % 32) / (fmtBits fmt / 8))
    let now := xs.take k
    if xs.isEmpty then pure ()
    else if now.all Option.isNone then addSectors E fmt f (va + k * (fmtBits fmt / 8)) (xs.drop k)
    else do
      let p ← xlate { E with hint := none } (va % 2 ^ 56) (now.length * fmtBits fmt / 8) true
      Plan.act (.add p fmt now)
      match readStop E.d p (now.length * fmtBits fmt / 8) with
      | some c => Plan.stop c
      | none => addSectors E fmt f (va + k * (fmtBits fmt / 8)) (xs.drop k)

def addAt (E : Env) (va fmt : Nat) (addends : List (Option Nat)) : Plan Unit :=
  addSectors E fmt (addends.length + 1) va addends

/-- The integer that an addend of R182 is rounded to, or none where it is not sent. -/
def slotAddend (ex : Int) (x : Val) : Option Nat :=
  match x with
  | .fin s m e =>
    let n := if m = 0 then 0 else roundTo 0 s 0 m e ex
    if 2 ^ 63 ≤ n then none else some (ofSigned 64 (signedOf s n))
  | _ => none

/-- Sends addends to consecutive exact-scatter slots of unit `2 ^ ex` (R181, R182). -/
def scatter (E : Env) (va : Nat) (ex : Int) (xs : List Val) : Plan Unit := do
  let ns := xs.map (slotAddend ex)
  let drops := (ns.filter Option.isNone).length
  if drops ≠ 0 then do Plan.count kXscDropCount drops; Plan.code 0x0307
  addAt E va fINT64 ns

/-- The tier of the page at an address, without reading it. -/
def tierAt (E : Env) (va : Nat) : Option Nat :=
  match translate E (va % 2 ^ 56) 1 false with
  | .ok p => some p.tier
  | .error _ => none

/-- Whether every page of a region that translates lies in HBM3E, where the adders are (R289). -/
def allHbm (E : Env) (r : Nat × Nat) : Bool :=
  (runsOf r.1 (r.2 - r.1)).all (fun q => tierAt E q.1 == some 1 || tierAt E q.1 == none)

/-! ## Rows of tensors (R22) -/

/-- Bytes of a packed row of `n` elements. -/
def rowBytes (fmt n : Nat) : Nat := ceilDiv (n * fmtBits fmt) 8

/-- The codes that packed bytes hold, from bit `off` up. -/
def unpackFrom (fmt off n : Nat) (bs : List Nat) : List Nat :=
  let x := leNat bs
  let w := fmtBits fmt
  (List.range n).map (fun i => (x >>> (off + w * i)) % 2 ^ w)

/-- Packed codes as one number. -/
def packNat (w : Nat) : List Nat → Nat
  | [] => 0
  | c :: cs => c % 2 ^ w + 2 ^ w * packNat w cs

/-- The bytes of a packed row, unused bits zero. -/
def packRow (fmt : Nat) (codes : List Nat) : List Nat :=
  leBytes (rowBytes fmt codes.length) (packNat (fmtBits fmt) codes)

/-- Codes `c0` to `c0 + n - 1` of the packed row at `row`. -/
def rdCodes (E : Env) (row fmt c0 n : Nat) : Plan (List Nat) := do
  if n = 0 then pure []
  else
    let w := fmtBits fmt
    let b0 := c0 * w / 8
    let bs ← rd E (row + b0) (ceilDiv (c0 * w % 8 + n * w) 8)
    pure (unpackFrom fmt (c0 * w % 8) n bs)

/-- Values of codes `c0` to `c0 + n - 1` of a row. -/
def rdVals (E : Env) (row fmt c0 n : Nat) : Plan (List Val) := do
  pure ((← rdCodes E row fmt c0 n).map (decodeNum fmt))

/-- Writes codes from element `c0` of a row on; `c0` lies on a byte boundary. -/
def wrCodes (E : Env) (row fmt c0 : Nat) (codes : List Nat) : Plan Unit :=
  if codes.isEmpty then pure () else wr E (row + c0 * fmtBits fmt / 8) (packRow fmt codes)

/-- Counts what output conversion reports for one element (R34, R35, R25), and gives its code. -/
def emit (e : Enc) : Plan Nat := do
  if e.ovf then Plan.count kOvfCount 1
  if e.sub then do Plan.count kNanSubstCount 1; Plan.code 0x0303
  if e.nan then Plan.count kNanOutCount 1
  pure e.code

/-- Rounds values to a format and writes them as one row from element `c0`; `idx` is the index of the first (R54). -/
def wrVals (E : Env) (row fmt : Nat) (R : Rnd) (idx c0 : Nat) (vs : List Val) : Plan Unit := do
  let cs ← ((List.range vs.length).zip vs).mapM (fun p => emit (encodeNum fmt R (idx + p.1) p.2))
  wrCodes E row fmt c0 cs

/-! ## Carrying out what an op does -/

def acctKey (tier : Nat) : Nat :=
  match tier with
  | 0 => kAcctBytesNs
  | 1 => kAcctBytesHbm
  | 2 => kAcctBytesHost
  | _ => kAcctBytesFlash

/-- One sector of a read. -/
def actReadSector (E : Env) (hint : Nat) (d : Dp) (a : Nat) : Dp :=
  match hbmHome d a with
  | none => d
  | some k => cacheRead (accessErrors E.ctx d (k / 32)) (k / 32) hint E.part

/-- One sector of a write: what a fill meets, the cache, then the poison (R272, R292, R293). -/
def actWriteSector (E : Env) (hint lo hi : Nat) (d : Dp) (a : Nat) : Dp :=
  match hbmHome d (a * 32) with
  | none => d
  | some k =>
    let sec := k / 32
    let whole := decide (lo ≤ a * 32) && decide (a * 32 + 32 ≤ hi)
    let fills := !whole && (allocates hint || sectorValid d sec)
    let d1 := cacheWrite (if fills then accessErrors E.ctx d sec else d) sec hint E.part whole
    if whole then unpoison d1 sec else d1

/-- The first bytes of the 32-byte sectors that a run touches. -/
def sectorStarts (a n : Nat) : List Nat :=
  if n = 0 then [] else (List.range ((a + n - 1) / 32 - a / 32 + 1)).map (a / 32 + ·)

/-- The sum that an adder stores (R287), and whether it became infinite from finite operands. -/
def addCode (fmt x a : Nat) : Nat × Bool :=
  if isFloat fmt then
    let u := decodeNum fmt x
    let v := decodeNum fmt a
    let e := encodeNum fmt {} 0 (Val.add 0 u v)
    (e.code, u.isFinite && v.isFinite && e.ovf)
  else ((x + a) % 2 ^ fmtBits fmt, false)

/-- Elements of an add request applied one after another. -/
def addBytes (d : Dp) (tier fmt : Nat) : Nat → List (Option Nat) → List Host.Cell × Nat → List Host.Cell × Nat
  | _, [], acc => acc
  | a, none :: xs, acc => addBytes d tier fmt (a + fmtBits fmt / 8) xs acc
  | a, some x :: xs, (m, ovf) =>
    let nb := fmtBits fmt / 8
    let ks := tierKeys d tier a nb
    let r := addCode fmt (leNat (memRead m ks)) x
    addBytes d tier fmt (a + nb) xs (memStore m ks (leBytes nb r.1), ovf + b2n r.2)

/-- The sectors of an add that its fill must read from HBM3E. -/
def addFills (d : Dp) (ss : List Nat) : Nat := (ss.filter (fun s => !sectorValid d s)).length

/-- Carries out one access (R270 to R293, R376). An entry of a page table has no page and is read under NORMAL (log 25). -/
def applyAct (E : Env) (d : Dp) (a : Act) : Dp :=
  match a with
  | .rd p n narrow =>
    let d1 := bump d (objKey E.ctx (acctKey p.tier)) n
    match p.tier with
    | 1 => (sectorStarts p.addr n).foldl (fun d s => actReadSector E p.hint d (s * 32))
             (if narrow then bump d1 kNraReads (sectorStarts p.addr n).length else d1)
    | 3 => (granulesOf p.addr n).foldl (flashRead E.ctx) d1
    | _ => d1
  | .wr p bs narrow =>
    let d1 := bump d (objKey E.ctx (acctKey p.tier)) bs.length
    let d2 := if p.tier = 1 then
        (sectorStarts p.addr bs.length).foldl (actWriteSector E p.hint p.addr (p.addr + bs.length))
          (if narrow then bump d1 kNraWrites (sectorStarts p.addr bs.length).length else d1)
      else d1
    let ks := tierKeys d2 p.tier p.addr bs.length
    let d3 := { d2 with mem := d2.mem.setTier p.tier (memStore (d2.mem.tier p.tier) ks bs) }
    if p.tier = 3 then flashWritten d3 p.addr bs.length else d3
  | .add p fmt xs =>
    let nb := xs.length * fmtBits fmt / 8
    let ss := sectorsOf d p.addr nb
    if ss.any (fun s => parityFails d s || sectorDead d s) then
      ss.foldl (fun d s => if isPoisoned d s then d else accessErrors E.ctx d s) d
    else
      let h := if p.hint = hKeep then hKeep else hNormal
      let d1 := bump (bump (bump (bump d (objKey E.ctx kAcctBytesHbm) (2 * nb)) kMsaAdds ss.length) kNraWrites ss.length)
        kNraReads (addFills d ss)
      let d2 := (sectorStarts p.addr nb).foldl (actWriteSector E h (p.addr + nb) p.addr) d1
      let r := addBytes d2 p.tier fmt p.addr xs (d2.mem.tier p.tier, 0)
      bump { d2 with mem := d2.mem.setTier p.tier r.1 } kMsaFpOvf r.2
  | .walk a => actReadSector E hNormal (bump d kNraReads 1) a

/-- The bytes of memory, by tier and key, that an access stores to. -/
def actKeys (d : Dp) (a : Act) : List (Nat × Nat) :=
  match a with
  | .rd _ _ _ => []
  | .walk _ => []
  | .wr p bs _ => (tierKeys d p.tier p.addr bs.length).map (fun k => (p.tier, k))
  | .add p fmt xs => (tierKeys d p.tier p.addr (xs.length * fmtBits fmt / 8)).map (fun k => (p.tier, k))

/-- The device caches the translations that a working has met (R303). -/
def keepXlats (d : Dp) (xs : List (Nat × Nat)) : Dp :=
  { d with xlat := xs.foldl (fun l x => kvSet 0 l x.1 x.2) d.xlat, xlatCtr := d.xlatCtr + 1 }

/-- A context's cached translations are dropped (R303, R447 step 3). -/
def dropXlats (d : Dp) (c : Nat) : Dp := { d with xlat := d.xlat.filter (fun p => p.1 / 2 ^ 35 ≠ c) }

/-- Carries out what an op does, in order. -/
def applyEff (E : Env) (e : Eff) (d : Dp) : Dp :=
  e.events.reverse.foldl logEvent (bumps (keepXlats (e.acts.reverse.foldl (applyAct E) d) e.xlats) e.counts.reverse)

/-- The first of the listed codes that was raised (R55, R243), or success. -/
def firstCode (order : List Nat) (raised : List Nat) : Nat := (order.find? raised.contains).getD 0

/-- The order of run-time codes over all chapters (R55, R93, R165, R243); 0x0312, 0x0308 and 0x0307 stand only where no
other code applies (R182, R184, R203). -/
def codeOrder : List Nat :=
  [0x0305, 0x0304, 0x0133, 0x0303, 0x0164, 0x0163, 0x0306, 0x0309, 0x0302, 0x0301, 0x0312, 0x0308, 0x0307]

/-- Runs the working of an op: what it does, and its status. -/
def runPlan (p : Plan Unit) (order : List Nat) : Eff × Nat :=
  match (p.run {} : Except Nat Unit × Eff) with
  | (.ok _, e) => (e, firstCode order e.codes)
  | (.error c, e) => (e, c)

end Sys2Proof.Machine
end

