-- ==== Sys2Proof/Machine/Product.lean ====
section
/-! DEFINITION. What the matrix products share: the auxiliary block and epilogue record (R88, R89, R83 to R85), factors with
codebooks, zero points and K-group scales (R27 to R31), the window (R40, R41), accumulation (R42, R49), the checksum check
and its injection (R65 to R68, R96), and the drain (R43, R44, R48, R72). -/

namespace Sys2Proof.Machine

/-- A field of a record of `n` bytes that the device reads as one number. -/
def fld (x hi lo : Nat) : Nat := bits x hi lo

/-- Whether all the given bit ranges are zero (reserved fields, R16). -/
def zeroAt (x : Nat) (rs : List (Nat × Nat)) : Bool := rs.all (fun r => bits x r.1 r.2 == 0)

/-! ## Auxiliary block (R88) -/

structure Aux where
  gsHi : Int := 0
  gsLo : Int := 0
  cbCount : Nat := 1
  cbFmt : Nat := 3
  csPb : Bool := false
  rsPb : Bool := false
  zpEn : Bool := false
  kg : Nat := 16
  bgFmt : Nat := 12
  agFmt : Nat := 12
  csFmt : Nat := 0
  rsFmt : Nat := 0
  seed : Nat := 0
  epi : Nat := 0
  cbSel : Nat := 0
  cb : Nat := 0
  bg : Nat := 0
  ag : Nat := 0
  cs : Nat := 0
  rs : Nat := 0
deriving DecidableEq, Repr, Inhabited

def auxOf (x : Nat) : Aux :=
  { gsHi := toSigned 8 (fld x 567 560), gsLo := toSigned 8 (fld x 559 552), cbCount := fld x 551 541, cbFmt := fld x 540 536
    csPb := bit x 535, rsPb := bit x 534, zpEn := bit x 533, kg := if bit x 532 then 32 else 16
    bgFmt := fld x 531 527, agFmt := fld x 526 522, csFmt := fld x 521 517, rsFmt := fld x 516 512
    seed := fld x 511 448, epi := fld x 439 384, cbSel := fld x 375 320, cb := fld x 311 256, bg := fld x 247 192
    ag := fld x 183 128, cs := fld x 119 64, rs := fld x 55 0 }

def auxReservedOk (x : Nat) : Bool :=
  zeroAt x [(1023, 576), (575, 568), (447, 440), (383, 376), (319, 312), (255, 248), (191, 184), (127, 120), (63, 56)]

/-! ## Epilogue (R83 to R85, R89) -/

structure Epi where
  knots : List Val := []
  slopes : List Val := []
  y1 : Val := .zero
  postFmt : Nat := 0
  post : Nat := 0
  biasFmt : Nat := 0
  bias : Nat := 0
deriving DecidableEq, Repr, Inhabited

def epiOf (x : Nat) : Epi :=
  let n := fld x 162 160
  { knots := (List.range n).map (fun i => decodeNum fFP32 (fld x (479 + 32 * i) (448 + 32 * i)))
    slopes := if n = 0 then [] else (List.range (n + 1)).map (fun s => decodeNum fFP32 (fld x (223 + 32 * s) (192 + 32 * s)))
    y1 := decodeNum fFP32 (fld x 159 128)
    postFmt := fld x 124 120, post := fld x 119 64, biasFmt := fld x 60 56, bias := fld x 55 0 }

def epiReservedOk (x : Nat) : Bool := zeroAt x [(1023, 672), (191, 163), (127, 125), (63, 61)]

/-- Whether a record passes R85. -/
def epiOk (e : Epi) : Bool :=
  e.knots.isEmpty ||
    (e.knots.all Val.isFinite && e.slopes.all Val.isFinite && e.y1.isFinite &&
      (e.knots.zip e.knots.tail).all (fun p => Val.lt p.1 p.2))

/-- Values at the knots (R84). -/
def knotYs (y : Val) : List Val → List Val → List Val
  | t :: u :: ts, s :: ss => y :: knotYs (toExt (Val.add 0 y (Val.mul s (Val.sub 0 u t)))) (u :: ts) ss
  | _, _ => [y]

/-- The segment of x: slope, knot and value there (R84). -/
def segment (x : Val) (t0 y0 s0 : Val) : List Val → List Val → List Val → Val × Val × Val
  | t :: ts, y :: ys, s :: ss => if Val.le t x then segment x t y s ts ys ss else (s0, t0, y0)
  | _, _, _ => (s0, t0, y0)

/-- f(x) of R84, rounded to the extended form; an infinite x gives the limit of f (R83). -/
def epiF (e : Epi) (x : Val) : Val :=
  match e.knots with
  | [] => toExt x
  | t1 :: _ =>
    let ys := knotYs e.y1 e.knots e.slopes.tail
    match x with
    | .nan => .nan
    | .inf neg =>
      let s := if neg then e.slopes.headD .zero else e.slopes.getLastD .zero
      let y := if neg then e.y1 else ys.getLastD .zero
      if s.isZero then y else Val.mul s (.inf neg)
    | .fin _ _ _ =>
      let g := segment x t1 e.y1 (e.slopes.headD .zero) e.knots ys e.slopes.tail
      toExt (Val.add 0 g.2.2 (Val.mul g.1 (Val.sub 0 x g.2.1)))

/-- Steps 1 to 3 of R83 before the last rounding. -/
def epiApply (e : Epi) (v bias post : Val) : Val :=
  let x := toExt (Val.add 0 v bias)
  Val.mul (epiF e x) post

/-! ## Operand sides -/

/-- The K-group scales of a side (R31, R90). -/
structure Kg where
  addr : Nat
  fmt : Nat
  zp : Bool
  size : Nat
  perBatch : Bool
  rows : Nat
deriving DecidableEq, Repr, Inhabited

/-- One operand of a product: stored rows of `r` (`alongK`) or of k, its format, K-group scales and, for B, codebooks. -/
structure Side where
  base : Nat
  pitch : Nat
  fmt : Nat
  alongK : Bool
  kg : Option Kg := none
  cb : Option (List (List Val)) := none
  cbIdx : List Nat := []
deriving DecidableEq, Repr, Inhabited

/-- An element as it enters a product: its stored code, its value after codebook, zero point and K-group scale. -/
abbrev Elem := Nat × Val

/-- Columns of a matrix given by rows. -/
def transposeN {α : Type} (d : α) (n : Nat) (rows : List (List α)) : List (List α) :=
  (List.range n).map (fun j => rows.map (fun r => r.getD j d))

/-- Stored codes of `n` rows from `r0`, each over `K` values of k from `k0` (R70): one slice of a side. -/
def sideSlice (E : Env) (S : Side) (r0 n k0 K : Nat) : Plan (List (List Nat)) :=
  if S.alongK then (List.range n).mapM (fun j => rdCodes E (S.base + (r0 + j) * S.pitch) S.fmt k0 K)
  else do
    let ks ← (List.range K).mapM (fun k => rdCodes E (S.base + (k0 + k) * S.pitch) S.fmt r0 n)
    pure (transposeN 0 n ks)

/-- The slices of 128 k-values in which an op fetches its operands, each with its first k and its length (R60). -/
def kSlices (K : Nat) : List (Nat × Nat) := (List.range (ceilDiv K 128)).map (fun i => (128 * i, min 128 (K - 128 * i)))

/-- Stored codes of both sides over `K` values of k, slice by slice: a slice of A and then one of B (R60). -/
def sidesCodes (E : Env) (SA SB : Side) (m0 nm n0 nn K : Nat) : Plan (List (List Nat) × List (List Nat)) :=
  (kSlices K).foldlM (fun (acc : List (List Nat) × List (List Nat)) k => do
    let a ← sideSlice E SA m0 nm k.1 k.2
    let b ← sideSlice E SB n0 nn k.1 k.2
    pure (List.zipWith (· ++ ·) acc.1 a, List.zipWith (· ++ ·) acc.2 b)) (List.replicate nm [], List.replicate nn [])

/-- Group entries of one row: scale code and zero point. -/
def kgRow (E : Env) (g : Kg) (i r K : Nat) : Plan (List (Nat × Nat)) := do
  let G := ceilDiv K g.size
  let eb := if g.zp then 2 else 1
  let pitch := roundUp (G * eb) 16
  let set := if g.perBatch then i * roundUp (g.rows * pitch) 16 else 0
  let bs ← rd E (g.addr + set + r * pitch) (G * eb)
  pure ((List.range G).map (fun j => if g.zp then (bs.getD (2 * j) 0, bs.getD (2 * j + 1) 0 % 16) else (bs.getD j 0, 0)))

/-- The value of a group's scale (R31): a negative or NaN scale makes the group NaN. -/
def kgScale (fmt c : Nat) : Val :=
  if fmt = fE8M0 then decodeNum fE8M0 c
  else if c.testBit 7 then .nan else decodeNum fE4M3 c

/-- Whether an E8M0 scale lies outside the op's declared range (R44); 0xFF is a NaN and has no exponent. -/
def kgOutside (A : Aux) (fmt c : Nat) : Bool :=
  fmt = fE8M0 && c != 255 && (decide (((c : Int) - 127) < A.gsLo) || decide (A.gsHi < (c : Int) - 127))

/-- The value of a stored code (R23, R26 to R29). -/
def elemVal (S : Side) (r zp c : Nat) : Val :=
  match S.cb with
  | some books => (books.getD (S.cbIdx.getD r 0) []).getD c .zero
  | none => if S.fmt = fUINT4 then .ofInt ((c : Int) - zp) else decodeNum S.fmt c

/-- Rows of a side as they enter the product, and whether a scale lies outside its range. -/
def sideElems (E : Env) (A : Aux) (S : Side) (i r0 n K : Nat) (codes : List (List Nat)) : Plan (List (List Elem) × Bool) := do
  match S.kg with
  | none => pure ((List.range n).zip codes |>.map (fun p => p.2.map (fun c => (c, elemVal S (r0 + p.1) 0 c))), false)
  | some g => do
    let gs ← (List.range n).mapM (fun j => kgRow E g i (r0 + j) K)
    let rows := ((List.range n).zip (codes.zip gs)).map (fun p =>
      ((List.range K).zip p.2.1).map (fun q =>
        let e := p.2.2.getD (q.1 / g.size) (0, 0)
        (q.2, Val.mul (elemVal S (r0 + p.1) e.2 q.2) (kgScale g.fmt e.1))))
    pure (rows, gs.any (fun row => row.any (fun e => kgOutside A g.fmt e.1)))

/-! ## Accumulation -/

def pathExact (aFmt bFmt : Nat) : Bool := !(aFmt = 1 || aFmt = 2 || bFmt = 1 || bFmt = 2)

/-- One cell after its products: its value, C (exact path), flags (NAN 1, PINF 2, NINF 4), partial code, and whether R48
withholds it. -/
structure Pt where
  v : Val
  c : Int := 0
  flags : Nat := 0
  code : Nat := 0
  bad : Bool := false
deriving DecidableEq, Repr, Inhabited

/-- The exact path (R42, R48). -/
def dotExact (B : Int) (seed : Option Nat) (xs : List (Elem × Elem)) : Pt :=
  let start : Cell × Bool := match seed with
    | none => ({}, false)
    | some c => match Cell.ofFx128 c with
      | some k => (k, false)
      | none => ({}, true)
  let r := xs.foldl (fun (st : Cell × Bool) p =>
    let k := Cell.addProd B st.1 (Val.mul p.1.2 p.2.2)
    (k, st.2 || !k.fits)) start
  { v := r.1.value B, c := r.1.c, flags := b2n r.1.nan + 2 * b2n r.1.pinf + 4 * b2n r.1.ninf, code := r.1.fx128, bad := r.2 }

def valFlags (v : Val) : Nat :=
  match v with
  | .nan => 1
  | .inf false => 2
  | .inf true => 4
  | _ => 0

/-- The extended path (R49, R50). -/
def dotExt (seed : Option Nat) (xs : List (Elem × Elem)) : Pt :=
  let start : Option Val × Bool := match seed with
    | none => (none, false)
    | some c => match extValue c with
      | some v => (some v, false)
      | none => (none, true)
  let r := xs.foldl (fun (a : Option Val) p =>
    let q := Val.mul p.1.2 p.2.2
    match a with
    | none => some (toExt q)
    | some x => some (toExt (Val.add 0 x q))) start.1
  let v := r.getD .zero
  { v := v, flags := valFlags v, code := extCode v, bad := start.2 }

def dot (exact : Bool) (B : Int) (seed : Option Nat) (as bs : List Elem) : Pt :=
  if exact then dotExact B seed (as.zip bs) else dotExt seed (as.zip bs)

/-- One configuration of a product: its path and window, its two sides, and its partials. -/
structure Conf where
  exact : Bool
  B : Int
  a : Side
  b : Side
  acc : Option (Nat × Nat × Bool) := none
deriving DecidableEq, Repr, Inhabited

/-- The cells of an area of the output after their products, the elements they came from, the values of C that partials
seeded, and whether R44 withholds it. -/
structure Area where
  pts : List (List Pt)
  as : List (List Elem)
  bs : List (List Elem)
  seeds : List (List Int) := []
  outside : Bool
deriving DecidableEq, Repr, Inhabited

/-- Partials of an area (R45, R50, R70): base, pitch and whether stored by columns. -/
def rdPartials (E : Env) (acc : Nat × Nat × Bool) (m0 nm n0 nn : Nat) : Plan (List (List Nat)) :=
  if acc.2.2 then do
    let cols ← (List.range nn).mapM (fun j => rdCodes E (acc.1 + (n0 + j) * acc.2.1) fFX128 m0 nm)
    pure (transposeN 0 nm cols)
  else (List.range nm).mapM (fun j => rdCodes E (acc.1 + (m0 + j) * acc.2.1) fFX128 n0 nn)

/-- The C that an FX128 partial seeds (R45, R46); a malformed one seeds nothing. -/
def seedC (c : Nat) : Int :=
  match Cell.ofFx128 c with
  | some k => k.c
  | none => 0

/-- Runs rows `m0 … m0 + nm - 1` by columns `n0 … n0 + nn - 1` of batch iteration `i` (R60, R63, R74, R76). -/
def runArea (E : Env) (A : Aux) (C : Conf) (i m0 nm n0 nn K : Nat) : Plan Area := do
  let codes ← sidesCodes E C.a C.b m0 nm n0 nn K
  let x ← sideElems E A C.a i m0 nm K codes.1
  let y ← sideElems E A C.b i n0 nn K codes.2
  let ps ← match C.acc with
    | none => pure []
    | some acc => rdPartials E acc m0 nm n0 nn
  let seeds : List (List (Option Nat)) := if C.acc.isNone then List.replicate nm (List.replicate nn none) else ps.map (fun r => r.map some)
  let pts := (x.1.zip seeds).map (fun p => (y.1.zip p.2).map (fun q => dot C.exact C.B q.2 p.1 q.1))
  pure { pts := pts, as := x.1, bs := y.1, seeds := if C.exact then ps.map (fun r => r.map seedC) else []
         outside := C.exact && (x.2 || y.2) }

/-! ## Checksum lanes, their check and injection (R65 to R68, R95, R96) -/

/-- One plane after its last beat, in units of 2^B: C of its logical cells by rows, and its checksum row, checksum column and
corner cell (R65). -/
structure CksPlane where
  cells : List (List Int)
  row : List Int
  col : List Int
  corner : Int
deriving DecidableEq, Repr, Inhabited

/-- What an element adds to a checksum. An infinity or a NaN sets flags of the cells and leaves C alone, so it counts as zero
(log 26). -/
def cksElem (v : Val) : Val := if v.isFinite then v else .zero

/-- α_k or β_k of R65: for each k the exact sum of a side's elements. -/
def cksSums (K : Nat) (rows : List (List Val)) : List Val :=
  rows.foldl (List.zipWith (Val.add 0)) (List.replicate K .zero)

/-- What a checksum cell accumulates over k, in units of 2^B. -/
def cksDot (B : Int) (xs ys : List Val) : Int := ((xs.zip ys).map (fun p => (Val.mul p.1 p.2).scaled B)).sum

/-- Column sums of a matrix given by rows, over `n` columns. -/
def colSums (n : Nat) (rows : List (List Int)) : List Int :=
  rows.foldl (fun acc r => (List.range n).map (fun j => acc.getD j 0 + r.getD j 0)) (List.replicate n 0)

/-- The cells of a plane and its checksum lanes, from what its elements add (`cksElem`), its logical cells and its seeds
(R65). -/
def cksPlane (B : Int) (as bs : List (List Val)) (cells seeds : List (List Int)) : CksPlane :=
  let K := (as.headD []).length
  let alpha := cksSums K as
  let beta := cksSums K bs
  { cells := cells
    row := List.zipWith (· + ·) (bs.map (cksDot B alpha)) (colSums bs.length seeds)
    col := (as.zip (List.range as.length)).map (fun p => cksDot B p.1 beta + (seeds.getD p.2 []).sum)
    corner := cksDot B alpha beta + (seeds.map List.sum).sum }

/-- The planes of a tile in row-major order, each with its number; `wide` planes lie side by side in a tile (R62, R77). -/
def areaPlanes (B : Int) (wide : Nat) (a : Area) : List (Nat × CksPlane) :=
  (List.range (ceilDiv a.as.length 128)).flatMap (fun p => (List.range (ceilDiv a.bs.length 128)).map (fun q =>
    let sub := fun (m : List (List Int)) => ((m.drop (128 * p)).take 128).map (fun r => (r.drop (128 * q)).take 128)
    let vals := fun (rows : List (List Elem)) (k : Nat) => ((rows.drop (128 * k)).take 128).map (fun r => r.map (fun e => cksElem e.2))
    (p * wide + q, cksPlane B (vals a.as p) (vals a.bs q)
      (sub (a.pts.map (fun r => r.map (·.c)))) (sub a.seeds))))

/-- The planes of an unseeded product of `as` rows by `bs` columns, 128 columns to a plane (R138, R141). -/
def productPlanes (B : Int) (as bs : List (List Val)) : List CksPlane :=
  let clean := fun (m : List (List Val)) => m.map (fun r => r.map cksElem)
  (List.range (ceilDiv bs.length 128)).map (fun q =>
    let b := clean ((bs.drop (128 * q)).take 128)
    cksPlane B (clean as) b ((clean as).map (fun r => b.map (cksDot B r))) [])

/-- Planes of cells that gather the products of many chunks: their sums are those that R65's algebra gives (log 26). -/
def gatheredPlanes (B : Int) (rows : List (List Val)) : List CksPlane :=
  let n := (rows.headD []).length
  (List.range (ceilDiv rows.length 128)).flatMap (fun p => (List.range (ceilDiv n 128)).map (fun q =>
    let cells := ((rows.drop (128 * p)).take 128).map (fun r => ((r.drop (128 * q)).take 128).map (fun v => (cksElem v).scaled B))
    { cells := cells, row := colSums (min 128 (n - 128 * q)) cells, col := cells.map List.sum, corner := (cells.map List.sum).sum }))

/-- Bit 0 inverted (R96). -/
def flipBit0 (x : Int) : Int := if x % 2 = 0 then x + 1 else x - 1

/-- A list with one element changed; what stands beyond its end is the default. -/
def modifyAt {α : Type} (d : α) (f : α → α) (i : Nat) (l : List α) : List α :=
  (l ++ List.replicate (i + 1 - l.length) d).modify i f

/-- The inversion of R96 in cell (`r`, `c`) of a plane, where 128 names the checksum row or column. -/
def CksPlane.inject (P : CksPlane) (r c : Nat) : CksPlane :=
  if r = 128 ∧ c = 128 then { P with corner := flipBit0 P.corner }
  else if r = 128 then { P with row := modifyAt 0 flipBit0 c P.row }
  else if c = 128 then { P with col := modifyAt 0 flipBit0 r P.col }
  else { P with cells := modifyAt [] (modifyAt 0 flipBit0 c) r P.cells }

/-- The comparisons of R66: columns and rows whose sums disagree, and whether the corner does. -/
def CksPlane.disagree (P : CksPlane) : List Nat × List Nat × Bool :=
  let n := (P.cells.map List.length).foldl max P.row.length
  let m := max P.cells.length P.col.length
  let cs := colSums n P.cells
  ((List.range n).filter (fun j => cs.getD j 0 != P.row.getD j 0),
   (List.range m).filter (fun i => (P.cells.getD i []).sum != P.col.getD i 0),
   (P.cells.map List.sum).sum != P.corner)

/-- Where a disagreement lies (R66): `KIND`, `ROW` and `COL`; none where all sums agree. A cell that is wrong makes the corner
disagree as well, so the first pattern is taken with and without the corner. -/
def CksPlane.miss (P : CksPlane) : Option (Nat × Nat × Nat) :=
  match P.disagree with
  | ([], [], false) => none
  | ([j], [i], _) => some (1, i, j)
  | ([j], [], false) => some (2, 128, j)
  | ([], [i], false) => some (2, i, 128)
  | ([], [], true) => some (2, 128, 128)
  | _ => some (3, 0xFF, 0xFF)

/-- `CKS_LAST_LOC` (R95). -/
def cksLoc (bay arr ctx plane : Nat) (m : Nat × Nat × Nat) : Nat :=
  m.1 * 2 ^ 48 + bay * 2 ^ 41 + arr * 2 ^ 40 + plane * 2 ^ 36 + m.2.1 * 2 ^ 28 + m.2.2 * 2 ^ 20 + ctx * 2 ^ 12

def cksMiss (E : Env) (loc : Nat) : Plan Unit := do
  Plan.count kCksMissCount 1
  Plan.note 2 loc
  Plan.event { source := 0x9010, code := 0x0306, sev := 1, ctx := E.ctx, data := dataAt 576 loc }

/-- Whether an injection is armed for an array, and no earlier tile of the op has taken it (R96). -/
def injectArmed (E : Env) (bay arr : Nat) (e : Eff) : Bool :=
  let inj := objGet E.d kCksInject
  bit inj 31 && bits inj 30 24 == bay && bits inj 23 23 == arr && !e.notes.any (fun n => n.1 = 1)

/-- The check of a tile's active planes (R66), the lowest of them after the inversion of R96 where there is one: the location
of its first disagreement. -/
def cksCheck (E : Env) (bay arr : Nat) (inject : Bool) (ps : List (Nat × CksPlane)) : Option Nat :=
  let inj := objGet E.d kCksInject
  let seen := match ps with
    | p :: rest => if inject then (p.1, p.2.inject (bits inj 22 15) (bits inj 14 7)) :: rest else ps
    | [] => []
  (seen.findSome? (fun p => p.2.miss.map (fun m => cksLoc bay arr E.ctx p.1 m)))

/-- The check of an exact-path tile before any of it is written (R66 to R68): one that misses is run once more, and a second
miss is a hardware fault. `planes` gives the tile's active planes, and `counted` says whether what is checked is a tile of
R94. -/
def cksTile2 {α : Type} (E : Env) (exact counted : Bool) (bay arr : Nat) (planes : α → List (Nat × CksPlane))
    (run rerun : Plan α) : Plan α := do
  let r ← run
  if !exact then pure r
  else
    let armed := injectArmed E bay arr (← get)
    if armed then Plan.note 1 0
    match cksCheck E bay arr armed (planes r) with
    | none => do
      Plan.count kCksTilesChecked (b2n counted)
      pure r
    | some loc => do
      cksMiss E loc
      let r2 ← rerun
      match cksCheck E bay arr (armed && bit (objGet E.d kCksInject) 6) (planes r2) with
      | some loc2 => do
        cksMiss E loc2
        Plan.count kCksFaultCount 1
        Plan.hardware 1 0x9010 loc2
      | none => do
        Plan.count kCksRerunOkCount 1
        Plan.count kCksTilesChecked (b2n counted)
        Plan.code 0x0306
        pure r2

/-- A tile of areas whose re-run repeats the run, from re-read operands (R67); `wide` planes lie side by side in it, and
`plane` is the number of its lowest. -/
def cksTile (E : Env) (exact : Bool) (bay arr plane wide : Nat) (B : Int) (run : Plan Area) : Plan Area :=
  cksTile2 E exact true bay arr (fun a => (areaPlanes B wide a).map (fun p => (plane + p.1, p.2))) run run

/-! ## Scales and drain -/

/-- Scale vector elements `r0 … r0 + n - 1` (R30, R90); an absent vector is all ones. -/
def rdScales (E : Env) (addr fmt i total : Nat) (perBatch : Bool) (r0 n : Nat) : Plan (List Val) :=
  if addr = 0 then pure (List.replicate n .one)
  else
    let set := if perBatch then i * roundUp (total * (fmtBits fmt / 8)) 16 else 0
    rdVals E (addr + set) fmt r0 n

/-- A write of several rows that comes about wholly or, where a row meets a fault, not at all, with what it counts (R92). -/
def allOrNone (p : Plan Unit) : Plan Unit := do
  let before ← get
  tryCatch p (fun c => do
    set before
    Plan.stop c)

/-- The byte of memory at an address as the op found it; a page that does not translate stops the write itself. -/
def byteNow (E : Env) (va : Nat) : Nat :=
  match translate E (va % 2 ^ 56) 1 false with
  | .ok p => (runBytes E.d p 1).headD 0
  | .error _ => 0

/-- Pieces of a packed row that hold whole bytes: the codes of a byte that several share, or one code of whole bytes. -/
def codePieces {α : Type} (per : Nat) : Nat → List α → List (List α)
  | 0, _ => []
  | f + 1, cs => if cs.isEmpty then [] else cs.take per :: codePieces per f (cs.drop per)

/-- The bytes of one piece at an address, none where all of it is withheld; a withheld code that shares a byte with one that is
written keeps what memory holds (R76). -/
def pieceBytes (E : Env) (fmt va : Nat) (p : List (Option Nat)) : Option (List Nat) :=
  if p.all Option.isNone then none
  else if p.all Option.isSome then some (packRow fmt (p.map (·.getD 0)))
  else
    let old := unpackFrom fmt 0 p.length [byteNow E va]
    some (packRow fmt ((p.zip old).map (fun q => q.1.getD q.2)))

/-- Writes the runs of consecutive bytes that are to be written. -/
def wrPieces (E : Env) : Nat → List (Nat × Option (List Nat)) → List Nat → Plan Unit
  | va, [], acc => if acc.isEmpty then pure () else wr E va acc
  | va, (n, none) :: ps, acc => do
    if !acc.isEmpty then wr E va acc
    wrPieces E (va + acc.length + n) ps []
  | va, (_, some bs) :: ps, acc => wrPieces E va ps (acc ++ bs)

/-- Writes a row in which some elements are withheld; they keep what memory holds. `c0` lies on a byte boundary. -/
def wrMasked (E : Env) (row fmt c0 : Nat) (codes : List (Option Nat)) : Plan Unit :=
  if codes.all Option.isSome then wrCodes E row fmt c0 (codes.map (·.getD 0))
  else
    let w := fmtBits fmt
    let per := max 1 (8 / w)
    let size := max 1 (w / 8)
    let at_ := row + c0 * w / 8
    let ps := codePieces per codes.length codes
    wrPieces E at_ (((List.range ps.length).zip ps).map (fun p => (size, pieceBytes E fmt (at_ + p.1 * size) p.2))) []

/-- Writes an area of output codes at rows `m0` and columns `n0` under `C_T` (R70, R72); `total` is the number of elements of a
stored row. Elements of the row past the area keep what memory holds, also within a byte that it shares (R22, R76). -/
def wrArea (E : Env) (base pitch fmt : Nat) (cT : Bool) (total m0 n0 nn : Nat) (codes : List (List (Option Nat))) : Plan Unit :=
  let line := fun (row c0 : Nat) (cs : List (Option Nat)) =>
    wrMasked E row fmt c0 (if c0 + cs.length < total ∧ (c0 + cs.length) * fmtBits fmt % 8 ≠ 0 then cs ++ [none] else cs)
  allOrNone (
    if cT then
      ((List.range nn).zip (transposeN none nn codes)).forM (fun p => line (base + (n0 + p.1) * pitch) m0 p.2)
    else
      ((List.range codes.length).zip codes).forM (fun p => line (base + (m0 + p.1) * pitch) n0 p.2))

/-- k-steps of R61: r values of k per beat. -/
def rankOf (aFmt bFmt : Nat) : Nat :=
  if !pathExact aFmt bFmt then 1 else if max (fmtBits aFmt) (fmtBits bFmt) = 8 then 2 else 4

/-- Accounts array beats to the op's context and its bay (R376, R643). -/
def arrayBeats (E : Env) (bay n : Nat) : Plan Unit := do
  Plan.count (objKey E.ctx kAcctArrayBeats) n
  Plan.count (objKey bay kBayBeats) n

/-- Vector and function beats (R376). -/
def vectorBeats (E : Env) (n : Nat) : Plan Unit := Plan.count (objKey E.ctx kAcctVectorBeats) n

/-- Tile edge of a code (R73). -/
def tileEdge (v : Nat) : Nat := 128 * (v + 1)

/-- Starts of the tiles or blocks of an extent. -/
def starts (total step : Nat) : List Nat := (List.range (ceilDiv total step)).map (· * step)

/-- Window base and span (R40, R41). -/
def windowOf (factors : List (Int × Int)) (kTotal : Nat) : Int × Int :=
  let lo := (factors.map (·.1)).sum
  let hi := (factors.map (·.2)).sum
  (lo, hi + clog2 kTotal - lo)

def factorOf (fmt : Nat) : Int × Int := (factorLo fmt, factorHi fmt)

/-- The factor of a side's K-group scales, if it has them. -/
def kgFactor (A : Aux) (addr fmt : Nat) : List (Int × Int) :=
  if addr = 0 then [] else if fmt = fE8M0 then [(A.gsLo, A.gsHi)] else [(-9, 9)]

/-- Whether two byte regions meet (R91). -/
def overlaps (a b : Nat × Nat) : Bool := decide (a.1 < b.2) && decide (b.1 < a.2) && decide (a.1 < a.2) && decide (b.1 < b.2)

end Sys2Proof.Machine
end

