-- ==== Sys2Proof/Machine/Drain.lean ====
section
/-! DEFINITION. Drain of a tile and widening of its blocks (R43, R83, R222 to R236): values before output rounding, trouble
detectors, shadow probes, reference mode. -/

namespace Sys2Proof.Machine

/-- How a product's results leave the array: output region and layout, rounding, epilogue, scales, partial output. -/
structure DrainCfg where
  base : Nat
  pitch : Nat
  fmt : Nat
  cT : Bool
  R : Rnd
  accOut : Bool := false
  epi : Option Epi := none
  rs : Nat := 0
  rsFmt : Nat := 0
  rsPb : Bool := false
  cs : Nat := 0
  csFmt : Nat := 0
  csPb : Bool := false
  mTotal : Nat
  nTotal : Nat
  idxBase : Nat
deriving DecidableEq, Repr, Inhabited

/-- The value that the drain rounds (R43, R83): the cell's value times both scales, through the epilogue where there is
one. -/
def preVal (D : DrainCfg) (p : Pt) (rs cs bias post : Val) : Val :=
  let v := if p.flags.testBit 0 || (p.flags.testBit 1 && p.flags.testBit 2) then .nan else Val.mul (Val.mul p.v rs) cs
  match D.epi with
  | none => v
  | some e => if p.flags = 0 then epiApply e v bias post else Val.mul (epiF e v) post

/-- One element ready to be written: its cell, the value before rounding and its conversion. -/
structure Cand where
  pt : Pt
  pre : Val
  enc : Enc
deriving DecidableEq, Repr, Inhabited

/-- The elements of an area after scales, epilogue and output rounding (R43, R82, R83); `rows` are the numbers of its rows. -/
def candsAt (E : Env) (D : DrainCfg) (i : Nat) (rows : List Nat) (n0 : Nat) (pts : List (List Pt)) :
    Plan (List (List Cand)) := do
  let nm := pts.length
  let nn := (pts.headD []).length
  let rs ← rdScales E D.rs D.rsFmt i D.mTotal D.rsPb (rows.headD 0) nm
  let cs ← rdScales E D.cs D.csFmt i D.nTotal D.csPb n0 nn
  let bias ← match D.epi with
    | none => pure (List.replicate nn Val.zero)
    | some e => if e.bias = 0 then pure (List.replicate nn Val.zero) else rdVals E e.bias e.biasFmt n0 nn
  let post ← match D.epi with
    | none => pure (List.replicate nn Val.one)
    | some e => if e.post = 0 then pure (List.replicate nn Val.one) else rdVals E e.post e.postFmt n0 nn
  pure ((rows.zip (pts.zip rs)).map (fun p =>
    ((List.range nn).zip (p.2.1.zip (cs.zip (bias.zip post)))).map (fun q =>
      let pre := preVal D q.2.1 p.2.2 q.2.2.1 q.2.2.2.1 q.2.2.2.2
      let idx := D.idxBase + p.1 * D.nTotal + (n0 + q.1)
      { pt := q.2.1, pre := pre
        enc := if D.accOut then { code := q.2.1.code } else encodeNum D.fmt D.R idx pre })))

def cands (E : Env) (D : DrainCfg) (i m0 n0 : Nat) (pts : List (List Pt)) : Plan (List (List Cand)) :=
  candsAt E D i ((List.range pts.length).map (m0 + ·)) n0 pts

/-- The codes that an area writes, with the events of its conversions counted; withheld channels are left out (R28). -/
def areaCodes (n0 : Nat) (bad : List Nat) (cs : List (List Cand)) : Plan (List (List (Option Nat))) :=
  cs.mapM (fun row => ((List.range row.length).zip row).mapM (fun q =>
    if bad.contains (n0 + q.1) then pure none else do pure (some (← emit q.2.enc))))

/-! ## Detectors and probes -/

/-- What a widening layer record says (R218). -/
structure WidRec where
  wa : Nat
  wb : Nat
  waPitch : Nat
  wbPitch : Nat
  seed : Nat
  satIn : Nat
  satOut : Nat
  layerBlocks : Nat
  flushExp : Nat
  probeExp : Nat
  probeLog2 : Nat
  probeEn : Bool
  refEn : Bool
  refOut : Bool
  pin : Nat
  waT : Bool
  wbT : Bool
  waFmt : Nat
  wbFmt : Nat
  refBucket : Nat
  refAddr : Nat
deriving DecidableEq, Repr, Inhabited

def widRecOf (x : Nat) : WidRec :=
  { wa := fld x 503 448, wb := fld x 439 384, waPitch := fld x 383 352, wbPitch := fld x 351 320, seed := fld x 319 288
    satIn := fld x 287 272, satOut := fld x 271 256, layerBlocks := fld x 255 240, flushExp := fld x 239 232
    probeExp := fld x 231 224, probeLog2 := fld x 223 220, probeEn := bit x 219, refEn := bit x 218, refOut := bit x 217
    pin := fld x 216 215, waT := bit x 214, wbT := bit x 213, waFmt := fld x 212 208, wbFmt := fld x 207 203
    refBucket := fld x 187 184, refAddr := fld x 183 128 }

def widReservedOk (x : Nat) : Bool := zeroAt x [(511, 504), (447, 440), (202, 188)]

/-- Largest-magnitude codes (R223). -/
def isSatCode (fmt c : Nat) : Bool :=
  match fmt with
  | 3 => c = 0x7E || c = 0xFE
  | 4 => c = 0x7B || c = 0xFB
  | 5 => c = 7 || c = 15
  | 6 => c = 0x80 || c = 0x7F
  | 7 => c = 8 || c = 7
  | 8 => c = 0 || c = 15
  | _ => false

def satCount (S : Side) (rows : List (List Elem)) : Nat :=
  if S.cb.isSome then 0 else (rows.map (fun r => (r.filter (fun e => isSatCode S.fmt e.1)).length)).sum

/-- Sum of magnitudes of finite values (R223). -/
def sumAbs (vs : List Val) : Val := vs.foldl (fun a v => if v.isFinite then Val.add 0 a v.abs else a) .zero

/-- Whether the code a format writes is a zero. -/
def isZeroCode (fmt c : Nat) : Bool := (decodeNum fmt c).isZero

/-- Whether a block is in trouble (R223). -/
def inTrouble (W : WidRec) (C : Conf) (fmt : Nat) (as bs : List (List Elem)) (cs : List Cand) : Bool :=
  let sat := satCount C.a as + satCount C.b bs
  let ovf := (cs.filter (fun c => c.enc.ovf)).length
  let live := cs.filter (fun c => c.pt.flags = 0)
  let flushed := live.filter (fun c => !c.pre.isZero && isZeroCode fmt c.enc.code)
  (W.satIn != 0xFFFF && decide (W.satIn < sat)) || (W.satOut != 0xFFFF && decide (W.satOut < ovf)) ||
    (W.flushExp != 0 &&
      Val.lt (Val.mul (sumAbs (live.map (·.pre))) (.fin false 1 (-(W.flushExp : Int)))) (sumAbs (flushed.map (·.pre))))

/-- mix64 of R204. -/
def mix64 (x0 : Nat) : Nat :=
  let x := ((x0 ^^^ (x0 >>> 30)) * 0xBF58476D1CE4E5B9) % 2 ^ 64
  let x := ((x ^^^ (x >>> 27)) * 0x94D049BB133111EB) % 2 ^ 64
  x ^^^ (x >>> 31)

/-- Whether block β is probed (R225). -/
def probed (W : WidRec) (beta : Nat) : Bool :=
  W.probeEn && decide (mix64 ((W.seed + beta * 0x9E3779B97F4A7C15) % 2 ^ 64) % 2 ^ W.probeLog2 = 0)

def maxAbs (vs : List Val) : Val := vs.foldl (fun a v => if v.isFinite && Val.lt a v.abs then v.abs else a) .zero

/-- Whether a probe fails (R225): the flags differ, or the greatest difference exceeds its share of the greatest value. -/
def probeFails (W : WidRec) (ns ws : List Cand) : Bool :=
  let ps := ns.zip ws
  ps.any (fun p => p.1.pt.flags != p.2.pt.flags || (valFlags p.1.pre != valFlags p.2.pre)) ||
    Val.lt (Val.mul (maxAbs (ws.map (·.pre))) (.fin false 1 (-(W.probeExp : Int))))
      (maxAbs (ps.map (fun p => if p.1.pre.isFinite && p.2.pre.isFinite then Val.sub 0 p.1.pre p.2.pre else .zero)))

/-! ## Reference mode (R234 to R236) -/

/-- The spacing of a format at |y| (R235). -/
def unitAt (fmt : Nat) (y : Val) : Val :=
  if !isFloat fmt then .one
  else
    let F := floatFmt fmt
    let qmin : Int := 1 - (F.bias : Int) - F.mbits
    match y with
    | .fin _ m e => if m = 0 then .fin false 1 qmin else .fin false 1 (max ((Nat.log2 m : Int) + e - F.mbits) qmin)
    | _ => .fin false 1 qmin

/-- Bucket of an element (R235) and its finite difference. -/
def bucketOf (fmt : Nat) (yn yw : Val) : Nat × Option Val :=
  match yn, yw with
  | .nan, .nan => (0, none)
  | .nan, _ => (8, none)
  | _, .nan => (8, none)
  | .inf a, .inf b => (if a = b then 0 else 8, none)
  | .inf _, _ => (8, none)
  | _, .inf _ => (8, none)
  | _, _ =>
    let d := (Val.sub 0 yn yw).abs
    let u := unitAt fmt yw
    let atLeast := fun (k : Nat) => Val.le (Val.mul (.ofNat k) u) d
    let b := if d.isZero then 0
      else if !Val.lt u d then 1
      else if atLeast 128 then 8 else if atLeast 64 then 7 else if atLeast 32 then 6 else if atLeast 16 then 5
      else if atLeast 8 then 4 else if atLeast 4 then 3 else 2
    (b, some d)

/-- Statistics of a reference run (R236). -/
structure RefStats where
  hist : List Nat := List.replicate 9 0
  elems : Nat := 0
  blocks : Nat := 0
  wide : Val := .zero
  diff : Val := .zero
deriving DecidableEq, Repr, Inhabited

def refAdd (fmt : Nat) (st : RefStats) (n w : Cand) : RefStats :=
  let yn := decodeNum fmt n.enc.code
  let yw := decodeNum fmt w.enc.code
  let b := bucketOf fmt yn yw
  { st with
    hist := st.hist.set b.1 (st.hist.getD b.1 0 + 1)
    elems := st.elems + 1
    wide := if yw.isFinite && Val.lt st.wide yw.abs then yw.abs else st.wide
    diff := match b.2 with
      | some d => if b.1 ≠ 0 ∧ Val.lt st.diff d then d else st.diff
      | none => st.diff }

/-- The record of R236. -/
def refRecord (st : RefStats) : Nat :=
  (encodeNum fFP32 {} 0 st.wide).code * 2 ^ 832 + (encodeNum fFP32 { rnd := 3 } 0 st.diff).code * 2 ^ 800 +
    packNat 64 st.hist * 2 ^ 224 + st.elems * 2 ^ 128 + st.blocks * 2 ^ 64

/-! ## Modes of an op under widening (R226, R228, R230, R234) -/

/-- How an MMA runs: its main configuration, whether detectors act or only count, whether probes run, reference mode. -/
structure WidMode where
  wide : Bool := false
  act : Bool := false
  countOnly : Bool := false
  probe : Bool := false
  ref : Bool := false
deriving DecidableEq, Repr, Inhabited

def widMode (W : WidRec) (partials layerWide stepWide storm : Bool) : WidMode :=
  if W.refEn then { ref := true }
  else if W.pin = 2 then { wide := true }
  else if W.pin = 1 then { countOnly := true, probe := !partials }
  else if partials then { wide := stepWide, countOnly := !stepWide }
  else if storm then { wide := true, countOnly := true }
  else if layerWide then { wide := true, probe := true }
  else { act := true, probe := true }

end Sys2Proof.Machine
end

