-- ==== Sys2Proof/Machine/Mma.lean ====
section
/-! DEFINITION. MMA (R57 to R93): the descriptor, its checks at issue, its tiles, and widening at its drain. -/

namespace Sys2Proof.Machine

/-- One outer batch loop: count and strides of A, B and C in stored rows (R79, R80). -/
structure Loop where
  count : Nat
  a : Nat
  b : Nat
  c : Nat
deriving DecidableEq, Repr, Inhabited

/-- The MMA descriptor (R87). -/
structure MmaDesc where
  l0 : Loop
  l1 : Loop
  l2 : Loop
  srTag : Nat
  accFmt : Nat
  arrSel : Nat
  epiEn : Bool
  accOut : Bool
  ovf : Nat
  rnd : Nat
  cT : Bool
  bT : Bool
  aT : Bool
  cFmt : Nat
  bFmt : Nat
  aFmt : Nat
  accPitch : Nat
  cPitch : Nat
  bPitch : Nat
  aPitch : Nat
  tileK : Nat
  tileN : Nat
  tileM : Nat
  n : Nat
  m : Nat
  kTotal : Nat
  k : Nat
  len : Nat
  aux : Nat
  accIn : Nat
  c : Nat
  b : Nat
  a : Nat
deriving DecidableEq, Repr, Inhabited

def loopAt (x hi : Nat) : Loop :=
  { count := max 1 (fld x hi (hi - 15)), a := fld x (hi - 16) (hi - 31), b := fld x (hi - 32) (hi - 47), c := fld x (hi - 48) (hi - 63) }

def mmaDesc (x : Nat) : MmaDesc :=
  { l2 := loopAt x 1023, l1 := loopAt x 959, l0 := loopAt x 895
    srTag := fld x 831 800, accFmt := fld x 798 794, arrSel := fld x 793 792, epiEn := bit x 791, accOut := bit x 790
    ovf := fld x 789 789, rnd := fld x 788 786, cT := bit x 785, bT := bit x 784, aT := bit x 783
    cFmt := fld x 782 778, bFmt := fld x 777 773, aFmt := fld x 772 768
    accPitch := fld x 767 736, cPitch := fld x 735 704, bPitch := fld x 703 672, aPitch := fld x 671 640
    tileK := fld x 633 628, tileN := fld x 627 626, tileM := fld x 625 624, n := fld x 623 600, m := fld x 599 576
    kTotal := fld x 574 544, k := fld x 542 512, len := fld x 503 448, aux := fld x 439 384, accIn := fld x 375 320
    c := fld x 311 256, b := fld x 247 192, a := fld x 183 128 }

def mmaReservedOk (x : Nat) : Bool :=
  zeroAt x [(799, 799), (639, 634), (575, 575), (543, 543), (511, 504), (447, 440), (383, 376), (319, 312), (255, 248), (191, 184)]

def MmaDesc.batches (d : MmaDesc) : Nat := d.l0.count * d.l1.count * d.l2.count

/-- Row offset of a tensor in iteration i (R79, R80). -/
def MmaDesc.rowsAt (d : MmaDesc) (sel : Loop → Nat) (i : Nat) : Nat :=
  (i % d.l0.count) * sel d.l0 + (i / d.l0.count % d.l1.count) * sel d.l1 + (i / (d.l0.count * d.l1.count)) * sel d.l2

def MmaDesc.exact (d : MmaDesc) : Bool := pathExact d.aFmt d.bFmt

def isCb (f : Nat) : Bool := f = fCB2 || f = fCB4

/-- Formats that an array takes as an operand (R20). -/
def arrayOperand (f : Nat) : Bool := decide (1 ≤ f) && decide (f ≤ 10)

/-- Formats that an array writes (R20), partials aside. -/
def arrayOutput (f : Nat) : Bool := decide (f ≤ 7) || f = fINT32

def MmaDesc.partialFmt (d : MmaDesc) : Nat := if d.exact then fFX128 else fEXT128

/-- The 0x0131 causes of R91, R20, R33 and R47. -/
def mmaFormatsOk (d : MmaDesc) (A : Aux) (e : Epi) : Bool :=
  arrayOperand d.aFmt && !isCb d.aFmt && arrayOperand d.bFmt && d.arrSel != 3 && decide (d.rnd ≤ 5) &&
  !(d.epiEn && d.accOut) &&
  (if d.accOut then d.cFmt == d.partialFmt else arrayOutput d.cFmt) &&
  (d.accIn == 0 || d.accFmt == d.partialFmt) &&
  !(d.accOut && (A.rs != 0 || A.cs != 0)) &&
  (!A.zpEn || (A.ag != 0 && (d.aFmt == fINT4 || d.aFmt == fUINT4)) || (A.bg != 0 && (d.bFmt == fINT4 || d.bFmt == fUINT4))) &&
  (A.rs == 0 || A.rsFmt == fFP32 || A.rsFmt == fE8M0) && (A.cs == 0 || A.csFmt == fFP32 || A.csFmt == fE8M0) &&
  (A.ag == 0 || A.agFmt == fE8M0 || A.agFmt == fE4M3) && (A.bg == 0 || A.bgFmt == fE8M0 || A.bgFmt == fE4M3) &&
  (!isCb d.bFmt || (A.cbCount != 0 && decide (A.cbCount ≤ 1024) && (A.cbFmt == fE4M3 || A.cbFmt == fINT8))) &&
  (!d.epiEn || ((e.post == 0 || e.postFmt == fFP32 || e.postFmt == fE8M0) && (e.bias == 0 || decide (e.biasFmt ≤ 2))))

/-- Factors of a product (R40). -/
def mmaFactors (d : MmaDesc) (A : Aux) : List (Int × Int) :=
  [factorOf d.aFmt, factorOf (if isCb d.bFmt then A.cbFmt else d.bFmt)] ++ kgFactor A A.ag A.agFmt ++ kgFactor A A.bg A.bgFmt

/-- The window passes R41. -/
def windowOk (exact : Bool) (A : Aux) (fs : List (Int × Int)) (kTotal : Nat) : Bool :=
  !exact || (decide ((windowOf fs kTotal).2 ≤ 94) && decide (A.gsLo ≤ A.gsHi))

def aligned (a n : Nat) : Bool := a % n == 0

/-- Stored rows and elements per row of a tensor of `r` by `c`, under its transpose field (R70). -/
def stored (t : Bool) (r c : Nat) : Nat × Nat := if t then (c, r) else (r, c)

def pitchOk (pitch fmt elems : Nat) : Bool := aligned pitch 16 && decide (rowBytes fmt elems ≤ pitch)

/-- 0x0141 of R91. -/
def mmaAlignOk (d : MmaDesc) (A : Aux) (e : Epi) : Bool :=
  [d.a, d.b, d.c, d.accIn, A.rs, A.cs, A.ag, A.bg, A.cb, A.cbSel].all (aligned · 16) &&
  (!d.epiEn || (aligned e.bias 16 && aligned e.post 16)) && aligned d.len 4 &&
  pitchOk d.aPitch d.aFmt (stored d.aT d.m d.k).2 && pitchOk d.bPitch d.bFmt (stored (!d.bT) d.n d.k).2 &&
  pitchOk d.cPitch d.cFmt (stored d.cT d.m d.n).2 && (d.accIn == 0 || pitchOk d.accPitch d.accFmt (stored d.cT d.m d.n).2)

/-- R81: C strides, from the inside out. -/
def cStridesOk : List Loop → Nat → Bool
  | [], _ => true
  | l :: ls, ext =>
    if l.count ≤ 1 then cStridesOk ls ext
    else decide (ext ≤ l.c) && cStridesOk ls (l.c * (l.count - 1) + ext)

/-- The byte region of a tensor over all batch iterations (R91). -/
def tensorRegion (d : MmaDesc) (sel : Loop → Nat) (base pitch fmt rows elems : Nat) : Nat × Nat :=
  let last := (d.l0.count - 1) * sel d.l0 + (d.l1.count - 1) * sel d.l1 + (d.l2.count - 1) * sel d.l2
  if rows = 0 ∨ elems = 0 then (base, base) else (base, base + (last + rows - 1) * pitch + rowBytes fmt elems)

/-- The region of a scale vector or K-group tensor, with its sets. -/
def setRegion (addr set sets : Nat) : Nat × Nat :=
  if addr = 0 then (0, 0) else (addr, addr + (sets - 1) * roundUp set 16 + set)

def kgSet (A : Aux) (rows k : Nat) : Nat := rows * roundUp (ceilDiv k A.kg * (if A.zpEn then 2 else 1)) 16

/-- 0x0145 of R91: the region of C meets no region the op reads, but for partials in place. -/
def mmaOverlapOk (d : MmaDesc) (A : Aux) (e : Epi) : Bool :=
  let sc := stored d.cT d.m d.n
  let C := tensorRegion d (·.c) d.c d.cPitch d.cFmt sc.1 sc.2
  let sa := stored d.aT d.m d.k
  let sb := stored (!d.bT) d.n d.k
  let pb := fun (x : Bool) => if x then d.batches else 1
  let others := [
    tensorRegion d (·.a) d.a d.aPitch d.aFmt sa.1 sa.2, tensorRegion d (·.b) d.b d.bPitch d.bFmt sb.1 sb.2,
    setRegion A.rs (d.m * (fmtBits A.rsFmt / 8)) (pb A.rsPb), setRegion A.cs (d.n * (fmtBits A.csFmt / 8)) (pb A.csPb),
    setRegion A.ag (kgSet A d.m d.k) (pb A.rsPb), setRegion A.bg (kgSet A d.n d.k) (pb A.csPb),
    setRegion d.len (4 * d.batches) 1,
    setRegion (if isCb d.bFmt then A.cb else 0) (16 * A.cbCount) 1, setRegion (if isCb d.bFmt then A.cbSel else 0) (2 * d.n) 1,
    setRegion (if d.epiEn then e.bias else 0) (d.n * (fmtBits e.biasFmt / 8)) 1,
    setRegion (if d.epiEn then e.post else 0) (d.n * (fmtBits e.postFmt / 8)) 1]
  !others.any (overlaps C ·) &&
    (d.accIn == 0 || (d.accIn == d.c && d.accPitch == d.cPitch) ||
      !overlaps C (tensorRegion d (·.c) d.accIn d.accPitch d.accFmt sc.1 sc.2))

/-- Lengths of all batch iterations, read at issue (R75). -/
def rdLengths (E : Env) (d : MmaDesc) : Plan (List Nat) :=
  if d.len = 0 then pure (List.replicate d.batches d.m)
  else do
    let bs ← rdHeld E false d.len (4 * d.batches)
    pure ((List.range d.batches).map (fun i => min (leNat ((bs.drop (4 * i)).take 4)) d.m))

/-- Codebooks and channel indices, captured at issue (R27, R28); the capture of codebooks takes the narrow path (R277). -/
def rdCodebooks (E : Env) (d : MmaDesc) (A : Aux) : Plan (List (List Val) × List Nat) :=
  if !isCb d.bFmt then pure ([], [])
  else do
    let bs ← rdHeld E true A.cb (16 * A.cbCount)
    let books := (List.range A.cbCount).map (fun j => ((bs.drop (16 * j)).take 16).map (decodeNum A.cbFmt))
    let idx ← if A.cbSel = 0 then pure (List.replicate d.n 0)
      else do
        let ib ← rdHeld E false A.cbSel (2 * d.n)
        pure ((List.range d.n).map (fun j => leNat ((ib.drop (2 * j)).take 2)))
    pure (books, idx)

/-- Everything an MMA has read at issue. -/
structure MmaJob where
  d : MmaDesc
  A : Aux
  e : Epi
  lens : List Nat
  books : List (List Val)
  idx : List Nat
deriving DecidableEq, Repr, Inhabited

/-- Checks at issue in the order of R480 and R91, then R78. R87 calls `K_TOTAL` 1 to 2^30 and no check names a larger value:
DESIGN CHOICE, such an op goes by the window check alone (log 74). -/
def mmaIssue (E : Env) (x : Nat) : Plan MmaJob := do
  let d := mmaDesc x
  Plan.need (mmaReservedOk x) 0x0104
  Plan.need (aligned d.aux 128) 0x0144
  Plan.need (d.aux != 0 || !(isCb d.bFmt || d.rnd == 5 || d.epiEn)) 0x0144
  let ax ← if d.aux = 0 then pure 0 else rdHeldRec E d.aux 128
  let A := if d.aux = 0 then {} else auxOf ax
  Plan.need (auxReservedOk ax) 0x0104
  Plan.need (!d.epiEn || (A.epi != 0 && aligned A.epi 128)) 0x0144
  let ex ← if d.epiEn then rdHeldRec E A.epi 128 else pure 0
  let e := epiOf ex
  Plan.need (mmaFormatsOk d A e) 0x0131
  Plan.need (d.k != 0 && decide (d.k ≤ d.kTotal)) 0x0140
  Plan.need (windowOk d.exact A (mmaFactors d A) d.kTotal) 0x0130
  Plan.need (mmaAlignOk d A e) 0x0141
  Plan.need (cStridesOk [d.l0, d.l1, d.l2] (stored d.cT d.m d.n).1) 0x0142
  Plan.need (!d.epiEn || (epiReservedOk ex && epiOk e)) 0x0143
  Plan.need (mmaOverlapOk d A e) 0x0145
  let lens ← rdLengths E d
  Plan.need (d.m != 0 && d.n != 0 && lens.any (· != 0)) 0x0310
  let cb ← rdCodebooks E d A
  pure ⟨d, A, e, lens, cb.1, cb.2⟩

/-- The narrow configuration in batch iteration i. -/
def mmaConf (J : MmaJob) (i : Nat) : Conf :=
  let d := J.d
  { exact := d.exact, B := (windowOf (mmaFactors d J.A) d.kTotal).1
    a := { base := d.a + d.rowsAt (·.a) i * d.aPitch, pitch := d.aPitch, fmt := d.aFmt, alongK := !d.aT
           kg := if J.A.ag = 0 then none else some ⟨J.A.ag, J.A.agFmt, J.A.zpEn, J.A.kg, J.A.rsPb, d.m⟩ }
    b := { base := d.b + d.rowsAt (·.b) i * d.bPitch, pitch := d.bPitch, fmt := d.bFmt, alongK := d.bT
           kg := if J.A.bg = 0 then none else some ⟨J.A.bg, J.A.bgFmt, J.A.zpEn, J.A.kg, J.A.csPb, d.n⟩
           cb := if isCb d.bFmt then some J.books else none, cbIdx := J.idx }
    acc := if d.accIn = 0 then none else some (d.accIn + d.rowsAt (·.c) i * d.accPitch, d.accPitch, d.cT) }

/-- The aux block of the wide configuration (R219): a widened side has no K-group scales. -/
def wideAux (J : MmaJob) (W : WidRec) : Aux :=
  { J.A with ag := if W.wa = 0 then J.A.ag else 0, bg := if W.wb = 0 then J.A.bg else 0
             zpEn := J.A.zpEn && ((W.wa == 0 && J.A.ag != 0) || (W.wb == 0 && J.A.bg != 0)) }

/-- The descriptor of the wide configuration (R219). -/
def wideDesc (d : MmaDesc) (W : WidRec) : MmaDesc :=
  { d with
    a := if W.wa = 0 then d.a else W.wa, aFmt := if W.wa = 0 then d.aFmt else W.waFmt
    aPitch := if W.wa = 0 then d.aPitch else W.waPitch, aT := if W.wa = 0 then d.aT else W.waT
    b := if W.wb = 0 then d.b else W.wb, bFmt := if W.wb = 0 then d.bFmt else W.wbFmt
    bPitch := if W.wb = 0 then d.bPitch else W.wbPitch, bT := if W.wb = 0 then d.bT else W.wbT }

def wideJob (J : MmaJob) (W : WidRec) : MmaJob := { J with d := wideDesc J.d W, A := wideAux J W }

/-- Allowed wide source of a narrow operand (R219). -/
def rungOk (narrow wide addr : Nat) : Bool :=
  addr == 0 ||
    (if narrow = fE2M1 ∨ narrow = fINT4 ∨ narrow = fUINT4 ∨ isCb narrow then [3, 4, 6, 1, 2].contains wide
     else if narrow = fE4M3 ∨ narrow = fE5M2 ∨ narrow = fINT8 then [1, 2].contains wide
     else false)

/-- 0x0180 of R221. -/
def widRecOk (J : MmaJob) (x : Nat) (W : WidRec) : Bool :=
  let d := J.d
  widReservedOk x && W.pin != 3 && (!W.probeEn || (W.probeExp != 0 && decide (W.probeExp ≤ 64))) &&
  (!W.refEn || (W.refAddr != 0 && aligned W.refAddr 128 && d.accIn == 0 && !d.accOut)) &&
  (W.wa == 0 || (aligned W.wa 16 && pitchOk W.waPitch W.waFmt (stored W.waT d.m d.k).2)) &&
  (W.wb == 0 || (aligned W.wb 16 && pitchOk W.wbPitch W.wbFmt (stored (!W.wbT) d.n d.k).2))

/-- 0x0181 of R221: the rungs of R219, and the checks of R91 and R41 on the wide configuration; the `ZP_EN` condition of
R91 is not applied (R219). -/
def wideOk (J : MmaJob) (W : WidRec) : Bool :=
  let V := wideJob J W
  rungOk J.d.aFmt W.waFmt W.wa && rungOk J.d.bFmt W.wbFmt W.wb &&
  mmaFormatsOk V.d { V.A with zpEn := false } V.e && windowOk V.d.exact V.A (mmaFactors V.d V.A) V.d.kTotal &&
  mmaAlignOk V.d V.A V.e && mmaOverlapOk V.d V.A V.e

/-- Everything a running MMA carries from tile to tile. -/
structure MmaRun where
  J : MmaJob
  W : Option WidRec
  mode : WidMode
  layer : Nat
  bay : Nat
  arr : Nat
  badCh : List Nat
deriving DecidableEq, Repr, Inhabited

def mmaDrain (J : MmaJob) (i : Nat) : DrainCfg :=
  let d := J.d
  { base := d.c + d.rowsAt (·.c) i * d.cPitch, pitch := d.cPitch, fmt := d.cFmt, cT := d.cT
    R := { rnd := d.rnd, ovf := d.ovf, seed := J.A.seed, tag := d.srTag }, accOut := d.accOut
    epi := if d.epiEn then some J.e else none
    rs := J.A.rs, rsFmt := J.A.rsFmt, rsPb := J.A.rsPb, cs := J.A.cs, csFmt := J.A.csFmt, csPb := J.A.csPb
    mTotal := d.m, nTotal := d.n, idxBase := i * d.m * d.n }

/-- Beats of an area: its active planes times the k-steps of K (R61, R63, R77). -/
def areaBeats (J : MmaJob) (nm nn : Nat) : Nat := ceilDiv nm 128 * ceilDiv nn 128 * ceilDiv J.d.k (rankOf J.d.aFmt J.d.bFmt)

/-- One area in one configuration, checked on the exact path and accounted (R66, R376). DESIGN CHOICE: a block that runs again
for widening, a probe or reference mode is a tile of its own to the checksum counters of R94, and uses planes from the tile's
lowest (log 74). -/
def mmaArea (E : Env) (X : MmaRun) (J : MmaJob) (i plane m0 nm n0 nn : Nat) : Plan Area :=
  cksTile E J.d.exact X.bay X.arr plane (X.J.d.tileN + 1) (mmaConf J i).B (do
    arrayBeats E X.bay (areaBeats J nm nn)
    runArea E J.A (mmaConf J i) i m0 nm n0 nn J.d.k)

/-- Rows and columns of an area cut out of a tile. -/
def cut {α : Type} (r nr c nc : Nat) (m : List (List α)) : List (List α) :=
  ((m.drop r).take nr).map (fun row => (row.drop c).take nc)

/-- Whether R44 or R48 withholds what an area computed. -/
def Area.withheld (a : Area) : Bool := a.outside || a.pts.any (fun r => r.any (·.bad))

/-- Whether the result of a configuration comes without codebooks: its B is the wide source (R219). -/
def plainB (X : MmaRun) (wide : Bool) : Bool := wide && (X.W.map (fun w => w.wb != 0)).getD false

/-- What a block gives: the elements written, if any, whether they come from a run without codebooks (R219), and the reference
statistics so far. -/
structure BlockOut where
  cands : Option (List (List Cand))
  plain : Bool
  st : RefStats
deriving Repr, Inhabited

/-- What becomes of one block (R224 to R226, R234). -/
def mmaBlock (E : Env) (X : MmaRun) (i plane m0 n0 : Nat) (a : Area) (withheld : Bool) (beta : Nat) (st : RefStats) : Plan BlockOut := do
  let nm := a.pts.length
  let nn := (a.pts.headD []).length
  let mainJ := match X.W with
    | some W => if X.mode.wide then wideJob X.J W else X.J
    | none => X.J
  let mine ← if withheld then pure [] else cands E (mmaDrain mainJ i) i m0 n0 a.pts
  let own : BlockOut := ⟨if withheld then none else some mine, plainB X X.mode.wide, st⟩
  match X.W with
  | none => pure own
  | some W =>
    let wj := wideJob X.J W
    let other := fun (J : MmaJob) => do
      let b ← mmaArea E X J i plane m0 nm n0 nn
      let cs ← cands E (mmaDrain J i) i m0 n0 b.pts
      pure (b, cs)
    if X.mode.ref then
      let w ← other wj
      -- a side that is not widened keeps its scales, so R44 withholds from the wide run too
      let refused := w.1.withheld
      let out : BlockOut := if W.refOut then ⟨if refused then none else some w.2, plainB X true, st⟩ else own
      if withheld || refused then pure out
      else
        let st' := (mine.flatten.zip w.2.flatten).foldl (fun s p => refAdd X.J.d.cFmt s p.1 p.2) { st with blocks := st.blocks + 1 }
        pure { out with st := st' }
    else if withheld then pure own
    else
      let conf := mmaConf mainJ i
      let trouble := (X.mode.act || X.mode.countOnly) && inTrouble W conf X.J.d.cFmt a.as a.bs mine.flatten
      if trouble then Plan.count kWidBlockCount 1
      if trouble && X.mode.act then
        let w ← other wj
        Plan.note 10 (X.layer + 4096 * W.layerBlocks)
        Plan.code 0x0301
        pure ⟨some w.2, plainB X true, st⟩
      else if X.mode.probe && !trouble && probed W beta then
        let o ← other (if X.mode.wide then X.J else wj)
        if X.mode.wide && o.1.withheld then pure own
        else
          let fails := if X.mode.wide then probeFails W o.2.flatten mine.flatten else probeFails W mine.flatten o.2.flatten
          Plan.count kWidProbeCount 1
          if fails then Plan.count kWidProbeFailCount 1
          if fails && X.mode.act then
            Plan.count kWidBlockCount 1
            Plan.note 11 (X.layer + 4096 * W.layerBlocks)
            Plan.code 0x0301
            pure ⟨some o.2, plainB X true, st⟩
          else
            if fails && X.mode.wide then Plan.note 12 X.layer
            pure own
      else pure own

/-- What an MMA carries from tile to tile: the reference statistics, and the channels withheld so far (R28). -/
structure MmaAcc where
  st : RefStats := {}
  lost : List Nat := []
deriving Repr, Inhabited

/-- One tile of the output (R62 to R68, R74 to R77, R44, R48): run, checked, and its blocks drained. A channel whose index is
outside the codebooks is withheld from every block whose result took codebooks (R28, R219). -/
def mmaTile (E : Env) (X : MmaRun) (i mAct m0 n0 : Nat) (plane : Nat) (acc : MmaAcc) : Plan MmaAcc := do
  let d := X.J.d
  let nm := min (tileEdge d.tileM) (mAct - m0)
  let nn := min (tileEdge d.tileN) (d.n - n0)
  let mainJ := match X.W with
    | some W => if X.mode.wide then wideJob X.J W else X.J
    | none => X.J
  let a ← mmaArea E X mainJ i plane m0 nm n0 nn
  let bad := a.pts.any (fun r => r.any (·.bad))
  let refWide := X.mode.ref && (X.W.map (·.refOut)).getD false
  if bad then do Plan.count kAccWindowCount 1; Plan.code 0x0305
  let blocks := (starts nm 128).flatMap (fun r => (starts nn 128).map (fun c => (r, c)))
  let r ← blocks.foldlM (fun (out : List (Nat × Nat × BlockOut) × RefStats) rc => do
      let sub : Area := { a with pts := cut rc.1 128 rc.2 128 a.pts, as := (a.as.drop rc.1).take 128, bs := (a.bs.drop rc.2).take 128 }
      let beta := (i * ceilDiv d.m 128 + (m0 + rc.1) / 128) * ceilDiv d.n 128 + (n0 + rc.2) / 128
      let b ← mmaBlock E X i plane (m0 + rc.1) (n0 + rc.2) sub (a.outside || bad) beta out.2
      pure (out.1 ++ [(m0 + rc.1, n0 + rc.2, b)], b.st)) ([], acc.st)
  if (if refWide then r.1.any (fun b => b.2.2.cands.isNone) else a.outside) then do
    Plan.count kGscaleRangeCount 1
    Plan.code 0x0304
  let lost := (X.badCh.filter (fun j => decide (n0 ≤ j) && decide (j < n0 + nn) && !acc.lost.contains j &&
    r.1.any (fun b => !b.2.2.plain && decide (b.2.1 ≤ j) && decide (j < b.2.1 + 128))))
  if !lost.isEmpty then do Plan.count kCbIndexCount lost.length; Plan.code 0x0133
  let D := mmaDrain X.J i
  allOrNone (r.1.forM (fun b => do
    match b.2.2.cands with
    | none => pure ()
    | some cs => do
      let codes ← areaCodes b.2.1 (if b.2.2.plain then [] else X.badCh) cs
      wrArea E D.base D.pitch D.fmt D.cT (if D.cT then D.mTotal else D.nTotal) b.1 b.2.1 ((cs.headD []).length) codes))
  pure ⟨r.2, acc.lost ++ lost⟩

/-- The tiles of an op in the order of R74, with M_ACT of their iteration; tiles without an active plane are left out
(R77). -/
def mmaTiles (J : MmaJob) : List (Nat × Nat × Nat × Nat) :=
  ((List.range J.d.batches).zip J.lens).flatMap (fun p =>
    (starts p.2 (tileEdge J.d.tileM)).flatMap (fun m0 =>
      (starts J.d.n (tileEdge J.d.tileN)).map (fun n0 => (p.1, p.2, m0, n0))))

/-- The lowest plane of the t-th tile that runs (R62, R64). -/
def tilePlane (tileM tileN t : Nat) : Nat :=
  if (tileM + 1) * (tileN + 1) ≤ 8 then (if t % 2 = 0 then 0 else 8) else 0

def mmaRunTiles (E : Env) (X : MmaRun) : Plan RefStats := do
  let ts := mmaTiles X.J
  let r ← ((List.range ts.length).zip ts).foldlM
    (fun (acc : MmaAcc) p => mmaTile E X p.2.1 p.2.2.1 p.2.2.2.1 p.2.2.2.2 (tilePlane X.J.d.tileM X.J.d.tileN p.1) acc) {}
  pure r.st

/-- What the op's layer was when it started (R216, R226, R228, R230). -/
structure LayerStart where
  layer : Nat
  wide : Bool
  stepWide : Bool
  storm : Bool
deriving DecidableEq, Repr, Inhabited

/-- The record of the op's layer, when it takes part in widening (R215, R216). -/
def mmaLayer (E : Env) (layer : Nat) : Plan (Option Nat) := do
  let table := objGet E.d (objKey E.ctx kWidTable)
  let n := objGet E.d (objKey E.ctx kWidLayers)
  if layer = 0 then pure none
  else if table = 0 ∨ n < layer then do Plan.count kWidUnlistedCount 1; pure none
  else do pure (some (← rdHeldRec E (table + 64 * (layer - 1)) 64))

/-- The working of an MMA on an array of a bay (R57 to R93, R215 to R236). -/
def mmaPlan (E : Env) (x : Nat) (L : LayerStart) (bay arr : Nat) : Plan Unit := do
  let J ← mmaIssue E x
  let rec? ← mmaLayer E L.layer
  let W := rec?.map widRecOf
  match rec?, W with
  | some r, some w => do
    Plan.need (widRecOk J r w) 0x0180
    Plan.need (wideOk J w) 0x0181
  | _, _ => pure ()
  let mode := match W with
    | some w => widMode w (J.d.accIn != 0 || J.d.accOut) L.wide L.stepWide L.storm
    | none => {}
  let badCh := (List.range J.d.n).filter (fun j => isCb J.d.bFmt && decide (J.A.cbCount ≤ J.idx.getD j 0))
  if mode.wide then Plan.code 0x0301
  let st ← mmaRunTiles E ⟨J, W, mode, L.layer, bay, arr, badCh⟩
  match W with
  | some w =>
    if mode.ref then do
      wr E w.refAddr (leBytes 128 (refRecord st))
      if w.refBucket ≠ 0 ∧ (st.hist.drop w.refBucket).any (· != 0) then do
        Plan.count kRefMismatchCount 1
        Plan.code 0x0302
    else pure ()
  | none => pure ()

end Sys2Proof.Machine
end

