-- ==== Sys2Proof/Machine/Tables.lean ====
section
/-! DEFINITION. Function tables (R97 to R107), the pairwise order (R117), sine and cosine (R114, R115). An image is held as
the little-endian number of its bytes. -/

namespace Sys2Proof.Machine

structure TblHdr where
  approx : Val
  xLo : Val
  wExp : Int
  segLog2 : Nat
  cls : Nat
  quad : Bool
  mono : Nat
  outLo : Bool
  outHi : Bool
deriving DecidableEq, Repr, Inhabited

/-- The header of an image (R106). -/
def tblHdr (x : Nat) : TblHdr :=
  { approx := decodeNum fFP32 (fld' x 415 384), xLo := decodeNum fFP32 (fld' x 383 352), wExp := toSigned 8 (fld' x 351 344)
    segLog2 := fld' x 343 340, cls := fld' x 339 338, quad := bit x 337, mono := fld' x 336 335, outLo := bit x 334, outHi := bit x 333 }
where fld' (x hi lo : Nat) : Nat := bits x hi lo

def TblHdr.segs (h : TblHdr) : Nat := 2 ^ h.segLog2

/-- Bytes of an image. -/
def TblHdr.bytes (h : TblHdr) : Nat := 64 + 4 * (h.segs + 1) + (if h.quad then 4 * h.segs else 0)

def tblY (x i : Nat) : Val := decodeNum fFP32 (bits x (543 + 32 * i) (512 + 32 * i))

def tblC (h : TblHdr) (x i : Nat) : Val :=
  if h.quad then decodeNum fFP32 (bits x (543 + 32 * (h.segs + 1 + i)) (512 + 32 * (h.segs + 1 + i))) else .zero

/-- Right end of the domain of a DIRECT table. -/
def tblXs (h : TblHdr) : Val := Val.add 0 h.xLo (.fin false h.segs h.wExp)

/-- Whether a value is an integer multiple of `2 ^ k`. -/
def isMultiple (v : Val) (k : Int) : Bool :=
  match v with
  | .fin _ m e => if k ≤ e then true else m % 2 ^ (k - e).toNat == 0
  | _ => false

/-- The first check of R107 that an image fails, as the `REASON` of R134; 0 when it passes. -/
def tblReason (x : Nat) : Nat :=
  let h := tblHdr x
  let unused := h.cls ≠ 0 ∧ (bits x 383 352 ≠ 0 ∨ bits x 351 344 ≠ 0 ∨ h.outLo ∨ h.outHi)
  let ys := (List.range (h.segs + 1)).map (tblY x)
  let cs := if h.quad then (List.range h.segs).map (tblC h x) else []
  if bits x 511 416 ≠ 0 ∨ bits x 332 0 ≠ 0 then 1
  else if h.cls = 3 ∨ h.mono = 3 then 2
  else if unused then 1
  else if 9 < h.segLog2 then 3
  else if h.wExp < -30 ∨ 30 < h.wExp then 3
  else if h.cls = 0 ∧ !isMultiple h.xLo h.wExp then 3
  else if h.cls = 0 ∧ Val.lt (.fin false (2 ^ 24 - 1) 104) (tblXs h) then 3
  else if !(ys.all Val.isFinite && cs.all Val.isFinite) then 4
  else if !h.approx.isFinite || Val.lt h.approx .zero then 8
  else if h.cls = 1 ∧ !Val.eqv (tblY x h.segs) (Val.mul (.ofNat 2) (tblY x 0)) then 5
  else if h.cls = 2 ∧ !Val.eqv (tblY x h.segs) (Val.add 0 (tblY x 0) .one) then 5
  else 0

/-- R104: `REASON` 7 or 6 with the lowest failing segment; (0, 0) when the flag holds. -/
def tblMono (x : Nat) : Nat × Nat :=
  let h := tblHdr x
  let ok := fun i =>
    let d := if h.mono = 1 then Val.sub 0 (tblY x (i + 1)) (tblY x i) else Val.sub 0 (tblY x i) (tblY x (i + 1))
    Val.le (tblC h x i).abs d
  if h.mono = 0 then (0, 0)
  else if h.mono = 2 ∧ (h.outLo ∨ h.outHi) then (7, 0)
  else match (List.range h.segs).find? (fun i => !ok i) with
    | some i => (6, i)
    | none => (0, 0)

/-- g(u) of R99 in segment i at t; `rnd` decides the sign of an exact zero (R36). -/
def tblG (rnd : Nat) (h : TblHdr) (x i : Nat) (t : Val) : Val :=
  let r := Val.sub 0 .one t
  Val.add rnd (Val.add rnd (Val.mul (tblY x i) r) (Val.mul (tblY x (i + 1)) t)) (Val.mul (tblC h x i) (Val.mul t r))

/-- g at a position of `v` segments from the domain's start. -/
def tblAt (rnd : Nat) (h : TblHdr) (x : Nat) (v : Val) : Val :=
  let i := (Val.floor v).toNat
  tblG rnd h x i (Val.sub 0 v (.ofNat i))

/-- The class result of R98, R101 and R102 for a class input, exactly; `rnd` decides the sign of an exact zero (R36). -/
def tblEval (x : Nat) (v : Val) (rnd : Nat := 0) : Val :=
  let h := tblHdr x
  match h.cls with
  | 0 =>
    match v with
    | .nan => .nan
    | .inf neg => if neg then (if h.outLo then .inf true else tblY x 0) else (if h.outHi then .inf false else tblY x h.segs)
    | .fin _ _ _ =>
      if Val.lt v h.xLo then (if h.outLo then Val.add rnd (tblY x 0) (Val.sub 0 v h.xLo) else tblY x 0)
      else if Val.le (tblXs h) v then
        (if h.outHi then Val.add rnd (tblY x h.segs) (Val.sub 0 v (tblXs h)) else tblY x h.segs)
      else tblAt rnd h x (Val.scale (Val.sub 0 v h.xLo) (-h.wExp))
  | 1 =>
    match v with
    | .nan => .nan
    | .inf neg => if neg then .zero else .inf false
    | .fin _ _ _ =>
      let n := Val.floor v
      Val.scale (tblAt rnd h x (Val.scale (Val.sub 0 v (.ofInt n)) h.segLog2)) n
  | _ =>
    match v with
    | .nan => .nan
    | .inf neg => if neg then .nan else .inf false
    | .fin s m e =>
      if m = 0 then .inf true
      else if s then .nan
      else
        let k := Nat.log2 m
        Val.add rnd (.ofInt (k + e))
          (tblAt rnd h x (Val.scale (Val.sub 0 (.fin false m (-(k : Int))) .one) h.segLog2))

/-! ## The pairwise order (R117) -/

def pairOnce {α : Type} (f : α → α → α) : List α → List α
  | a :: b :: t => f a b :: pairOnce f t
  | l => l

def pairRounds {α : Type} (f : α → α → α) : Nat → List α → List α
  | 0, l => l
  | n + 1, l => pairRounds f n (pairOnce f l)

/-- `pairwise_reduce` of R117; an empty list reduces to `z`. -/
def pairwise {α : Type} (f : α → α → α) (z : α) (l : List α) : α := (pairRounds f (clog2 l.length) l).headD z

/-- The sum of two extended values, rounded to the extended form. -/
def extAdd (a b : Val) : Val := toExt (Val.add 0 a b)

/-! ## Sine and cosine of an exact angle (R114, R115) -/

/-- π to 320 bits after the point. -/
def piFix : Nat :=
  0x3243f6a8885a308d313198a2e03707344a4093822299f31d0082efa98ec4e6c89452821e638d01377

/-- Taylor terms: sum of t, -t·x²/((k+1)(k+2)), ... with 320 bits after the point. -/
def taylor (x2 : Int) : Nat → Nat → Int → Int
  | 0, _, _ => 0
  | n + 1, k, t => t + taylor x2 n (k + 2) (-(t * x2 / 2 ^ 320) / ((k + 1) * (k + 2) : Nat))

def fixVal (v : Int) : Val := if v = 0 then .zero else .fin (decide (v < 0)) (2 * v.natAbs + 1) (-321)

/-- sin and cos of A/2^64 of a turn, in the extended form; the value is worked to about 2^-300 before it is rounded
(log 16). -/
def sinCos (A : Nat) : Val × Val :=
  let q := ((A + 2 ^ 61) / 2 ^ 62) % 4
  let d : Int := ((A + 2 ^ 61) % 2 ^ 62 : Nat) - (2 ^ 61 : Int)
  let p : Int := (2 * (piFix : Int) * d) / 2 ^ 64
  let x2 := p * p / 2 ^ 320
  let s : Val := if d = 0 then .zero else toExt (fixVal (taylor x2 60 1 p))
  let c : Val := if d = 0 then .one else toExt (fixVal (taylor x2 60 0 (2 ^ 320)))
  let n := fun (v : Val) => if v.isZero then .zero else v.neg
  match q with
  | 0 => (s, c)
  | 1 => (c, n s)
  | 2 => (n s, n c)
  | _ => (n c, s)

end Sys2Proof.Machine
end

