-- ==== Sys2Proof/Machine/RowOps.lean ====
section
/-! DEFINITION. The row ops of 03_special_functions.md: FUN (R97 to R116, R128 to R132), RMS (R118, R119) and its backward
form (R186 to R188), SMX (R120 to R125), and VEC (R38, R39, R117). -/

namespace Sys2Proof.Machine

/-- The FUN, RMS and SMX descriptor (R128). -/
structure RowDesc where
  seed : Nat
  tag : Nat
  n2 : Nat
  n1 : Nat
  n0 : Nat
  posDims : Nat
  rotInv : Bool
  rotPair : Bool
  ovf : Nat
  rnd : Nat
  yFmt : Nat
  gFmt : Nat
  xFmt : Nat
  fn : Nat
  slot2 : Nat
  slot : Nat
  cols : Nat
  rows : Nat
  fc : Nat
  fb : Nat
  fa : Nat
  yPitch : Nat
  gPitch : Nat
  xPitch : Nat
  aux2 : Nat
  aux1 : Nat
  y2 : Nat
  y : Nat
  g : Nat
  x : Nat
deriving DecidableEq, Repr, Inhabited

def rowDesc (x : Nat) : RowDesc :=
  { seed := fld x 927 864, tag := fld x 863 832, n2 := fld x 815 808, n1 := fld x 807 800, n0 := fld x 799 792
    posDims := fld x 785 784, rotInv := bit x 783, rotPair := bit x 782, ovf := fld x 781 781, rnd := fld x 780 778
    yFmt := fld x 777 773, gFmt := fld x 772 768, xFmt := fld x 767 763, fn := fld x 762 760, slot2 := fld x 759 756
    slot := fld x 755 752, cols := fld x 751 728, rows := fld x 727 704, fc := fld x 703 672, fb := fld x 671 640
    fa := fld x 639 608, yPitch := fld x 607 576, gPitch := fld x 575 544, xPitch := fld x 543 512, aux2 := fld x 503 448
    aux1 := fld x 439 384, y2 := fld x 375 320, y := fld x 311 256, g := fld x 247 192, x := fld x 183 128 }

def rowReservedOk (x : Nat) : Bool :=
  zeroAt x [(1023, 928), (831, 816), (791, 786), (511, 504), (447, 440), (383, 376), (319, 312), (255, 248), (191, 184)]

/-- The functions that share the descriptor. -/
inductive RowFn where
  | eval | mul | sincos | rope | load | rms | rmsBackward | smx
deriving DecidableEq, Repr, Inhabited

/-- Fields that a function does not use are zero (R129, R186). R129 does not say whether `SR_SEED` and `SR_TAG` are used under
an `RND` other than 5: DESIGN CHOICE, they belong to every function that rounds and are free there (log 76). -/
def rowUnusedOk (f : RowFn) (d : RowDesc) : Bool :=
  let rot := d.n0 == 0 && d.n1 == 0 && d.n2 == 0 && d.posDims == 0 && !d.rotInv && !d.rotPair
  let table := d.slot == 0 && d.slot2 == 0
  let scal := d.fa == 0 && d.fb == 0 && d.fc == 0
  let aux := d.aux1 == 0 && d.aux2 == 0
  let gNone := d.g == 0 && d.gFmt == 0 && d.gPitch == 0
  match f with
  | .eval => rot && d.slot2 == 0 && aux && d.y2 == 0 && gNone
  | .mul => rot && d.slot2 == 0 && aux && d.y2 == 0
  | .sincos => rot && table && scal && aux && gNone && d.xFmt == 0
  | .rope => table && scal && d.y2 == 0 && gNone
  | .load => rot && d.slot2 == 0 && scal && aux && gNone && d.y2 == 0 && d.y == 0 && d.xFmt == 0 && d.yFmt == 0 &&
      d.cols == 0 && d.rows == 0 && d.yPitch == 0 && d.xPitch == 0 && d.seed == 0 && d.tag == 0 && d.ovf == 0 && d.rnd == 0
  | .rms => rot && table && d.fa == 0 && d.fc == 0 && d.aux2 == 0 && d.y2 == 0 && d.fn == 0 && d.gPitch == 0 &&
      (d.g != 0 || d.gFmt == 0)
  | .rmsBackward => rot && table && d.fa == 0 && d.y2 == 0 && d.fn == 0 && d.gPitch == 0 && (d.g != 0 || d.gFmt == 0)
  | .smx => rot && d.fb == 0 && d.fc == 0 && d.y2 == 0 && gNone && d.fn == 0 && (d.aux2 != 0 || d.slot2 == 0)

/-- Formats of R129 and R186. -/
def rowFormatsOk (f : RowFn) (d : RowDesc) : Bool :=
  match f with
  | .eval => decide (d.xFmt ≤ 4) && decide (d.yFmt ≤ 7)
  | .mul => decide (d.xFmt ≤ 4) && decide (d.gFmt ≤ 4) && decide (d.yFmt ≤ 7)
  | .sincos => decide (d.yFmt ≤ 2)
  | .rope => decide (d.xFmt ≤ 2) && decide (d.yFmt ≤ 2)
  | .load => true
  | .rms => decide (d.xFmt ≤ 2) && (d.g == 0 || decide (d.gFmt ≤ 2)) && decide (d.yFmt ≤ 4)
  | .rmsBackward => decide (d.xFmt ≤ 2) && (d.g == 0 || decide (d.gFmt ≤ 2)) && decide (d.yFmt ≤ 2)
  | .smx => decide (d.xFmt ≤ 2) && decide (d.yFmt ≤ 4)

/-- The format in which X is stored: SINCOS reads 64-bit angles (R129). -/
def xStored (f : RowFn) (d : RowDesc) : Nat := if f = .sincos then fINT64 else d.xFmt

/-- 0x0141 of R131. -/
def rowAlignOk (f : RowFn) (d : RowDesc) : Bool :=
  let al (a n : Nat) : Bool := a % n == 0
  let pitch (p fmt : Nat) : Bool := al p 16 && decide (rowBytes fmt d.cols ≤ p)
  let small := if f = .smx then 4 else 8
  al d.x 16 && al d.g 16 && al d.y 16 && al d.y2 16 && al d.aux1 small && al d.aux2 small &&
    (f == .load || (pitch d.xPitch (xStored f d) && pitch d.yPitch d.yFmt)) && (f != .mul || pitch d.gPitch d.gFmt)

/-- The region of a tensor of `rows` rows (R91). -/
def rowRegion (base pitch rows bytes : Nat) : Nat × Nat :=
  if rows = 0 ∨ bytes = 0 then (base, base) else (base, base + (rows - 1) * pitch + bytes)

/-- The region of a tensor whose address 0 says that there is none. -/
def optRegion (base pitch rows bytes : Nat) : Nat × Nat := if base = 0 then (0, 0) else rowRegion base pitch rows bytes

/-- 0x0145 of R131 and R186: Y and Y2 meet no region that the op reads, but for a result in place. -/
def rowOverlapOk (f : RowFn) (d : RowDesc) : Bool :=
  let yb := rowBytes d.yFmt d.cols
  let Y := rowRegion d.y d.yPitch d.rows yb
  let Y2 := optRegion d.y2 d.yPitch d.rows yb
  let X := rowRegion d.x d.xPitch d.rows (rowBytes (xStored f d) d.cols)
  let others : List (Nat × Nat) :=
    match f with
    | .mul => [rowRegion d.g d.gPitch d.rows (rowBytes d.gFmt d.cols)]
    | .rope => [rowRegion d.aux1 (8 * d.posDims) d.rows (8 * d.posDims), rowRegion d.aux2 0 1 (8 * (d.n0 + d.n1 + d.n2))]
    | .rms => [optRegion d.g 0 1 (rowBytes d.gFmt d.cols)]
    | .rmsBackward => [optRegion d.g 0 1 (rowBytes d.gFmt d.cols)]
    | .smx => [optRegion d.aux1 4 d.rows 4]
    | _ => []
  let inX := f != .rmsBackward && d.y == d.x && d.yPitch == d.xPitch && fmtBits d.yFmt == fmtBits (xStored f d)
  let dY := rowRegion d.aux1 d.yPitch d.rows yb
  f == .load ||
    ((inX || !overlaps Y X) && !overlaps Y2 X && !others.any (overlaps Y) && !others.any (overlaps Y2) &&
      (f != .rmsBackward || d.y == d.aux1 || !overlaps Y dY))

/-- The captured bank of a slot (R108). -/
def bankOf (T : List BankRef) (slot : Nat) : Option BankRef := T.find? (fun b => b.slot = slot)

/-- The slots that a function evaluates, with the class each must have (R131: 1 EXP2, 2 LOG2; 4 any). -/
def rowSlots (f : RowFn) (d : RowDesc) : List (Nat × Nat) :=
  match f with
  | .eval => [(d.slot, 4)]
  | .mul => [(d.slot, 4)]
  | .smx => (d.slot, 1) :: (if d.aux2 = 0 then [] else [(d.slot2, 2)])
  | _ => []

/-- Whether the slot was the context's when the op started (R112). -/
def ownedBy (T : List BankRef) (ctx slot : Nat) : Bool := ((bankOf T slot).map (fun b => b.owner == ctx)).getD false

/-- The image that the op captured; 0 for an empty bank. -/
def imageOf (T : List BankRef) (slot : Nat) : Nat := ((bankOf T slot).bind (·.image)).getD 0

def bankFull (T : List BankRef) (slot : Nat) : Bool := ((bankOf T slot).bind (·.image)).isSome

/-- Whether `FC` is an FP32 positive power of two (R186). -/
def isPow2 (v : Val) : Bool :=
  match v with
  | .fin false m _ => m != 0 && m == 2 ^ Nat.log2 m
  | _ => false

/-- The exponent of a power of two. -/
def pow2Exp (v : Val) : Int :=
  match v with
  | .fin _ m e => (Nat.log2 m : Int) + e
  | _ => 0

/-- The remaining causes of 0x0155 in R131. -/
def rowValuesOk (f : RowFn) (d : RowDesc) : Bool :=
  let fin (c : Nat) : Bool := (decodeNum fFP32 c).isFinite
  let epsOk := fin d.fb && !Val.lt (decodeNum fFP32 d.fb) .zero
  rowUnusedOk f d &&
    match f with
    | .eval => fin d.fa && fin d.fb && fin d.fc
    | .mul => fin d.fa && fin d.fb && fin d.fc
    | .rope => d.cols % 2 == 0 && d.posDims != 0 && (decide (1 ≤ d.posDims) || d.n0 == 0) &&
        (decide (2 ≤ d.posDims) || d.n1 == 0) && (decide (3 ≤ d.posDims) || d.n2 == 0) &&
        decide (d.n0 + d.n1 + d.n2 ≤ d.cols / 2)
    | .rms => epsOk
    | .rmsBackward => epsOk && (if d.aux2 = 0 then d.fc == 0 else isPow2 (decodeNum fFP32 d.fc))
    | .smx => fin d.fa && Val.lt .zero (decodeNum fFP32 d.fa)
    | _ => true

/-- The checks of R480 and R131, in their order. -/
def rowIssue (E : Env) (T : List BankRef) (f : RowFn) (x : Nat) : Plan RowDesc := do
  let d := rowDesc x
  let slots := rowSlots f d
  let named := if f = .load then [d.slot] else slots.map (·.1)
  Plan.need (rowReservedOk x) 0x0155
  Plan.need (decide (d.rnd ≤ 5)) 0x0131
  Plan.need (rowFormatsOk f d) 0x0131
  Plan.need (rowAlignOk f d) 0x0141
  Plan.need (rowOverlapOk f d) 0x0145
  Plan.need (f != .rmsBackward || allHbm E (optRegion d.aux2 0 1 (8 * d.cols))) 0x0146
  Plan.need (named.all (ownedBy T E.ctx)) 0x0152
  Plan.need (slots.all (fun s => bankFull T s.1)) 0x0153
  Plan.need (slots.all (fun s => s.2 == 4 || (tblHdr (imageOf T s.1)).cls == s.2)) 0x0154
  Plan.need (rowValuesOk f d) 0x0155
  Plan.need (f == .load || (d.rows != 0 && d.cols != 0)) 0x0310
  pure d

/-- The output rounding of a vector or function op (R33, R36, R52, R56). -/
def rowRnd (E : Env) (d : RowDesc) (extra : Nat) : Rnd :=
  { rnd := d.rnd, ovf := d.ovf, seed := d.seed, tag := (d.tag + extra) % 2 ^ 32, keepNeg := E.keepNeg }

/-- Writes a whole row of values (R54, R130, R132). -/
def wrRow (E : Env) (d : RowDesc) (base extra r : Nat) (vs : List Val) : Plan Unit :=
  allOrNone (wrVals E (base + r * d.yPitch) d.yFmt (rowRnd E d extra) (r * d.cols) 0 vs)

def xRow (E : Env) (d : RowDesc) (r : Nat) : Plan (List Val) := rdVals E (d.x + r * d.xPitch) d.xFmt 0 d.cols

/-! ## FUN -/

/-- `OUT_SCALE` times the class result of one element (R100, R102). -/
def funElem (d : RowDesc) (image : Nat) (x : Val) : Val :=
  Val.mul (decodeNum fFP32 d.fc)
    (tblEval image (Val.add d.rnd (Val.mul x (decodeNum fFP32 d.fa)) (decodeNum fFP32 d.fb)) d.rnd)

/-- FUN EVAL (R129). R126 gives elements per beat and says how rows round up for RMS alone: DESIGN CHOICE, the beats of the
other functions round up once for the op (log 76). -/
def evalPlan (E : Env) (T : List BankRef) (x : Nat) : Plan Unit := do
  let d ← rowIssue E T .eval x
  vectorBeats E (ceilDiv (d.rows * d.cols) 256)
  (List.range d.rows).forM (fun r => do
    let xs ← xRow E d r
    wrRow E d d.y 0 r (xs.map (funElem d (imageOf T d.slot))))

/-- FUN MUL (R100, R129). -/
def mulPlan (E : Env) (T : List BankRef) (x : Nat) : Plan Unit := do
  let d ← rowIssue E T .mul x
  vectorBeats E (ceilDiv (d.rows * d.cols) 256)
  (List.range d.rows).forM (fun r => do
    let xs ← xRow E d r
    let gs ← rdVals E (d.g + r * d.gPitch) d.gFmt 0 d.cols
    wrRow E d d.y 0 r ((gs.zip xs).map (fun p => Val.mul p.1 (funElem d (imageOf T d.slot) p.2))))

/-- FUN SINCOS (R114, R115, R129). -/
def sincosPlan (E : Env) (T : List BankRef) (x : Nat) : Plan Unit := do
  let d ← rowIssue E T .sincos x
  vectorBeats E (ceilDiv (d.rows * d.cols) 128)
  (List.range d.rows).forM (fun r => do
    let angles ← rdCodes E (d.x + r * d.xPitch) fINT64 0 d.cols
    let sc := angles.map sinCos
    allOrNone (do
      wrRow E d d.y 0 r (sc.map (·.1))
      if d.y2 ≠ 0 then wrRow E d d.y2 1 r (sc.map (·.2)) else pure ()))

/-- The band of a rotated pair (R116). -/
def ropeBand (d : RowDesc) (q : Nat) : Nat := if q < d.n0 then 0 else if q < d.n0 + d.n1 then 1 else 2

/-- The elements of pair `i` (R116). -/
def ropePair (d : RowDesc) (i : Nat) : Nat × Nat := if d.rotPair then (i, i + d.cols / 2) else (2 * i, 2 * i + 1)

/-- One row rotated (R116), given the row's coordinates and the frequencies. -/
def ropeRow (d : RowDesc) (pos freq : List Nat) (xs : List Val) : List Val :=
  let used := d.n0 + d.n1 + d.n2
  let outs := (List.range (d.cols / 2)).flatMap (fun i =>
    let p := ropePair d i
    let a := xs.getD p.1 .zero
    let b := xs.getD p.2 .zero
    if used ≤ i then [(p.1, a), (p.2, b)]
    else
      let sc := sinCos (pos.getD (ropeBand d i) 0 * freq.getD i 0 % 2 ^ 64)
      let s := if d.rotInv then sc.1.neg else sc.1
      [(p.1, Val.sub d.rnd (Val.mul a sc.2) (Val.mul b s)), (p.2, Val.add d.rnd (Val.mul a s) (Val.mul b sc.2))])
  (List.range d.cols).map (fun j => ((outs.find? (fun o => o.1 = j)).map (·.2)).getD .zero)

/-- FUN ROPE (R114 to R116). -/
def ropePlan (E : Env) (T : List BankRef) (x : Nat) : Plan Unit := do
  let d ← rowIssue E T .rope x
  vectorBeats E (ceilDiv (d.rows * d.cols) 256)
  let freq ← rdCodes E d.aux2 fINT64 0 (d.n0 + d.n1 + d.n2)
  (List.range d.rows).forM (fun r => do
    let pos ← rdCodes E (d.aux1 + 8 * d.posDims * r) fINT64 0 d.posDims
    let xs ← xRow E d r
    wrRow E d d.y 0 r (ropeRow d pos freq xs))

/-- The image that a LOAD reads, once (R109 step 1): its header, then what the header's segments need. -/
def rdImage (E : Env) (va : Nat) : Plan Nat := do
  let h ← rd E va 64
  let H := tblHdr (leNat h)
  if 9 < H.segLog2 then pure (leNat h)
  else do
    let b ← rd E (va + 64) (H.bytes - 64)
    pure (leNat (h ++ b))

/-- What a rejected image leaves in `TBL_LAST_REJECT` (R134). -/
def rejectWord (slot reason seg : Nat) : Nat := slot * 2 ^ 28 + reason * 2 ^ 24 + seg

/-- FUN LOAD up to the write of the bank (R109 step 1): the image that passes. Note 3 carries a rejection. -/
def loadPlan (E : Env) (T : List BankRef) (x : Nat) : Plan Nat := do
  let d ← rowIssue E T .load x
  let image ← rdImage E d.x
  let reason := tblReason image
  let mono := tblMono image
  if reason ≠ 0 then do
    Plan.count kTblRejectCount 1
    Plan.note 3 (rejectWord d.slot reason 0)
    Plan.stop 0x0150
  else if mono.1 ≠ 0 then do
    Plan.count kTblRejectCount 1
    Plan.note 3 (rejectWord d.slot mono.1 mono.2)
    Plan.stop 0x0151
  else pure image

/-! ## RMS -/

/-- σ of R118 step 1. -/
def rmsSigma (xs : List Val) : Val := pairwise extAdd .zero (xs.map (fun x => Val.mul x x))

/-- μ + `EPS` (R118 steps 2 and 3), with an `EPS` of −0 taken as +0. -/
def rmsBase (d : RowDesc) (xs : List Val) : Val :=
  Val.add 0 (toExt (Val.div (rmsSigma xs) (.ofNat d.cols))) (decodeNum fFP32 d.fb)

/-- ρ of R118 step 3. -/
def rmsRho (d : RowDesc) (xs : List Val) : Val := toExt (Val.rsqrt (rmsBase d xs))

def rowNotFinite (xs : List Val) : Bool := xs.any (fun x => !x.isFinite)

/-- Beats of an RMS op (R126, R188). -/
def rmsBeats (d : RowDesc) (perBeat : Nat) : Nat := d.rows * max (ceilDiv d.cols perBeat) 4 + 4

def rdGamma (E : Env) (d : RowDesc) : Plan (List Val) :=
  if d.g = 0 then pure (List.replicate d.cols .one) else rdVals E d.g d.gFmt 0 d.cols

/-- The elements that RMS writes for a row, and the counter of R119 that it increments. -/
def rmsRow (d : RowDesc) (gamma xs : List Val) : List Val × Option Nat :=
  if rowNotFinite xs then (xs.map (fun _ => Val.nan), some kRmsNanRowCount)
  else if (rmsBase d xs).isZero then (xs.map (fun _ => Val.zero), some kRmsZeroRowCount)
  else ((xs.zip gamma).map (fun p => Val.mul (Val.mul p.1 (rmsRho d xs)) p.2), none)

/-- RMS (R118, R119). -/
def rmsPlan (E : Env) (T : List BankRef) (x : Nat) : Plan Unit := do
  let d ← rowIssue E T .rms x
  vectorBeats E (rmsBeats d 512)
  let gamma ← rdGamma E d
  (List.range d.rows).forM (fun r => do
    let xs ← xRow E d r
    let out := rmsRow d gamma xs
    wrRow E d d.y 0 r out.1
    match out.2 with
    | some k => Plan.count k 1
    | none => pure ())

/-- a of R187 step 3. -/
def rmsA (d : RowDesc) (gamma xs dys : List Val) : Val :=
  let rho := rmsRho d xs
  let c := pairwise extAdd .zero ((xs.zip (gamma.zip dys)).map (fun p => toExt (Val.mul (Val.mul p.1 p.2.1) p.2.2)))
  toExt (Val.div (Val.mul (Val.mul (Val.mul rho rho) rho) c) (.ofNat d.cols))

/-- dx of a row (R187 step 4, R188) and the addends of its dγ slots, or none where no addend is sent. -/
def rmsBackRow (d : RowDesc) (gamma xs dys : List Val) : List Val × Option (List Val) × Option Nat :=
  if rowNotFinite xs then (xs.map (fun _ => Val.nan), some (xs.map (fun _ => Val.nan)), some kRmsNanRowCount)
  else if (rmsBase d xs).isZero then (xs.map (fun _ => Val.zero), none, some kRmsZeroRowCount)
  else
    let rho := rmsRho d xs
    let a := rmsA d gamma xs dys
    ((xs.zip (gamma.zip dys)).map (fun p => Val.sub d.rnd (Val.mul (Val.mul rho p.2.1) p.2.2) (Val.mul p.1 a)),
      some ((xs.zip dys).map (fun p => Val.mul (Val.mul p.2 p.1) rho)), none)

/-- RMS backward (R186 to R188). -/
def rmsBackwardPlan (E : Env) (T : List BankRef) (x : Nat) : Plan Unit := do
  let d ← rowIssue E T .rmsBackward x
  vectorBeats E (rmsBeats d 256)
  let gamma ← rdGamma E d
  (List.range d.rows).forM (fun r => do
    let xs ← xRow E d r
    let dys ← rdVals E (d.aux1 + r * d.yPitch) d.yFmt 0 d.cols
    let out := rmsBackRow d gamma xs dys
    wrRow E d d.y 0 r out.1
    match out.2.2 with
    | some k => Plan.count k 1
    | none => pure ()
    match out.2.1 with
    | some as => if d.aux2 ≠ 0 then scatter E d.aux2 (pow2Exp (decodeNum fFP32 d.fc)) as else pure ()
    | none => pure ())

/-! ## SMX and the row statistics of the soft-maximum stage -/

/-- The running statistics of a row: M as an integer, none for −∞, and l (R121). -/
structure RowStat where
  m : Option Int := none
  l : Val := .zero
deriving DecidableEq, Repr, Inhabited

/-- p = 2^(z − M), rounded to the extended form (R121 step 2); none is a masked element. -/
def expOf (image : Nat) (m : Int) (z : Option Val) : Val :=
  match z with
  | none => .zero
  | some v => toExt (tblEval image (Val.sub 0 v (.ofInt m)))

/-- The largest of a chunk's unmasked scores, rounded up. -/
def chunkCeil (zs : List (Option Val)) : Option Int :=
  zs.foldl (fun a z =>
    match a, z with
    | none, some v => some (Val.ceil v)
    | some k, some v => some (max k (Val.ceil v))
    | a, none => a) none

/-- One chunk of a row's statistics (R121). -/
def statChunk (image : Nat) (st : RowStat) (zs : List (Option Val)) : RowStat :=
  match chunkCeil zs with
  | none => st
  | some c =>
    let m' := match st.m with | none => c | some m => max m c
    let q := pairwise extAdd .zero (zs.map (expOf image m'))
    let old := match st.m with | none => Val.zero | some m => toExt (Val.scale st.l (m - m'))
    { m := some m', l := extAdd old q }

/-- A list cut into chunks of `k`. -/
def chunksOf {α : Type} (k : Nat) : Nat → List α → List (List α)
  | 0, _ => []
  | n + 1, l => l.take k :: chunksOf k n (l.drop k)

def rowStats (image : Nat) (zs : List (Option Val)) : RowStat :=
  (chunksOf 128 (ceilDiv zs.length 128) zs).foldl (statChunk image) {}

/-- λ = M + log2(l) before rounding (R123); an empty row has −∞ (R124). `rnd` decides the sign of an exact zero (R36). -/
def lambdaOf (rnd image2 : Nat) (st : RowStat) : Val :=
  match st.m with
  | none => .inf true
  | some m => Val.add rnd (.ofInt m) (tblEval image2 st.l rnd)

/-- What SMX makes of one row's scores, of which the first `len` count (R120 to R125): its elements, λ, and the counter it
increments. -/
def smxRow (d : RowDesc) (image image2 : Nat) (zs : List Val) : List Val × Val × Option Nat :=
  let pad := List.replicate (d.cols - zs.length) Val.zero
  if zs.any (fun z => z.isNan || z == .inf false) then (zs.map (fun _ => Val.nan) ++ pad, .nan, some kSmxNanRowCount)
  else
    let ms := zs.map (fun z => if z.isFinite then some z else none)
    let st := rowStats image ms
    match st.m with
    | none => (zs.map (fun _ => Val.zero) ++ pad, .inf true, some kEmptyRowCount)
    | some m =>
      (ms.map (fun z => match z with | none => Val.zero | some _ => Val.div (expOf image m z) st.l) ++ pad,
        lambdaOf d.rnd image2 st, none)

/-- SMX (R120 to R125). λ is rounded as an output of the op, under its `RND`, `OVF` and the sign rule of the special-function
unit (R33, R34, R36, R123). A row counts once it is written (R133). -/
def smxPlan (E : Env) (T : List BankRef) (x : Nat) : Plan Unit := do
  let d ← rowIssue E T .smx x
  vectorBeats E (ceilDiv (d.rows * d.cols) 128)
  (List.range d.rows).forM (fun r => do
    let len ← if d.aux1 = 0 then pure d.cols else do pure (min (← rdNat E (d.aux1 + 4 * r) 4) d.cols)
    let xs ← rdVals E (d.x + r * d.xPitch) d.xFmt 0 len
    let out := smxRow d (imageOf T d.slot) (imageOf T d.slot2) (xs.map (fun v => Val.mul v (decodeNum fFP32 d.fa)))
    allOrNone (do
      wrRow E d d.y 0 r out.1
      if d.aux2 ≠ 0 then wrVals E (d.aux2 + 4 * r) fFP32 (rowRnd E d 1) r 0 [out.2.1]
      else pure ())
    match out.2.2 with
    | some k => Plan.count k 1
    | none => pure ())

/-! ## VEC -/

/-- One element of a lane operation (R33, R38, R39). -/
def vecElem (v : VecFields) (x g : Val) : Val :=
  let truth (b : Bool) : Val := if b then .one else .zero
  match v.fn with
  | 0 => truth (Val.eqv x g)
  | 1 => truth (!Val.eqv x g)
  | 2 => truth (Val.lt x g)
  | 3 => truth (Val.le x g)
  | 4 => truth (Val.lt g x)
  | 5 => truth (Val.le g x)
  | 6 => Val.max x g
  | 7 => Val.min x g
  | 8 => Val.add v.rnd x g
  | 9 => Val.sub v.rnd x g
  | 10 => Val.mul x g
  | 11 => Val.div x g
  | 12 => Val.sqrt x
  | _ => x

/-- Operations with a second operand. -/
def vecBinary (fn : Nat) : Bool := decide (fn ≤ 11)

def vecReduces (fn : Nat) : Bool := fn = 13 || fn = 14

/-- Formats that the vector unit takes (R20). -/
def vectorFmt (f : Nat) : Bool := decide (f ≤ 8) || f = fINT32 || f = fE8M0

def vecRnd (E : Env) (v : VecFields) : Rnd :=
  { rnd := v.rnd, ovf := v.ovf, seed := v.seed, tag := v.tag, keepNeg := E.keepNeg }

/-- A partial sum of a row: its value, and whether an addition below it overflowed or replaced a NaN. -/
abbrev RowSum := Val × Bool × Bool

/-- One addition of a row sum, rounded to the output format (R34, R35, R117, log 14). -/
def addRound (v : VecFields) (R : Rnd) (r : Nat) (a b : RowSum) : RowSum :=
  let e := encodeNum v.yFmt R r (Val.add v.rnd a.1 b.1)
  (decodeNum v.yFmt e.code, a.2.1 || b.2.1 || e.ovf, a.2.2 || b.2.2 || e.sub)

/-- The reduction of a row in the pairwise order (R117). The element counts once where its conversion or an addition
overflowed, and once where one replaced a NaN. -/
def vecReduce (v : VecFields) (R : Rnd) (r : Nat) (xs : List Val) : Enc :=
  if v.fn = 14 then encodeNum v.yFmt R r (pairwise Val.max (.inf true) xs)
  else
    let s := pairwise (addRound v R r) (Val.zero, false, false) (xs.map (fun x => (x, false, false)))
    let e := encodeNum v.yFmt R r s.1
    { e with ovf := e.ovf || s.2.1, sub := e.sub || s.2.2 }

/-- VEC (R33, R37 to R39, R117): lane operations, conversions and row reductions, with the fields of log 14. -/
def vecPlan (E : Env) (v : VecFields) : Plan Unit := do
  Plan.need (decide (v.rnd ≤ 5) && decide (v.fn ≤ 15) && vectorFmt v.xFmt && vectorFmt v.yFmt &&
    (!vecBinary v.fn || vectorFmt v.gFmt)) 0x0131
  Plan.need (v.rows != 0 && v.cols != 0) 0x0310
  vectorBeats E (ceilDiv (v.rows * v.cols) 1024)
  (List.range v.rows).forM (fun r => do
    let xs ← rdVals E (v.xAddr + r * v.xPitch) v.xFmt 0 v.cols
    let gs ← if vecBinary v.fn then rdVals E (v.gAddr + r * v.gPitch) v.gFmt 0 v.cols else pure xs
    let row := v.yAddr + r * v.yPitch
    allOrNone (
      if vecReduces v.fn then do
        let c ← emit (vecReduce v (vecRnd E v) r xs)
        wrCodes E row v.yFmt 0 [c]
      else wrVals E row v.yFmt (vecRnd E v) (r * v.cols) 0 ((xs.zip gs).map (fun p => vecElem v p.1 p.2))))

end Sys2Proof.Machine
end

