-- ==== Sys2Proof/Machine/Att.lean ====
section
/-! DEFINITION. ATT, the attention pipeline (R135 to R166). -/

namespace Sys2Proof.Machine

/-- The ATT descriptor (R161), which ATG shares (R189), with the ATG fields of R197. -/
structure AttDesc where
  scaleLog2 : Nat
  oHstride : Nat
  kvHstride : Nat
  qHstride : Nat
  oPitch : Nat
  vPitch : Nat
  kPitch : Nat
  qPitch : Nat
  seqs : Nat
  qHeads : Nat
  kvGroup : Nat
  vDim : Nat
  headDim : Nat
  tileM : Nat
  maskMode : Nat
  segEn : Bool
  paged : Bool
  partIn : Bool
  partOut : Bool
  ovf : Nat
  rnd : Nat
  oFmt : Nat
  pFmt : Nat
  vFmt : Nat
  kFmt : Nat
  qFmt : Nat
  slot2 : Nat
  slot : Nat
  oScale : Nat
  atg : Nat
  aux : Nat
  len : Nat
  o : Nat
  v : Nat
  k : Nat
  q : Nat
deriving DecidableEq, Repr, Inhabited

def attDesc (x : Nat) : AttDesc :=
  { scaleLog2 := fld x 1023 992, oHstride := fld x 991 960, kvHstride := fld x 959 928, qHstride := fld x 927 896
    oPitch := fld x 895 864, vPitch := fld x 863 832, kPitch := fld x 831 800, qPitch := fld x 799 768
    seqs := fld x 767 752, qHeads := fld x 751 743, kvGroup := fld x 742 738, vDim := fld x 737 728
    headDim := fld x 727 718, tileM := fld x 717 716, maskMode := fld x 715 714, segEn := bit x 713, paged := bit x 712
    partIn := bit x 711, partOut := bit x 710, ovf := fld x 709 709, rnd := fld x 708 706, oFmt := fld x 705 701
    pFmt := fld x 700 696, vFmt := fld x 695 691, kFmt := fld x 690 686, qFmt := fld x 685 681, slot2 := fld x 680 677
    slot := fld x 676 673, oScale := fld x 671 640, atg := fld x 639 512, aux := fld x 503 448, len := fld x 439 384
    o := fld x 375 320, v := fld x 311 256, k := fld x 247 192, q := fld x 183 128 }

/-- Reserved bits of the descriptor; bits [639:512] hold the ATG fields in ATG. -/
def attReservedOk (atg : Bool) (x : Nat) : Bool :=
  zeroAt x [(672, 672), (511, 504), (447, 440), (383, 376), (319, 312), (255, 248), (191, 184)] &&
    (if atg then zeroAt x [(590, 512)] else zeroAt x [(639, 512)])

/-- The auxiliary block (R162), with bits [383:0] as ATG uses them. -/
structure AttAux where
  causalT : Nat := 0
  globals : Nat := 0
  gridW : Nat := 0
  gridH : Nat := 0
  gridT : Nat := 0
  winW : Nat := 0
  winH : Nat := 0
  winT : Nat := 0
  brickW : Nat := 0
  brickH : Nat := 0
  brickT : Nat := 0
  winCausal : Bool := false
  globalAll : Bool := false
  page : Nat := 0
  kseg : Nat := 0
  qseg : Nat := 0
  lse : Nat := 0
  state : Nat := 0
  opart : Nat := 0
  grad : Nat := 0
deriving DecidableEq, Repr, Inhabited

def attAux (x : Nat) : AttAux :=
  { causalT := fld x 895 880, globals := fld x 879 864, gridW := fld x 863 848, gridH := fld x 847 832
    gridT := fld x 831 816, winW := fld x 815 808, winH := fld x 807 800, winT := fld x 799 792, brickW := fld x 791 789
    brickH := fld x 788 786, brickT := fld x 785 783, winCausal := bit x 782, globalAll := bit x 781
    page := fld x 759 704, kseg := fld x 695 640, qseg := fld x 631 576, lse := fld x 567 512, state := fld x 503 448
    opart := fld x 439 384, grad := fld x 383 0 }

def attAuxReservedOk (atg : Bool) (x : Nat) : Bool :=
  zeroAt x [(1023, 896), (780, 760), (703, 696), (639, 632), (575, 568), (511, 504), (447, 440)] &&
    (if atg then zeroAt x [(383, 376), (319, 312), (255, 248), (63, 0)] else zeroAt x [(383, 0)])

/-- An entry of the length table (R149). -/
structure SeqEnt where
  reserved : Bool
  kvPos : Nat
  qPos : Nat
  kvLen : Nat
  kvStart : Nat
  qLen : Nat
  qStart : Nat
deriving DecidableEq, Repr, Inhabited

def seqEnt (x : Nat) : SeqEnt :=
  { reserved := fld x 255 192 != 0, kvPos := fld x 191 160, qPos := fld x 159 128, kvLen := fld x 127 96
    kvStart := fld x 95 64, qLen := fld x 63 32, qStart := fld x 31 0 }

/-- Bytes of an element. -/
def elemBytes (fmt : Nat) : Nat := fmtBits fmt / 8

/-- Everything an ATT or ATG has read at its start. -/
structure AttJob where
  d : AttDesc
  A : AttAux
  ents : List SeqEnt
  exp2 : Nat
  log2 : Nat
deriving DecidableEq, Repr, Inhabited

def AttDesc.kvHeads (d : AttDesc) : Nat := d.qHeads / d.kvGroup
def AttDesc.tile (d : AttDesc) : Nat := 128 * (d.tileM + 1)
def AttDesc.kRow (d : AttDesc) : Nat := d.headDim * elemBytes d.kFmt
def AttDesc.vRow (d : AttDesc) : Nat := d.vDim * elemBytes d.vFmt

/-- PP of R150. -/
def AttDesc.pp (d : AttDesc) : Nat := 65536 / (d.kRow + d.vRow)

def AttDesc.exactA (d : AttDesc) : Bool := pathExact d.qFmt d.kFmt
def AttDesc.exactB (d : AttDesc) : Bool := pathExact d.pFmt d.vFmt

/-! ## Checks at start (R164) -/

/-- λ is written by an op that does not end in partials (R142, R156). -/
def AttDesc.lambda (d : AttDesc) (A : AttAux) : Bool := A.lse != 0 && !d.partOut

def attFormatsOk (d : AttDesc) : Bool :=
  gradFmt' d.qFmt && gradFmt' d.kFmt && gradFmt' d.vFmt && (d.pFmt == fE4M3 || d.pFmt == fBF16) && decide (d.rnd ≤ 4) &&
    (if d.partOut then d.oFmt == fEXT128 else decide (d.oFmt ≤ 4))
where gradFmt' (f : Nat) : Bool := decide (1 ≤ f) && decide (f ≤ 4)

/-- The addresses of the auxiliary block that the op needs (R164). -/
def attAuxOk (d : AttDesc) (A : AttAux) : Bool :=
  (!d.paged || A.page != 0) && (!d.segEn || (A.qseg != 0 && A.kseg != 0)) &&
    (!(d.partIn || d.partOut) || A.state != 0) && (!d.partIn || A.opart != 0)

/-- 0x0141 of R164. The chapter does not say whether a head stride is used where the op has one head: DESIGN CHOICE, it is always
checked (log 76). -/
def attAlignOk (d : AttDesc) (A : AttAux) : Bool :=
  let pitch (p w : Nat) : Bool := aligned p 16 && decide (w ≤ p)
  [d.q, d.k, d.v, d.o, A.opart].all (aligned · 16) && pitch d.qPitch (d.headDim * elemBytes d.qFmt) &&
    pitch d.oPitch (max (d.vDim * elemBytes d.oFmt) (if d.partIn then 16 * d.vDim else 0)) &&
    aligned d.qHstride 16 && aligned d.oHstride 16 &&
    (d.paged || (pitch d.kPitch d.kRow && pitch d.vPitch d.vRow && aligned d.kvHstride 16)) &&
    aligned d.len 32 && aligned A.state 32 && aligned A.page 8 && aligned A.lse 4 && aligned A.kseg 2 && aligned A.qseg 2

/-- 0x0160 of R164, less the limit of output blocks. R161 wants the fields of contiguous K and V zero under `KV_PAGED` = 1, and
the chapter names no code: DESIGN CHOICE, a non-zero one gives 0x0160 (log 76). -/
def attShapeOk (d : AttDesc) : Bool :=
  let dim (n : Nat) : Bool := decide (16 ≤ n) && decide (n ≤ 512) && n % 16 == 0
  let s := decodeNum fFP32 d.scaleLog2
  decide (1 ≤ d.seqs) && decide (d.seqs ≤ 4096) && decide (1 ≤ d.qHeads) && decide (d.qHeads ≤ 256) &&
    decide (1 ≤ d.kvGroup) && decide (d.kvGroup ≤ 16) && d.qHeads % d.kvGroup == 0 && dim d.headDim && dim d.vDim &&
    s.isFinite && Val.lt .zero s && (decodeNum fFP32 d.oScale).isFinite && !(d.segEn && d.paged) &&
    (!d.paged || (65536 % (d.kRow + d.vRow) == 0 && isPow2Nat d.pp && decide (16 ≤ d.pp) && decide (d.pp ≤ 4096) &&
      d.k == 0 && d.v == 0 && d.kPitch == 0 && d.vPitch == 0 && d.kvHstride == 0))
where isPow2Nat (n : Nat) : Bool := n != 0 && n == 2 ^ Nat.log2 n

def outputBlocksOk (d : AttDesc) : Bool := decide ((d.tileM + 1) * ceilDiv d.vDim 128 ≤ 5)

/-- 0x0161 of R164. -/
def attMaskOk (d : AttDesc) (A : AttAux) : Bool :=
  let grid := A.globals == 0 && A.gridW == 0 && A.gridH == 0 && A.gridT == 0 && A.brickW == 0 && A.brickH == 0 &&
    A.brickT == 0 && !A.globalAll
  let win := A.winW == 0 && A.winH == 0 && A.winT == 0 && !A.winCausal
  let shape := A.brickT + A.brickH + A.brickW == 7 && A.gridT != 0 && A.gridH != 0 && A.gridW != 0
  match d.maskMode with
  | 2 => win && shape && A.causalT != 0 && A.causalT % 2 ^ A.brickT == 0
  | 3 => shape && A.causalT == 0
  | _ => grid && win && A.causalT == 0

/-- The region of rows with heads. -/
def headRegion (base rows pitch heads hstride width : Nat) : Nat × Nat :=
  if rows = 0 ∨ heads = 0 ∨ width = 0 then (base, base)
  else (base, base + (rows - 1) * pitch + (heads - 1) * hstride + width)

def spanOf (base n : Nat) : Nat × Nat := if base = 0 then (0, 0) else (base, base + n)

/-- Rows of queries and of keys that the length table reaches; an entry without queries or keys reaches none of them. -/
def maxRow (ents : List SeqEnt) : Nat × Nat :=
  (ents.foldl (fun a e => if e.qLen = 0 then a else max a (e.qStart + e.qLen)) 0,
   ents.foldl (fun a e => if e.kvLen = 0 then a else max a (e.kvStart + e.kvLen)) 0)

/-- Regions that ATT and ATG read, partials and records aside. -/
def attReads (d : AttDesc) (A : AttAux) (ents : List SeqEnt) : List (Nat × Nat) :=
  let m := maxRow ents
  let pages := ents.foldl (fun a e => if e.kvLen = 0 then a else max a (e.kvStart + ceilDiv e.kvLen d.pp * d.kvHeads)) 0
  [headRegion d.q m.1 d.qPitch d.qHeads d.qHstride (d.headDim * elemBytes d.qFmt), spanOf d.len (32 * d.seqs),
   spanOf d.aux 128] ++
  (if d.paged then [spanOf A.page (8 * pages)]
   else [headRegion d.k m.2 d.kPitch d.kvHeads d.kvHstride d.kRow, headRegion d.v m.2 d.vPitch d.kvHeads d.kvHstride d.vRow]) ++
  (if d.segEn then [spanOf A.qseg (2 * m.1), spanOf A.kseg (2 * m.2)] else [])

/-- 0x0145 of R164. -/
def attOverlapOk (d : AttDesc) (A : AttAux) (ents : List SeqEnt) : Bool :=
  let m := maxRow ents
  let O := headRegion d.o m.1 d.oPitch d.qHeads d.oHstride (d.vDim * elemBytes d.oFmt)
  let recs := spanOf A.state (32 * m.1 * d.qHeads)
  let outRec := if d.partOut then recs else (0, 0)
  let outLse := if d.lambda A then spanOf A.lse (4 * m.1 * d.qHeads) else (0, 0)
  let reads := attReads d A ents
  let P := if d.partIn then headRegion A.opart m.1 d.oPitch d.qHeads d.oHstride (16 * d.vDim) else (0, 0)
  let inRec := if d.partIn then recs else (0, 0)
  let both := d.partIn && d.partOut
  !([O, outRec, outLse].any (fun o => reads.any (overlaps o))) &&
    ((both && A.opart == d.o) || !overlaps O P) && !overlaps outRec P && !overlaps outLse P &&
    !overlaps O inRec && (both || !overlaps outRec inRec) && !overlaps outLse inRec

/-- The slots with the class each must have (R164): the LOG2 slot where λ is written and where the op writes a partial
(DEDUCED, log 32). -/
def attSlots (d : AttDesc) (A : AttAux) : List (Nat × Nat) :=
  (d.slot, 1) :: (if d.lambda A || d.partOut then [(d.slot2, 2)] else [])

def slotChecks (E : Env) (T : List BankRef) (slots : List (Nat × Nat)) : Plan Unit := do
  Plan.need (slots.all (fun s => ownedBy T E.ctx s.1)) 0x0152
  Plan.need (slots.all (fun s => bankFull T s.1)) 0x0153
  Plan.need (slots.all (fun s => (tblHdr (imageOf T s.1)).cls == s.2)) 0x0154

/-- The length table, read once at the op's start (R149). -/
def rdEnts (E : Env) (d : AttDesc) : Plan (List SeqEnt) := do
  let bs ← rdHeld E false d.len (32 * d.seqs)
  pure ((List.range d.seqs).map (fun i => seqEnt (leNat ((bs.drop (32 * i)).take 32))))

/-- The auxiliary block, if there is one. -/
def rdAttAux (E : Env) (atg : Bool) (d : AttDesc) : Plan AttAux := do
  if d.aux = 0 then pure {}
  else
    let ax ← rdHeldRec E d.aux 128
    Plan.need (attAuxReservedOk atg ax) 0x0104
    pure (attAux ax)

/-- Checks at start (R164); the manual gives no order among them (log 32). -/
def attIssue (E : Env) (T : List BankRef) (x : Nat) : Plan AttJob := do
  let d := attDesc x
  Plan.need (attReservedOk false x) 0x0104
  Plan.need (attFormatsOk d) 0x0131
  Plan.need (d.len != 0 && aligned d.aux 128 &&
    (d.aux != 0 || !(decide (2 ≤ d.maskMode) || d.segEn || d.paged || d.partIn || d.partOut))) 0x0144
  let A ← rdAttAux E false d
  Plan.need (attAuxOk d A) 0x0144
  Plan.need (attAlignOk d A) 0x0141
  Plan.need (attShapeOk d && outputBlocksOk d) 0x0160
  Plan.need (attMaskOk d A) 0x0161
  let ents ← rdEnts E d
  Plan.need (attOverlapOk d A ents) 0x0145
  slotChecks E T (attSlots d A)
  Plan.need (ents.any (fun e => e.qLen != 0)) 0x0310
  pure ⟨d, A, ents, imageOf T d.slot, imageOf T d.slot2⟩

/-! ## Brick order and masks (R144 to R148) -/

/-- The role of a position: a global token, a hole, or a video token in a brick. -/
inductive Role where
  | global
  | hole
  | video (t bt bh bw : Nat)
  | plain
deriving DecidableEq, Repr, Inhabited

def gPad (A : AttAux) : Nat := 128 * ceilDiv A.globals 128

/-- The layout end (R144). -/
def layoutEnd (A : AttAux) : Nat :=
  gPad A + 128 * ceilDiv A.gridT (2 ^ A.brickT) * ceilDiv A.gridH (2 ^ A.brickH) * ceilDiv A.gridW (2 ^ A.brickW)

/-- The role of a position (R144): the inverse of `token_position`. -/
def roleOf (mode : Nat) (A : AttAux) (p : Nat) : Role :=
  if mode < 2 then .plain
  else if p < A.globals then .global
  else if p < gPad A then .hole
  else
    let nh := ceilDiv A.gridH (2 ^ A.brickH)
    let nw := ceilDiv A.gridW (2 ^ A.brickW)
    let b := (p - gPad A) / 128
    let inner := (p - gPad A) % 128
    let bt := b / (nh * nw)
    let bh := b / nw % nh
    let bw := b % nw
    let t := bt * 2 ^ A.brickT + inner / (2 ^ A.brickH * 2 ^ A.brickW)
    let h := bh * 2 ^ A.brickH + inner / 2 ^ A.brickW % 2 ^ A.brickH
    let w := bw * 2 ^ A.brickW + inner % 2 ^ A.brickW
    if A.gridT ≤ t ∨ A.gridH ≤ h ∨ A.gridW ≤ w then .hole else .video t bt bh bw

def dist (a b : Nat) : Nat := if a ≤ b then b - a else a - b

/-- R146. -/
def maskAllows (mode : Nat) (A : AttAux) (qp : Nat) (qr : Role) (kp : Nat) (kr : Role) : Bool :=
  match mode with
  | 0 => true
  | 1 => decide (kp ≤ qp)
  | _ =>
    match kr, qr with
    | .global, _ => true
    | _, .global => A.globalAll
    | .video tk bt bh bw, .video tq ct ch cw =>
      if mode = 2 then decide (tk / A.causalT ≤ tq / A.causalT)
      else decide (dist bt ct ≤ A.winT) && decide (dist bh ch ≤ A.winH) && decide (dist bw cw ≤ A.winW) &&
        (!A.winCausal || decide (bt ≤ ct))
    | _, _ => false

/-- Segment marks (R147). -/
def rdMarks (E : Env) (on : Bool) (base first n : Nat) : Plan (List Nat) := do
  if !on ∨ n = 0 then pure []
  else
    let bs ← rd E (base + 2 * first) (2 * n)
    pure ((List.range n).map (fun i => leNat ((bs.drop (2 * i)).take 2)))

/-- Keys unmasked for query row `t` (R148). -/
def unmasked (J : AttJob) (e : SeqEnt) (qm km : List Nat) (t : Nat) : List Nat :=
  let mode := J.d.maskMode
  let qr := roleOf mode J.A (e.qPos + t)
  if qr = .hole then []
  else (List.range e.kvLen).filter (fun j =>
    let kr := roleOf mode J.A (e.kvPos + j)
    kr != .hole && maskAllows mode J.A (e.qPos + t) qr (e.kvPos + j) kr && (!J.d.segEn || qm.getD t 0 == km.getD j 0))

/-! ## Reading queries and keys (R150) -/

/-- Where K and V rows of key `j` stand; a page list is read on the narrow path (R277), and a bad entry withholds the sequence
(R165). -/
def kvAddr (E : Env) (J : AttJob) (e : SeqEnt) (g j : Nat) : Plan (Nat × Nat) := do
  let d := J.d
  if d.paged then
    let page := leNat (← rdN E true (J.A.page + 8 * (e.kvStart + (j / d.pp) * d.kvHeads + g)) 8)
    Plan.need (page != 0 && aligned page 65536) 0x10164
    let s := j % d.pp
    pure (page + s * d.kRow, page + d.pp * d.kRow + s * d.vRow)
  else
    pure (d.k + (e.kvStart + j) * d.kPitch + g * d.kvHstride, d.v + (e.kvStart + j) * d.vPitch + g * d.kvHstride)

structure KeyRow where
  j : Nat
  k : List Val
  v : List Val
deriving DecidableEq, Repr, Inhabited

def rdKey (E : Env) (J : AttJob) (e : SeqEnt) (g j : Nat) : Plan KeyRow := do
  let a ← kvAddr E J e g j
  let k ← rdVals E a.1 J.d.kFmt 0 J.d.headDim
  let v ← rdVals E a.2 J.d.vFmt 0 J.d.vDim
  pure ⟨j, k, v⟩

def rdQuery (E : Env) (J : AttJob) (row h : Nat) : Plan (List Val) :=
  rdVals E (J.d.q + row * J.d.qPitch + h * J.d.qHstride) J.d.qFmt 0 J.d.headDim

/-- A sum of products in ascending index: exact, or rounded at each step on the extended path (R42, R49). -/
def vdot (exact : Bool) (as bs : List Val) : Val :=
  ((as.zip bs).foldl (fun (a : Option Val) p =>
    let q := Val.mul p.1 p.2
    match a with
    | none => some (if exact then q else toExt q)
    | some x => some (if exact then Val.add 0 x q else toExt (Val.add 0 x q))) none).getD .zero

/-! ## Rows (R139 to R142, R153 to R157) -/

/-- A score as the stage takes it: a number, masked by the clamp, or a NaN row (R155); the second part says that it was
clamped. -/
inductive Score where
  | num (z : Val)
  | masked
  | bad
deriving DecidableEq, Repr, Inhabited

def scoreOf (z : Val) : Score × Bool :=
  let lim : Val := .fin false 1 30
  match z with
  | .nan => (.bad, false)
  | .inf neg => (if neg then .masked else .bad, false)
  | .fin _ _ _ => if Val.le lim z then (.bad, true) else if Val.le z lim.neg then (.masked, true) else (.num z, false)

/-- The state of a query row: M, l, O (or D in ATG), and whether it is a NaN row. -/
structure RowAcc where
  m : Option Int := none
  l : Val := .zero
  o : List Val := []
  nan : Bool := false
deriving DecidableEq, Repr, Inhabited

/-- The weight p̃ of a score under M (R139). -/
def weightOf (J : AttJob) (m : Int) (z : Val) : Val :=
  decodeNum J.d.pFmt (encodeNum J.d.pFmt {} 0 (tblEval J.exp2 (Val.sub 0 z (.ofInt m)))).code

/-- One chunk folded into a row (R121, R139 to R141). `live` holds the unmasked scores with their positions in the chunk;
`fold` forms C_c from the weights. The second part says that M rose after an earlier chunk, the third is the weights. -/
def foldChunk (J : AttJob) (r : RowAcc) (live : List (Nat × Val)) (fold : List Val → List Val) : RowAcc × Bool × List Val :=
  match chunkCeil (live.map (fun p => some p.2)) with
  | none => (r, false, [])
  | some c =>
    let m' := match r.m with | none => c | some m => max m c
    let ps := live.map (fun p => weightOf J m' p.2)
    let slots := (List.range 128).map (fun s => ((live.zip ps).find? (fun q => q.1.1 = s)).elim Val.zero (·.2))
    let q := pairwise extAdd .zero slots
    let cs := fold ps
    let shift (v : Val) : Val := match r.m with | none => .zero | some m => toExt (Val.scale v (m - m'))
    ({ r with m := some m', l := extAdd (shift r.l) q
              o := (cs.zip (if r.o.isEmpty then cs.map (fun _ => Val.zero) else r.o)).map (fun p => toExt (Val.add 0 (shift p.2) p.1)) },
      (match r.m with | none => false | some m => decide (m < m')), ps)

/-- Signed 32-bit M as records hold it (R158, R191): none for −∞. -/
def recordM (x : Nat) : Option Int := if x = 0x80000000 then none else some (toSigned 32 x)

def mCode (m : Option Int) : Nat := match m with | none => 0x80000000 | some v => ofSigned 32 v

/-- A row's start under `PART_IN` (R157, R158). -/
def rowStart (E : Env) (J : AttJob) (row h : Nat) : Plan RowAcc := do
  let d := J.d
  if !d.partIn then pure {}
  else
    let x ← rdRec E (J.A.state + 32 * (row * d.qHeads + h)) 32
    match extValue (fld x 127 0) with
    | none => Plan.stop 0x10163
    | some l =>
      Plan.need (fld x 223 128 == 0) 0x10163
      match recordM (fld x 255 224) with
      | none => pure {}
      | some m =>
        let os ← rdCodes E (J.A.opart + row * d.oPitch + h * d.oHstride) fEXT128 0 d.vDim
        let vs := os.map extValue
        Plan.need (vs.all Option.isSome) 0x10163
        pure { m := some m, l := l, o := vs.map (·.getD .zero), nan := l.isNan }

/-- Columns of V over the keys of a chunk. -/
def columnsOf (n : Nat) (rows : List (List Val)) : List (List Val) := transposeN .zero n rows

/-- The score z of a query against a key (R139). -/
def zOf (d : AttDesc) (q : List Val) (k : KeyRow) : Val := Val.mul (vdot d.exactA q k.k) (decodeNum fFP32 d.scaleLog2)

/-- The weights of a row's live keys, which the stage holds until array B has folded the chunk (R139). -/
abbrev Weights := List (Nat × Val)

/-- One chunk of one row: its scores against the chunk's keys, and the fold; `fold` forms C_c from the live keys with their
weights. -/
def rowChunkWith (J : AttJob) (e : SeqEnt) (fold : List (KeyRow × Val) → List Val) (q : List Val) (keys : List KeyRow)
    (r : RowAcc) : Plan (RowAcc × Weights) := do
  let scored := keys.map (fun k => (k, scoreOf (zOf J.d q k)))
  let clamps := (scored.filter (fun p => p.2.2)).length
  Plan.count kAttZClampCount clamps
  if r.nan || scored.any (fun p => p.2.1 == .bad) then pure ({ r with nan := true }, [])
  else
    let live := scored.filterMap (fun p => match p.2.1 with | .num z => some (p.1, z) | _ => none)
    let f := foldChunk J r (live.map (fun p => ((e.kvPos + p.1.j) % 128, p.2))) (fun ps =>
      fold ((live.map (·.1)).zip ps))
    if f.2.1 then Plan.count kAttMaxRiseCount 1
    pure (f.1, (live.map (fun p => p.1.j)).zip f.2.2)

/-- The forward fold: C_c = Σ p̃·v over the chunk's keys in ascending order (R140). -/
def rowChunk (J : AttJob) (e : SeqEnt) (q : List Val) (keys : List KeyRow) (r : RowAcc) : Plan (RowAcc × Weights) :=
  rowChunkWith J e (fun kp =>
    (columnsOf J.d.vDim (kp.map (fun p => p.1.v))).map (fun col => vdot J.d.exactB (kp.map (·.2)) col)) q keys r

/-- What a row writes (R142, R153 to R156). R156 fixes L alone of the partial of a NaN row: DESIGN CHOICE, its M is the one it
reached, 0 where no key has folded, and its O is NaN in every element (log 76). -/
def rowOut (E : Env) (J : AttJob) (row h : Nat) (r : RowAcc) : Plan Unit := do
  let d := J.d
  let base := d.o + row * d.oPitch + h * d.oHstride
  let idx := row * d.qHeads + h
  if d.partOut then
    let os := if r.nan then List.replicate d.vDim Val.nan else if r.o.isEmpty then List.replicate d.vDim .zero else r.o
    wrCodes E base fEXT128 0 (os.map extCode)
    let m := if r.nan && r.m.isNone then 0 else mCode r.m
    let l := if r.nan then Val.nan else r.l
    wr E (J.A.state + 32 * idx) (leBytes 32 (m * 2 ^ 224 + extCode l))
  else
    let R : Rnd := { rnd := d.rnd, ovf := d.ovf }
    -- one division of exact operands, so the quotient times the scale is rounded once
    let scale := if d.oScale = 0 then Val.one else decodeNum fFP32 d.oScale
    let ys ← if r.nan then do Plan.count kSmxNanRowCount 1; pure (List.replicate d.vDim Val.nan)
      else match r.m with
        | none => do Plan.count kEmptyRowCount 1; pure (List.replicate d.vDim Val.zero)
        | some _ => pure (r.o.map (fun o => Val.div (Val.mul o scale) r.l))
    wrVals E base d.oFmt R 0 0 ys
    if d.lambda J.A then
      let lam := if r.nan then Val.nan else lambdaOf d.rnd J.log2 { m := r.m, l := r.l }
      wrVals E (J.A.lse + 4 * idx) fFP32 { rnd := d.rnd, ovf := d.ovf, keepNeg := true } idx 0 [lam]
    else pure ()

/-! ## Tiles, heads and sequences -/

/-- Checks planes of one product before they are used (R138, R141), each with its own re-run (R67). The chapter gives these
planes no numbers: DESIGN CHOICE, `PLANE` of `CKS_LAST_LOC` is 0 (log 76). -/
def checkPlanes (E : Env) (exact : Bool) (bay arr : Nat) (planes : List CksPlane) (again : Plan (List CksPlane)) : Plan Unit :=
  if exact then
    ((List.range planes.length).zip planes).forM (fun p => do
      let _ ← cksTile2 E true false bay arr (fun P => [(0, P)]) (pure p.2) (do pure ((← again).getD p.1 p.2))
      pure ())
  else pure ()

/-- Beats of one plane of array A, and of one chunk plane of array B (R160). -/
def scoreBeats (d : AttDesc) : Nat := ceilDiv d.headDim (rankOf d.qFmt d.kFmt)
def foldBeats (d : AttDesc) : Nat := ceilDiv 128 (rankOf d.pFmt d.vFmt)

/-- A row of a query tile: its number, its unmasked keys, what has been read for it, and its state. -/
structure TileRow (β : Type) where
  t : Nat
  keys : List Nat
  input : β
  acc : RowAcc

/-- What a query tile does with its rows: how a row is read, its part of the score plane, its fold, and array B's product, with
its window base, path and beats for one plane. -/
structure TileOps (β : Type) where
  read : Nat → Plan β
  query : β → List Val
  fold : β → List KeyRow → RowAcc → Plan (RowAcc × Weights)
  bExact : Bool
  bBase : Int
  bRow : β → Weights → List KeyRow → List Val
  bCols : List KeyRow → List (List Val)
  bBeats : Nat
  bPlanes : Nat

/-- The score planes of some rows against the keys of a chunk (R138). -/
def scorePlanes (d : AttDesc) (qs : List (List Val)) (keys : List KeyRow) : List CksPlane :=
  productPlanes (factorLo d.qFmt + factorLo d.kFmt) qs (keys.map (·.k))

/-- One key chunk of a query tile: the planes of the q-blocks that have an unmasked key, checked and re-run as R66 and R67 say,
and every row's fold (R137 to R141, R151). A re-run reads its operands again, array B's from the held weights (R141). -/
def tileChunk {β : Type} (E : Env) (J : AttJob) (e : SeqEnt) (bay g t0 : Nat) (ops : TileOps β) (ch : Nat)
    (rows : List (TileRow β)) : Plan (List (TileRow β)) := do
  let d := J.d
  let mine (ks : List Nat) : List Nat := ks.filter (fun j => (e.kvPos + j) / 128 = ch)
  let need := ((List.range e.kvLen).filter (fun j => (e.kvPos + j) / 128 = ch)).filter
    (fun j => rows.any (fun r => r.keys.contains j))
  if need.isEmpty then pure rows
  else
    let keys ← need.mapM (rdKey E J e g)
    let blocks := (List.range (d.tileM + 1)).map (fun b => rows.filter (fun r => (r.t - t0) / 128 == b))
    let out ← blocks.mapM (fun rs =>
      if rs.all (fun r => (mine r.keys).isEmpty) then pure rs
      else do
        Plan.count kAttPlanesRun 1
        arrayBeats E bay (scoreBeats d + ops.bPlanes * ops.bBeats)
        checkPlanes E d.exactA bay 0 (scorePlanes d (rs.map (fun r => ops.query r.input)) keys) (do
          Plan.count kAttPlanesRun 1
          arrayBeats E bay (scoreBeats d)
          let qs ← rs.mapM (fun r => ops.read r.t)
          let ks ← need.mapM (rdKey E J e g)
          pure (scorePlanes d (qs.map ops.query) ks))
        let folded ← rs.mapM (fun r => do
          let ks := keys.filter (fun k => r.keys.contains k.j)
          let f ← if ks.isEmpty then pure (r.acc, []) else ops.fold r.input ks r.acc
          pure (r, f))
        let bPlanes := fun (ks : List KeyRow) =>
          productPlanes ops.bBase (folded.map (fun p => ops.bRow p.1.input p.2.2 ks)) (ops.bCols ks)
        checkPlanes E ops.bExact bay 1 (bPlanes keys) (do
          arrayBeats E bay ops.bBeats
          pure (bPlanes (← need.mapM (rdKey E J e g))))
        pure (folded.map (fun p => { p.1 with acc := p.2.1 })))
    pure out.flatten

/-- The chunks that the keys of a sequence span. -/
def chunkSpan (e : SeqEnt) : List Nat :=
  if e.kvLen = 0 then []
  else (List.range ((e.kvPos + e.kvLen - 1) / 128 - e.kvPos / 128 + 1)).map (e.kvPos / 128 + ·)

/-- Planes of a tile of `blocks` q-blocks that R151 skips: the chunks of which no key is unmasked for a q-block, and every chunk
for a q-block whose rows all lie at or beyond `Q_LEN`. -/
def skippedPlanes (e : SeqEnt) (blocks : Nat) (keys : List (List Nat)) : Nat :=
  let bs := chunksOf 128 (ceilDiv keys.length 128) keys
  (bs.map (fun b =>
    ((chunkSpan e).filter (fun ch => !b.any (fun ks => ks.any (fun j => (e.kvPos + j) / 128 = ch)))).length)).sum +
    (blocks - bs.length) * (chunkSpan e).length

/-- The rows of a query tile that are not holes (R145). -/
def tileRows (J : AttJob) (e : SeqEnt) (t0 : Nat) : List Nat :=
  ((List.range (min J.d.tile (e.qLen - t0))).map (t0 + ·)).filter
    (fun t => roleOf J.d.maskMode J.A (e.qPos + t) != .hole)

/-- What the forward op does with a row: p̃·V on array B (R140). -/
def attOps (E : Env) (J : AttJob) (e : SeqEnt) (h : Nat) : TileOps (List Val) :=
  { read := fun t => rdQuery E J (e.qStart + t) h, query := id, fold := rowChunk J e, bExact := J.d.exactB
    bBase := factorLo J.d.pFmt + factorLo J.d.vFmt
    bRow := fun _ ws ks => ks.map (fun k => ((ws.find? (fun w => w.1 = k.j)).map (·.2)).getD .zero)
    bCols := fun ks => columnsOf J.d.vDim (ks.map (·.v)), bBeats := foldBeats J.d, bPlanes := ceilDiv J.d.vDim 128 }

/-- One query tile of one head (R136). -/
def attTile (E : Env) (J : AttJob) (e : SeqEnt) (bay h t0 : Nat) (allow : List (List Nat)) : Plan Unit := do
  let d := J.d
  Plan.count kAttPlanesSkipped (skippedPlanes e (d.tileM + 1) ((allow.drop t0).take d.tile))
  let rows ← (tileRows J e t0).mapM (fun t => do
    let q ← rdQuery E J (e.qStart + t) h
    let s ← rowStart E J (e.qStart + t) h
    pure (⟨t, allow.getD t [], q, s⟩ : TileRow (List Val)))
  let out ← (chunkSpan e).foldlM (fun rs ch => tileChunk E J e bay (h / d.kvGroup) t0 (attOps E J e h) ch rs) rows
  allOrNone (out.forM (fun r => rowOut E J (e.qStart + r.t) h r.acc))

/-- The run-time checks of R165 on a length entry; a sequence without queries or keys has no position of that kind that could
reach the layout end. -/
def seqEntOk (J : AttJob) (e : SeqEnt) : Bool :=
  !e.reserved && decide (e.qPos + e.qLen ≤ 2 ^ 32) && decide (e.kvPos + e.kvLen ≤ 2 ^ 32) &&
    (decide (J.d.maskMode < 2) || (e.qPos % 128 == 0 &&
      (e.qLen == 0 || decide (e.qPos + e.qLen ≤ layoutEnd J.A)) && (e.kvLen == 0 || decide (e.kvPos + e.kvLen ≤ layoutEnd J.A))))

/-- A sequence that fails a run-time check (codes above 0xFFFF) is withheld whole, and the op goes on (R165). -/
def withhold (heads : Nat) (p : Plan Unit) : Plan Unit := do
  let before ← get
  tryCatch p (fun c => do
    if c < 2 ^ 16 then Plan.stop c
    else
      set before
      Plan.count kAttSeqWithheldCount heads
      Plan.code (c % 2 ^ 16))

/-- Runs `tile` on every query tile of every head of a sequence, with the unmasked keys of every row (R136, R147, R165). -/
def overTiles (E : Env) (J : AttJob) (e : SeqEnt) (tile : Nat → Nat → List (List Nat) → Plan Unit) : Plan Unit :=
  withhold J.d.qHeads (do
    Plan.need (seqEntOk J e) 0x10163
    if e.qLen = 0 then pure ()
    else
      let qm ← rdMarks E J.d.segEn J.A.qseg e.qStart e.qLen
      let km ← rdMarks E J.d.segEn J.A.kseg e.kvStart e.kvLen
      let allow := (List.range e.qLen).map (unmasked J e qm km)
      (List.range J.d.qHeads).forM (fun h => (starts e.qLen J.d.tile).forM (fun t0 => tile h t0 allow)))

/-- ATT (R135 to R165). -/
def attPlan (E : Env) (T : List BankRef) (x bay : Nat) : Plan Unit := do
  let J ← attIssue E T x
  J.ents.forM (fun e => overTiles E J e (attTile E J e bay))

end Sys2Proof.Machine
end

