-- ==== Sys2Proof/Machine/Atg.lean ====
section
/-! DEFINITION. ATG, attention backward: the statistics phase (R190 to R192) and the gradient phase (R193 to R199). -/

namespace Sys2Proof.Machine

/-- The ATG fields (R197). -/
structure AtgFields where
  dkvExp : Int
  dqExp : Int
  dsFmt : Nat
  dvFmt : Nat
  dkFmt : Nat
  kvScatter : Bool
  phase : Bool
  dv : Nat
  dk : Nat
  dq : Nat
  dqPitch : Nat
  dqHstride : Nat
  dkvPitch : Nat
  dkvHstride : Nat
deriving DecidableEq, Repr, Inhabited

/-- The fields from bits [639:512] of the descriptor and bits [383:0] of the auxiliary block. -/
def atgFields (a g : Nat) : AtgFields :=
  { dkvExp := toSigned 16 (fld a 127 112), dqExp := toSigned 16 (fld a 111 96), dsFmt := fld a 95 91, dvFmt := fld a 90 86
    dkFmt := fld a 85 81, kvScatter := bit a 80, phase := bit a 79, dv := fld g 375 320, dk := fld g 311 256
    dq := fld g 247 192, dqPitch := fld g 191 160, dqHstride := fld g 159 128, dkvPitch := fld g 127 96
    dkvHstride := fld g 95 64 }

structure AtgJob where
  J : AttJob
  F : AtgFields
deriving DecidableEq, Repr, Inhabited

def AttDesc.exactP (d : AttDesc) : Bool := pathExact d.oFmt d.vFmt

def atgFormatsOk (d : AttDesc) : Bool :=
  let op (f : Nat) : Bool := decide (1 ≤ f) && decide (f ≤ 4)
  op d.qFmt && op d.kFmt && op d.vFmt && op d.oFmt && (d.pFmt == fE4M3 || d.pFmt == fBF16) && decide (d.rnd ≤ 4)

/-- R196: the planes that the gradient phase needs. -/
def atgPlanesOk (d : AttDesc) : Bool :=
  let n := d.tileM + 1
  let a := ceilDiv d.headDim 128
  let b := ceilDiv d.vDim 128
  decide (n + n * a + 2 * a ≤ 16) && decide (n + n * b ≤ 16)

/-- 0x0165 of R198. -/
def atgFieldsOk (d : AttDesc) (A : AttAux) (F : AtgFields) : Bool :=
  d.slot2 == 0 && d.oScale == 0 && A.lse == 0 && A.opart == 0 && !d.paged && !d.partIn && !d.partOut &&
    (if F.phase then
      F.dq != 0 && F.dk != 0 && F.dv != 0 && decide (1 ≤ F.dsFmt) && decide (F.dsFmt ≤ 4) &&
        (if F.kvScatter then F.dkFmt == fINT64 && F.dvFmt == fINT64 else decide (F.dkFmt ≤ 2) && decide (F.dvFmt ≤ 2))
     else d.atg == 0 && A.grad == 0)

/-- The pitches and head strides that the gradient phase uses besides those of ATT (R164, R198; log 32). -/
def atgPitchOk (d : AttDesc) (F : AtgFields) : Bool :=
  [F.dqPitch, F.dqHstride, F.dkvPitch, F.dkvHstride].all (aligned · 16) && decide (8 * d.headDim ≤ F.dqPitch) &&
    decide (max (d.headDim * elemBytes F.dkFmt) (d.vDim * elemBytes F.dvFmt) ≤ F.dkvPitch)

/-- The region of the row records (R191). -/
def atgRecords (d : AttDesc) (A : AttAux) (ents : List SeqEnt) : Nat × Nat := spanOf A.state (64 * (maxRow ents).1 * d.qHeads)

/-- The regions of dK, dV and dQ (R194, R197). -/
def atgOutputs (d : AttDesc) (F : AtgFields) (ents : List SeqEnt) : (Nat × Nat) × (Nat × Nat) × (Nat × Nat) :=
  let m := maxRow ents
  (headRegion F.dk m.2 F.dkvPitch d.kvHeads F.dkvHstride (d.headDim * elemBytes F.dkFmt),
   headRegion F.dv m.2 F.dkvPitch d.kvHeads F.dkvHstride (d.vDim * elemBytes F.dvFmt),
   headRegion F.dq m.1 F.dqPitch d.qHeads F.dqHstride (8 * d.headDim))

/-- 0x0145 (R164) for ATG's outputs. -/
def atgOverlapOk (d : AttDesc) (A : AttAux) (F : AtgFields) (ents : List SeqEnt) : Bool :=
  let m := maxRow ents
  let out := atgOutputs d F ents
  let dO := headRegion d.o m.1 d.oPitch d.qHeads d.oHstride (d.vDim * elemBytes d.oFmt)
  let reads := dO :: attReads d A ents
  let recs := atgRecords d A ents
  if F.phase then
    !([out.1, out.2.1, out.2.2].any (fun o => (recs :: reads).any (overlaps o)))
  else !(reads.any (overlaps recs))

/-- Whether every page of ATG's add targets lies in HBM3E (R289); a page that does not translate is met at run time. -/
def atgTargetsOk (E : Env) (d : AttDesc) (F : AtgFields) (ents : List SeqEnt) : Bool :=
  let out := atgOutputs d F ents
  !F.phase || (allHbm E out.2.2 && (!F.kvScatter || (allHbm E out.1 && allHbm E out.2.1)))

/-- Checks at start (R164, R189, R196 to R198; log 32). -/
def atgIssue (E : Env) (T : List BankRef) (x : Nat) : Plan AtgJob := do
  let d := attDesc x
  Plan.need (attReservedOk true x) 0x0104
  Plan.need (atgFormatsOk d) 0x0131
  Plan.need (d.len != 0 && d.aux != 0 && aligned d.aux 128) 0x0144
  let A ← rdAttAux E true d
  let F := atgFields d.atg A.grad
  Plan.need (A.state != 0 && (!d.segEn || (A.qseg != 0 && A.kseg != 0))) 0x0144
  Plan.need (attAlignOk { d with paged := false, partIn := false } A && (!F.phase || atgPitchOk d F)) 0x0141
  Plan.need (attShapeOk { d with paged := false } && (!F.phase || atgPlanesOk d)) 0x0160
  Plan.need (attMaskOk d A) 0x0161
  Plan.need (atgFieldsOk d A F) 0x0165
  let ents ← rdEnts E d
  Plan.need (atgOverlapOk d A F ents) 0x0145
  Plan.need (atgTargetsOk E d F ents) 0x0146
  slotChecks E T [(d.slot, 1)]
  Plan.need (ents.any (fun e => e.qLen != 0)) 0x0310
  pure ⟨⟨d, A, ents, imageOf T d.slot, 0⟩, F⟩

def rdDo (E : Env) (J : AttJob) (row h : Nat) : Plan (List Val) :=
  rdVals E (J.d.o + row * J.d.oPitch + h * J.d.oHstride) J.d.oFmt 0 J.d.vDim

/-! ## Statistics phase -/

/-- One chunk of a row in the statistics phase: r = Σ p̃·dP in the pairwise order, folded as O is (R190). -/
def statChunkRow (J : AttJob) (e : SeqEnt) (q : List Val × List Val) (keys : List KeyRow) (r : RowAcc) : Plan (RowAcc × Weights) :=
  rowChunkWith J e (fun kp =>
    let prods := kp.map (fun p => ((e.kvPos + p.1.j) % 128, toExt (Val.mul p.2 (vdot J.d.exactP q.2 p.1.v))))
    let slots := (List.range 128).map (fun s => ((prods.find? (fun p => p.1 = s)).map (·.2)).getD Val.zero)
    [pairwise extAdd .zero slots]) q.1 keys r

/-- The row record that the statistics phase writes (R191, R192). -/
def statRecord (r : RowAcc) : Nat :=
  if r.nan then (if r.m.isNone then 0 else mCode r.m) * 2 ^ 480 + extCode .nan * 2 ^ 128 + extCode .nan
  else match r.m with
    | none => 0x80000000 * 2 ^ 480
    | some _ => mCode r.m * 2 ^ 480 + extCode r.l * 2 ^ 128 + extCode (toExt (Val.div (r.o.headD .zero) r.l))

def statOut (E : Env) (J : AttJob) (row h : Nat) (r : RowAcc) : Plan Unit := do
  if r.nan then Plan.count kSmxNanRowCount 1
  else if r.m.isNone then Plan.count kEmptyRowCount 1
  wr E (J.A.state + 64 * (row * J.d.qHeads + h)) (leBytes 64 (statRecord r))

/-- What the statistics phase does with a row: dO·V on array B (R190), with the beats of R199. -/
def statOps (E : Env) (J : AttJob) (e : SeqEnt) (h : Nat) : TileOps (List Val × List Val) :=
  { read := fun t => do
      let q ← rdQuery E J (e.qStart + t) h
      let o ← rdDo E J (e.qStart + t) h
      pure (q, o)
    query := (·.1), fold := statChunkRow J e, bExact := J.d.exactP, bBase := factorLo J.d.oFmt + factorLo J.d.vFmt
    bRow := fun q _ _ => q.2, bCols := fun ks => ks.map (·.v), bBeats := ceilDiv J.d.vDim (rankOf J.d.oFmt J.d.vFmt), bPlanes := 1 }

def statTile (E : Env) (J : AttJob) (e : SeqEnt) (bay h t0 : Nat) (allow : List (List Nat)) : Plan Unit := do
  let d := J.d
  Plan.count kAttPlanesSkipped (skippedPlanes e (d.tileM + 1) ((allow.drop t0).take d.tile))
  let ops := statOps E J e h
  let rows ← (tileRows J e t0).mapM (fun t => do pure (⟨t, allow.getD t [], ← ops.read t, {}⟩ : TileRow (List Val × List Val)))
  let out ← (chunkSpan e).foldlM (fun rs ch => tileChunk E J e bay (h / d.kvGroup) t0 ops ch rs) rows
  allOrNone (out.forM (fun r => statOut E J (e.qStart + r.t) h r.acc))

/-- ATG, statistics phase (R190 to R192). -/
def atgStatPlan (E : Env) (T : List BankRef) (x bay : Nat) : Plan Unit := do
  let G ← atgIssue E T x
  G.J.ents.forM (fun e => overTiles E G.J e (statTile E G.J e bay))

/-! ## Gradient phase -/

/-- A query row of a chunk: its number, unmasked keys, Q, dO and its record (M, l, δ). -/
structure GradRow where
  t : Nat
  keys : List Nat
  q : List Val
  o : List Val
  m : Int
  l : Val
  delta : Val
deriving DecidableEq, Repr, Inhabited

/-- The row records of a chunk's rows (R191); a malformed one withholds the sequence (R198). -/
def rdGradRow (E : Env) (J : AttJob) (e : SeqEnt) (h t : Nat) (keys : List Nat) : Plan (Option GradRow) := do
  let row := e.qStart + t
  let x ← rdRec E (J.A.state + 64 * (row * J.d.qHeads + h)) 64
  match extValue (fld x 255 128), extValue (fld x 127 0) with
  | some l, some dl =>
    Plan.need (fld x 479 256 == 0) 0x10163
    match recordM (fld x 511 480) with
    | none => pure none
    | some m => do
      let q ← rdQuery E J row h
      let o ← rdDo E J row h
      pure (some ⟨t, keys, q, o, m, l, dl⟩)
  | _, _ => Plan.stop 0x10163

/-- ln 2 in the extended form. -/
def ln2Ext : Val := .fin false 0xB17217F7D1CF79AC (-64)

/-- P and dS of one query and key pair (R193 steps 1 to 3); a masked pair gives +0. p̂ is rounded as the forward weight (R139),
P and dS under the op's `RND` and `OVF` (R33, R34). -/
def gradPair (G : AtgJob) (r : GradRow) (k : KeyRow) : Val × Val :=
  let d := G.J.d
  if !r.keys.contains k.j then (.zero, .zero)
  else
    match (scoreOf (zOf d r.q k)).1 with
    | .masked => (.zero, .zero)
    | sc =>
      let ph := match sc with | .num z => weightOf G.J r.m z | _ => Val.nan
      let round (fmt : Nat) (v : Val) : Val := decodeNum fmt (encodeNum fmt { rnd := d.rnd, ovf := d.ovf, keepNeg := true } 0 v).code
      let dP := vdot d.exactP r.o k.v
      let kappa := Val.mul (decodeNum fFP32 d.scaleLog2) ln2Ext
      (round d.pFmt (Val.div ph r.l),
        round G.F.dsFmt (Val.div (Val.mul (Val.mul kappa ph) (Val.sub 0 dP r.delta)) r.l))

/-- Adds x times a row to an accumulator row. -/
def axpy (exact : Bool) (x : Val) (row acc : List Val) : List Val :=
  (acc.zip row).map (fun p => let s := Val.add 0 p.1 (Val.mul x p.2); if exact then s else toExt s)

/-- The gradients of a key tile: dK and dV rows by key. -/
structure TileGrad where
  dk : List (Nat × List Val)
  dv : List (Nat × List Val)
deriving DecidableEq, Repr, Inhabited

def addRow (exact : Bool) (xs : List (Val × List Val)) (acc : List Val) : List Val :=
  xs.foldl (fun a p => axpy exact p.1 p.2 a) acc

/-- One k-block of a visited chunk (R193 steps 1 to 6): the tile's gradients and the chunk's dQ rows. -/
def gradBlock (G : AtgJob) (rows : List GradRow) (keys : List KeyRow) (st : TileGrad) (dq : List (List Val)) :
    TileGrad × List (List Val) :=
  let d := G.J.d
  let pairs := rows.map (fun r => keys.map (gradPair G r))
  let byKey (ex : Bool) (pick : Val × Val → Val) (src : GradRow → List Val) (l : List (Nat × List Val)) :=
    l.map (fun p =>
      match (List.range keys.length).find? (fun i => ((keys.getD i default).j) = p.1) with
      | none => p
      | some i => (p.1, addRow ex ((rows.zip pairs).map (fun q => (pick (q.2.getD i (.zero, .zero)), src q.1))) p.2))
  ({ dv := byKey (pathExact d.pFmt d.oFmt) (·.1) (·.o) st.dv, dk := byKey (pathExact G.F.dsFmt d.qFmt) (·.2) (·.q) st.dk },
    (dq.zip pairs).map (fun p => addRow (pathExact G.F.dsFmt d.kFmt) ((p.2.zip keys).map (fun q => (q.1.2, q.2.k))) p.1))

/-- Beats of a visited k-block on array A and on array B (R199). -/
def gradBeats (G : AtgJob) : Nat × Nat :=
  let d := G.J.d
  let a := ceilDiv d.headDim 128
  let b := ceilDiv d.vDim 128
  (ceilDiv d.headDim (rankOf d.qFmt d.kFmt) + a * 128 / rankOf G.F.dsFmt d.qFmt + a * 128 / rankOf G.F.dsFmt d.kFmt,
   ceilDiv d.vDim (rankOf d.oFmt d.vFmt) + b * 128 / rankOf d.pFmt d.oFmt)

/-- The k-blocks of a key tile. -/
def kBlocks (j0 n : Nat) : List (List Nat) := (starts n 128).map (fun b => (List.range (min 128 (n - b))).map (j0 + b + ·))

/-- The planes of dP = dO·V of a block (R190). -/
def dpPlanes (d : AttDesc) (os : List (List Val)) (keys : List KeyRow) : List CksPlane :=
  productPlanes (factorLo d.oFmt + factorLo d.vFmt) os (keys.map (·.v))

/-- One visited k-block of a chunk: scores and dP checked before the stage takes them (R138), then steps 3 to 6 of R193. -/
def gradVisit (E : Env) (G : AtgJob) (e : SeqEnt) (bay h : Nat) (rows : List GradRow) (need : List Nat)
    (acc : TileGrad × List (List Val)) : Plan (TileGrad × List (List Val)) := do
  let J := G.J
  let d := J.d
  let g := h / d.kvGroup
  arrayBeats E bay ((gradBeats G).1 + (gradBeats G).2)
  let keys ← need.mapM (rdKey E J e g)
  checkPlanes E d.exactA bay 0 (scorePlanes d (rows.map (·.q)) keys) (do
    arrayBeats E bay (scoreBeats d)
    let qs ← rows.mapM (fun r => rdQuery E J (e.qStart + r.t) h)
    pure (scorePlanes d qs (← need.mapM (rdKey E J e g))))
  checkPlanes E d.exactP bay 1 (dpPlanes d (rows.map (·.o)) keys) (do
    arrayBeats E bay (ceilDiv d.vDim (rankOf d.oFmt d.vFmt))
    let os ← rows.mapM (fun r => rdDo E J (e.qStart + r.t) h)
    pure (dpPlanes d os (← need.mapM (rdKey E J e g))))
  pure (gradBlock G rows keys acc.1 acc.2)

/-- One visited query chunk of a head against a key tile, and its dQ addends (R193), which a re-run of the tile does not send
again. -/
def gradChunk (E : Env) (G : AtgJob) (e : SeqEnt) (bay h j0 n : Nat) (allow : List (List Nat)) (send : Bool) (ch : Nat)
    (st : TileGrad) : Plan TileGrad := do
  let J := G.J
  let d := J.d
  let ts := (List.range e.qLen).filter (fun t =>
    (e.qPos + t) / 128 == ch && roleOf d.maskMode J.A (e.qPos + t) != .hole)
  let blocks := (kBlocks j0 n).filter (fun b => ts.any (fun t => (allow.getD t []).any b.contains))
  if blocks.isEmpty then pure st
  else
    let rows := (← ts.mapM (fun t => rdGradRow E J e h t (allow.getD t []))).filterMap id
    let needs := (blocks.map (fun b => b.filter (fun j => rows.any (fun r => r.keys.contains j)))).filter (fun l => !l.isEmpty)
    let work := needs.foldlM (fun acc need => gradVisit E G e bay h rows need acc)
      (st, rows.map (fun _ => List.replicate d.headDim Val.zero))
    let planes := fun (r : TileGrad × List (List Val)) => gatheredPlanes (factorLo G.F.dsFmt + factorLo d.kFmt) r.2
    let r ← work
    checkPlanes E (pathExact G.F.dsFmt d.kFmt) bay 0 (planes r) (do pure (planes (← work)))
    if send then
      (rows.zip r.2).forM (fun p =>
        scatter E (G.F.dq + (e.qStart + p.1.t) * G.F.dqPitch + h * G.F.dqHstride) G.F.dqExp p.2)
    pure r.1

/-- Writes or scatters one row of dK or dV (R194). -/
def gradRowOut (E : Env) (G : AtgJob) (base fmt : Nat) (e : SeqEnt) (g j : Nat) (vs : List Val) : Plan Unit :=
  let a := base + (e.kvStart + j) * G.F.dkvPitch + g * G.F.dkvHstride
  if G.F.kvScatter then scatter E a G.F.dkvExp vs
  else wrVals E a fmt { rnd := G.J.d.rnd, ovf := G.J.d.ovf } 0 0 vs

/-- The gradients of a key tile over all its heads and chunks (R193). -/
def gradWork (E : Env) (G : AtgJob) (e : SeqEnt) (bay g j0 n : Nat) (allow : List (List Nat)) (send : Bool) : Plan TileGrad :=
  let d := G.J.d
  let zero (w : Nat) : List (Nat × List Val) := (List.range n).map (fun i => (j0 + i, List.replicate w Val.zero))
  let chunks := if e.qLen = 0 then [] else
    (List.range ((e.qPos + e.qLen - 1) / 128 - e.qPos / 128 + 1)).map (e.qPos / 128 + ·)
  let heads := (List.range d.kvGroup).map (g * d.kvGroup + ·)
  (heads.flatMap (fun h => chunks.map (fun c => (h, c)))).foldlM
    (fun st hc => gradChunk E G e bay hc.1 j0 n allow send hc.2 st) (⟨zero d.headDim, zero d.vDim⟩ : TileGrad)

/-- A key tile of one KV head (R193, R194): its dK planes on array A and its dV planes on array B are checked before a row of
them is written (R66). -/
def gradTile (E : Env) (G : AtgJob) (e : SeqEnt) (bay g j0 : Nat) (allow : List (List Nat)) : Plan Unit := do
  let d := G.J.d
  let n := min d.tile (e.kvLen - j0)
  let dk := fun (st : TileGrad) => gatheredPlanes (factorLo G.F.dsFmt + factorLo d.qFmt) (st.dk.map (·.2))
  let dv := fun (st : TileGrad) => gatheredPlanes (factorLo d.pFmt + factorLo d.oFmt) (st.dv.map (·.2))
  let st ← gradWork E G e bay g j0 n allow true
  checkPlanes E (pathExact G.F.dsFmt d.qFmt) bay 0 (dk st) (do pure (dk (← gradWork E G e bay g j0 n allow false)))
  checkPlanes E (pathExact d.pFmt d.oFmt) bay 1 (dv st) (do pure (dv (← gradWork E G e bay g j0 n allow false)))
  allOrNone (do
    st.dk.forM (fun p => gradRowOut E G G.F.dk G.F.dkFmt e g p.1 p.2)
    st.dv.forM (fun p => gradRowOut E G G.F.dv G.F.dvFmt e g p.1 p.2))

/-- ATG, gradient phase (R193 to R199). -/
def atgGradPlan (E : Env) (T : List BankRef) (x bay : Nat) : Plan Unit := do
  let G ← atgIssue E T x
  let J := G.J
  J.ents.forM (fun e => withhold J.d.qHeads (do
    Plan.need (seqEntOk J e) 0x10163
    let qm ← rdMarks E J.d.segEn J.A.qseg e.qStart e.qLen
    let km ← rdMarks E J.d.segEn J.A.kseg e.kvStart e.kvLen
    let allow := (List.range e.qLen).map (unmasked J e qm km)
    (List.range J.d.kvHeads).forM (fun g => (starts e.kvLen J.d.tile).forM (fun j0 => gradTile E G e bay g j0 allow))))

end Sys2Proof.Machine
end

