-- ==== Sys2Proof/Machine/Conv.lean ====
section
/-! DEFINITION. CNV and CNT, convolution and transposed convolution (R245 to R263). -/

namespace Sys2Proof.Machine

/-- One dimension of a convolution: input extent, stride, dilation, low and high padding, adjustment, kernel size. -/
structure ConvDim where
  inn : Nat
  str : Nat
  dil : Nat
  padl : Nat
  padh : Nat
  adj : Nat
  ker : Nat
deriving DecidableEq, Repr, Inhabited

/-- The descriptor of CNV and CNT (R258); strides from the outside in. -/
structure ConvDesc where
  cnt : Bool
  dims : List ConvDim
  xStr : List Nat
  yStr : List Nat
  wPitch : Nat
  cIn : Nat
  cOut : Nat
  batch : Nat
  xFmt : Nat
  wFmt : Nat
  yFmt : Nat
  rnd : Nat
  ovf : Nat
  epiEn : Bool
  accOut : Bool
  arrSel : Nat
  tileM : Nat
  tileN : Nat
  aux : Nat
  y : Nat
  w : Nat
  x : Nat
deriving DecidableEq, Repr, Inhabited

/-- The dimension with fields at offset `b` (2, 1, 0 for T, H, W) within each group. -/
def convDim (x b : Nat) : ConvDim :=
  let byte (lo : Nat) : Nat := fld x (lo + 8 * b + 7) (lo + 8 * b)
  { inn := fld x (703 + 16 * b) (688 + 16 * b), str := byte 616, dil := byte 592, padl := byte 568, padh := byte 544
    adj := byte 520, ker := fld x (467 + 6 * b) (462 + 6 * b) + 1 }

def convDesc (cnt : Bool) (x : Nat) : ConvDesc :=
  { cnt := cnt, dims := [convDim x 2, convDim x 1, convDim x 0]
    xStr := [fld x 1023 992, fld x 991 960, fld x 959 928, fld x 927 896]
    yStr := [fld x 895 864, fld x 863 832, fld x 831 800, fld x 799 768]
    wPitch := fld x 767 736, cIn := fld x 687 672, cOut := fld x 671 656, batch := fld x 655 640
    xFmt := fld x 461 457, wFmt := fld x 456 452, yFmt := fld x 451 447, rnd := fld x 446 444, ovf := fld x 443 443
    epiEn := bit x 442, accOut := bit x 441, arrSel := fld x 440 439, tileM := fld x 438 437, tileN := fld x 436 435
    aux := fld x 375 320, y := fld x 311 256, w := fld x 247 192, x := fld x 183 128 }

def convReservedOk (x : Nat) : Bool :=
  zeroAt x [(519, 480), (434, 384), (383, 376), (319, 312), (255, 248), (191, 184)]

/-- The auxiliary block (R259). -/
structure ConvAux where
  csFmt : Nat := 0
  kTotal : Nat := 0
  tag : Nat := 0
  seed : Nat := 0
  acc : Nat := 0
  epi : Nat := 0
  cs : Nat := 0
deriving DecidableEq, Repr, Inhabited

def convAux (x : Nat) : ConvAux :=
  { csFmt := fld x 324 320, kTotal := fld x 318 288, tag := fld x 287 256, seed := fld x 255 192, acc := fld x 183 128
    epi := fld x 119 64, cs := fld x 55 0 }

def convAuxReservedOk (x : Nat) : Bool := zeroAt x [(1023, 325), (319, 319), (191, 184), (127, 120), (63, 56)]

/-- An output extent (R247, R251). -/
def outExtent (cnt : Bool) (D : ConvDim) : Int :=
  let reach : Int := (D.dil : Int) * (D.ker - 1) + 1
  if cnt then ((D.inn : Int) - 1) * D.str + reach + D.adj - D.padl - D.padh
  else if D.str = 0 then 0
  else ((D.inn : Int) + D.padl + D.padh - reach) / D.str + 1

def ConvDesc.out (d : ConvDesc) : List Nat := d.dims.map (fun D => (outExtent d.cnt D).toNat)

def ConvDesc.positions (d : ConvDesc) : Nat := d.out.foldl (· * ·) 1

def ConvDesc.taps (d : ConvDesc) : Nat := d.dims.foldl (fun a D => a * D.ker) 1

def ConvDesc.kSize (d : ConvDesc) : Nat := d.taps * d.cIn

def ConvDesc.exact (d : ConvDesc) : Bool := pathExact d.xFmt d.wFmt

def convKTotal (d : ConvDesc) (A : ConvAux) : Nat := if A.kTotal = 0 then d.kSize else A.kTotal

def convWindow (d : ConvDesc) (A : ConvAux) : Int × Int := windowOf [factorOf d.xFmt, factorOf d.wFmt] (convKTotal d A)

/-- 0x0131 of R261. -/
def convFormatsOk (d : ConvDesc) (A : ConvAux) (e : Epi) : Bool :=
  let op (f : Nat) : Bool := [1, 2, 3, 4, 6].contains f
  op d.xFmt && op d.wFmt && d.arrSel != 3 && decide (d.rnd ≤ 5) && !(d.epiEn && d.accOut) &&
    (if d.accOut then d.yFmt == (if d.exact then fFX128 else fEXT128) && A.cs == 0 else arrayOutput d.yFmt) &&
    (A.cs == 0 || A.csFmt == fFP32 || A.csFmt == fE8M0) &&
    (!d.epiEn || ((e.post == 0 || e.postFmt == fFP32 || e.postFmt == fE8M0) && (e.bias == 0 || decide (e.biasFmt ≤ 2))))

/-- 0x0190 of R261. -/
def convGeometryOk (d : ConvDesc) : Bool :=
  d.dims.all (fun D => D.str != 0 && D.dil != 0 && (if d.cnt then decide (D.adj < D.str) else D.adj == 0) &&
    decide (outExtent d.cnt D ≤ 65535))

/-- Spans of the inner dimensions against their strides (0x0191). -/
def stridesOk : List (Nat × Nat) → Nat → Bool
  | [], _ => true
  | (extent, stride) :: rest, span =>
    (decide (extent ≤ 1) || decide (span ≤ stride)) && stridesOk rest (if extent ≤ 1 then span else extent * stride)

def convStridesOk (d : ConvDesc) : Bool :=
  if d.accOut then d.yStr.all (· == 0)
  else stridesOk ((d.out.reverse ++ [d.batch]).zip d.yStr.reverse) (rowBytes d.yFmt d.cOut)

/-- The region of a strided tensor (R91). -/
def stridedRegion (base : Nat) (ext str : List Nat) (inner : Nat) : Nat × Nat :=
  if ext.any (· == 0) || inner == 0 then (base, base)
  else (base, base + ((ext.zip str).map (fun p => (p.1 - 1) * p.2)).sum + inner)

def convYRegion (d : ConvDesc) : Nat × Nat :=
  if d.accOut then (d.y, d.y + 16 * d.batch * d.positions * d.cOut)
  else stridedRegion d.y (d.batch :: d.out) d.yStr (rowBytes d.yFmt d.cOut)

/-- 0x0145 of R261. -/
def convOverlapOk (d : ConvDesc) (A : ConvAux) (e : Epi) : Bool :=
  let Y := convYRegion d
  let reads := [
    stridedRegion d.x (d.batch :: d.dims.map (·.inn)) d.xStr (rowBytes d.xFmt d.cIn),
    rowRegion d.w d.wPitch d.cOut (rowBytes d.wFmt d.kSize), setRegion A.cs (d.cOut * (fmtBits A.csFmt / 8)) 1,
    setRegion (if d.epiEn then e.bias else 0) (d.cOut * (fmtBits e.biasFmt / 8)) 1,
    setRegion (if d.epiEn then e.post else 0) (d.cOut * (fmtBits e.postFmt / 8)) 1,
    optRegion d.aux 0 1 128, optRegion (if d.epiEn then A.epi else 0) 0 1 128]
  !(reads.any (overlaps Y)) && (A.acc == 0 || A.acc == d.y || !overlaps Y (A.acc, A.acc + 16 * d.batch * d.positions * d.cOut))

/-- Everything a convolution has read at its start. -/
structure ConvJob where
  d : ConvDesc
  A : ConvAux
  e : Epi
deriving DecidableEq, Repr, Inhabited

/-- Checks at start (R248, R261), in the order of R91 (log 31). -/
def convIssue (E : Env) (cnt : Bool) (x : Nat) : Plan ConvJob := do
  let d := convDesc cnt x
  Plan.need (convReservedOk x) 0x0104
  Plan.need (aligned d.aux 128 && (d.aux != 0 || !(d.epiEn || d.rnd == 5))) 0x0144
  let ax ← if d.aux = 0 then pure 0 else rdHeldRec E d.aux 128
  Plan.need (convAuxReservedOk ax) 0x0104
  let A := convAux ax
  Plan.need (!d.epiEn || (A.epi != 0 && aligned A.epi 128)) 0x0144
  let ex ← if d.epiEn then rdHeldRec E A.epi 128 else pure 0
  let e := epiOf ex
  Plan.need (convFormatsOk d A e) 0x0131
  Plan.need (A.kTotal == 0 || decide (d.kSize ≤ A.kTotal)) 0x0140
  Plan.need (!d.exact || decide ((convWindow d A).2 ≤ 94)) 0x0130
  Plan.need ([d.x, d.w, d.y].all (aligned · 16) && pitchOk d.wPitch d.wFmt d.kSize) 0x0141
  Plan.need (!d.epiEn || (epiReservedOk ex && epiOk e)) 0x0143
  Plan.need (convOverlapOk d A e) 0x0145
  Plan.need (convGeometryOk d) 0x0190
  Plan.need (convStridesOk d) 0x0191
  if d.out.any (· == 0) || d.batch == 0 || d.cIn == 0 || d.cOut == 0 || d.dims.any (fun D => D.inn == 0) then do
    Plan.count kCnvEmptyCount 1
    Plan.stop 0x0310
  else pure ⟨d, A, e⟩

/-! ## Taps and positions -/

/-- Points of a box in row-major order. -/
def grid : List Nat → List (List Nat)
  | [] => [[]]
  | n :: ns => (List.range n).flatMap (fun i => (grid ns).map (i :: ·))

/-- Taps of a kernel in the order of `k_order` (R250), by pass. -/
def tapPasses (ks : List Nat) : List (List (List Nat)) :=
  (grid (ks.map (ceilDiv · 7))).map (fun p =>
    (grid ((ks.zip p).map (fun q => min 7 (q.1 - 7 * q.2)))).map (fun t => (p.zip t).map (fun q => 7 * q.1 + q.2)))

/-- The input position that a tap of an output reads (R247, R251), or none where it is masked. -/
def tapInput (cnt : Bool) (dims : List ConvDim) (o tap : List Nat) : Option (List Nat) :=
  (dims.zip (o.zip tap)).mapM (fun p =>
    let D := p.1
    let i : Int := if cnt then ((p.2.1 : Int) + D.padl - p.2.2 * D.dil) / D.str
                   else (p.2.1 : Int) * D.str - D.padl + p.2.2 * D.dil
    if i < 0 ∨ (D.inn : Int) ≤ i then none else some i.toNat)

/-- The phase of an output position (R252); CNV has one. -/
def phaseOf (d : ConvDesc) (o : List Nat) : List Nat :=
  (d.dims.zip o).map (fun p => if d.cnt then (p.2 + p.1.padl) % p.1.str else 0)

/-- Whether a tap belongs to a phase (R252). -/
def tapInPhase (d : ConvDesc) (ph tap : List Nat) : Bool :=
  (d.dims.zip (ph.zip tap)).all (fun p => !d.cnt || decide (((p.2.1 : Int) - p.2.2 * p.1.dil) % p.1.str = 0))

/-- Phases in row-major order, each with its passes of taps and its output positions (R252, R253). -/
def phases (d : ConvDesc) : List (List (List (List Nat)) × List (List Nat)) :=
  (grid (d.dims.map (fun D => if d.cnt then D.str else 1))).map (fun ph =>
    ((tapPasses (d.dims.map (·.ker))).map (fun pass => pass.filter (tapInPhase d ph)),
      (grid d.out).filter (fun o => phaseOf d o = ph)))

/-- Row-major index of a point. -/
def pointIndex (ext p : List Nat) : Nat := (ext.zip p).foldl (fun a q => a * q.1 + q.2) 0

def offsetOf (str : List Nat) (p : List Nat) : Nat := ((str.zip p).map (fun q => q.1 * q.2)).sum

/-! ## Tiles -/

/-- Bounding box of positions, in elements (R256). -/
def boxSize (ps : List (List Nat)) : Nat :=
  match ps with
  | [] => 0
  | p :: _ => (List.range p.length).foldl (fun a i =>
      let xs := ps.map (·.getD i 0)
      a * (xs.foldl max 0 - xs.foldl min (xs.headD 0) + 1)) 1

/-- Elements of the input positions that some tap of a tile's outputs reads. -/
def tileInputs (d : ConvDesc) (taps : List (List Nat)) (os : List (List Nat)) : List (List Nat) :=
  os.flatMap (fun o => taps.filterMap (tapInput d.cnt d.dims o))

/-- A staged box: its positions with their elements. -/
abbrev Box := List (List Nat × List Elem)

/-- Fetches the positions of a box that some tap reads, each once (R249, R256). -/
def rdBox (E : Env) (d : ConvDesc) (n : Nat) (ps : List (List Nat)) : Plan Box :=
  ps.dedup.mapM (fun p => do
    let cs ← rdCodes E (d.x + offsetOf d.xStr (n :: p)) d.xFmt 0 d.cIn
    pure (p, cs.map (fun c => (c, decodeNum d.xFmt c))))

/-- Stages the input of one M tile (R256): for each pass its box, or none where the box is larger than 256 KiB and k-slices are
fetched. -/
def stageTile (E : Env) (d : ConvDesc) (n : Nat) (passes : List (List (List Nat))) (os : List (List Nat)) : Plan (List (Option Box)) :=
  passes.mapM (fun taps => do
    let ps := tileInputs d taps os
    let size := boxSize ps * rowBytes d.xFmt d.cIn
    if 262144 < size then pure none
    else do
      if size ≠ 0 then Plan.count kCnvBoxCount 1
      pure (some (← rdBox E d n ps)))

/-- A stretch of k: a tap, its first channel and how many channels. -/
abbrev KSeg := List Nat × Nat × Nat

/-- The stretches of k-values `k0 … k0 + K - 1` of a pass (R250). -/
def sliceSegs (cIn : Nat) (taps : List (List Nat)) (k0 K : Nat) : List KSeg :=
  ((List.range taps.length).zip taps).filterMap (fun t =>
    let lo := max k0 (t.1 * cIn)
    let hi := min (k0 + K) ((t.1 + 1) * cIn)
    if lo < hi then some (t.2, lo - t.1 * cIn, hi - lo) else none)

/-- The elements that output `o` takes over one stretch: none where the tap is masked (R247). They come from the staged box or,
in k-slice mode, from memory. -/
def segInput (E : Env) (d : ConvDesc) (n : Nat) (box : Option Box) (o : List Nat) (g : KSeg) : Plan (List (Option Elem)) :=
  match tapInput d.cnt d.dims o g.1 with
  | none => pure (List.replicate g.2.2 none)
  | some p =>
    match box with
    | some b => pure ((((((b.find? (fun q => q.1 = p)).map (·.2)).getD []).drop g.2.1).take g.2.2).map some)
    | none => do
      let cs ← rdCodes E (d.x + offsetOf d.xStr (n :: p)) d.xFmt g.2.1 g.2.2
      pure (cs.map (fun c => some (c, decodeNum d.xFmt c)))

/-- The weights of output channel `co` over one stretch (R246). -/
def segWeights (E : Env) (d : ConvDesc) (co : Nat) (g : KSeg) : Plan (List Elem) := do
  let cs ← rdCodes E (d.w + co * d.wPitch) d.wFmt (pointIndex (d.dims.map (·.ker)) g.1 * d.cIn + g.2.1) g.2.2
  pure (cs.map (fun c => (c, decodeNum d.wFmt c)))

/-- Rows extended by the elements of further k-values. -/
def joinK {α : Type} (acc more : List (List α)) : List (List α) := List.zipWith (· ++ ·) acc more

/-- The operands of one tile over the reduction order of R250, slice by slice (R60, R256). -/
def convOperands (E : Env) (d : ConvDesc) (n : Nat) (passes : List (List (List Nat) × Option Box)) (os : List (List Nat))
    (n0 nn : Nat) : Plan (List (List (Option Elem)) × List (List Elem)) :=
  let slices := passes.flatMap (fun p => (kSlices (p.1.length * d.cIn)).map (fun k => (sliceSegs d.cIn p.1 k.1 k.2, p.2)))
  slices.foldlM (fun (acc : List (List (Option Elem)) × List (List Elem)) sl => do
    let a ← os.mapM (fun o => do pure (← sl.1.mapM (segInput E d n sl.2 o)).flatten)
    let b ← (List.range nn).mapM (fun j => do pure (← sl.1.mapM (segWeights E d (n0 + j))).flatten)
    pure (joinK acc.1 a, joinK acc.2 b)) (List.replicate os.length [], List.replicate nn [])

/-- The pairs of one output element: input and weight over its unmasked taps in k order (R247). -/
def convPairs (as : List (Option Elem)) (bs : List Elem) : List (Elem × Elem) :=
  (as.zip bs).filterMap (fun p => p.1.map (fun a => (a, p.2)))

def convDot (d : ConvDesc) (A : ConvAux) (seed : Option Nat) (ps : List (Elem × Elem)) : Pt :=
  if d.exact then dotExact (convWindow d A).1 seed ps else dotExt seed ps

/-- One tile: its cells and what its checksums need (R253, R255, R257). A masked element adds nothing to them (R247). The counter
of tiles fetched by k-slices takes each tile of the output (log 77). -/
def convRun (E : Env) (J : ConvJob) (bay n : Nat) (passes : List (List (List Nat) × Option Box)) (os : List (List Nat)) (n0 nn : Nat) :
    Plan Area := do
  let d := J.d
  let K := (passes.map (fun p => p.1.length)).sum * d.cIn
  arrayBeats E bay (ceilDiv os.length 128 * ceilDiv nn 128 * ceilDiv K (rankOf d.xFmt d.wFmt))
  if passes.any (fun p => p.2.isNone) then Plan.count kCnvSliceCount 1
  let ops ← convOperands E d n passes os n0 nn
  let seeds ← os.mapM (fun o => do
    if J.A.acc = 0 then pure (List.replicate nn none)
    else do pure ((← rdCodes E (J.A.acc + 16 * ((n * d.positions + pointIndex d.out o) * d.cOut)) fFX128 n0 nn).map some))
  pure { pts := (ops.1.zip seeds).map (fun p => (ops.2.zip p.2).map (fun q => convDot d J.A q.2 (convPairs p.1 q.1)))
         as := ops.1.map (fun r => r.map (fun a => a.getD (0, .zero))), bs := ops.2
         seeds := if d.exact then seeds.map (fun r => r.map (fun c => seedC (c.getD 0))) else [], outside := false }

def convDrain (J : ConvJob) : DrainCfg :=
  let d := J.d
  { base := d.y, pitch := 0, fmt := d.yFmt, cT := false
    R := { rnd := d.rnd, ovf := d.ovf, seed := J.A.seed, tag := J.A.tag }, accOut := d.accOut
    epi := if d.epiEn then some J.e else none, cs := J.A.cs, csFmt := J.A.csFmt
    mTotal := d.positions, nTotal := d.cOut, idxBase := 0 }

/-- One tile run, checked and drained (R253); a re-run stages its input again (R67). -/
def convTile (E : Env) (J : ConvJob) (bay arr plane n : Nat) (passes : List (List (List Nat))) (boxes : List (Option Box))
    (os : List (List Nat)) (n0 nn : Nat) : Plan Unit := do
  let d := J.d
  let again : Plan Area := do
    let b ← stageTile E d n passes os
    convRun E J bay n (passes.zip b) os n0 nn
  let planes := fun (a : Area) => (areaPlanes (convWindow d J.A).1 (d.tileN + 1) a).map (fun p => (plane + p.1, p.2))
  let a ← cksTile2 E d.exact true bay arr planes (convRun E J bay n (passes.zip boxes) os n0 nn) again
  if a.pts.any (fun r => r.any (·.bad)) then do Plan.count kAccWindowCount 1; Plan.code 0x0305
  else
    let rows := os.map (fun o => n * d.positions + pointIndex d.out o)
    let cs ← candsAt E (convDrain J) 0 rows n0 a.pts
    allOrNone ((os.zip (rows.zip cs)).forM (fun p => do
      let codes ← p.2.2.mapM (fun c => emit c.enc)
      let base := if d.accOut then d.y + 16 * (p.2.1 * d.cOut) else d.y + offsetOf d.yStr (n :: p.1)
      wrCodes E base d.yFmt n0 codes))

/-- The M tiles of an op in its row order (R253): sample, passes of taps and output positions. -/
def convTiles (d : ConvDesc) : List (Nat × List (List (List Nat)) × List (List Nat)) :=
  (List.range d.batch).flatMap (fun n => (phases d).flatMap (fun ph =>
    (chunksOf (tileEdge d.tileM) (ceilDiv ph.2.length (tileEdge d.tileM)) ph.2).map (fun os => (n, ph.1, os))))

/-- CNV (`cnt` false) and CNT on an array of a bay. Input is staged once for each M tile and pass (R256), and tiles take
alternating plane sets (R64). -/
def convPlan (E : Env) (cnt : Bool) (x bay arr : Nat) : Plan Unit := do
  let J ← convIssue E cnt x
  let d := J.d
  let ms := convTiles d
  let ns := starts d.cOut (tileEdge d.tileN)
  ((List.range ms.length).zip ms).forM (fun m => do
    let boxes ← stageTile E d m.2.1 m.2.2.1 m.2.2.2
    ((List.range ns.length).zip ns).forM (fun n0 =>
      convTile E J bay arr (tilePlane d.tileM d.tileN (m.1 * ns.length + n0.1)) m.2.1 m.2.2.1 boxes m.2.2.2 n0.2
        (min (tileEdge d.tileN) (d.cOut - n0.2))))

end Sys2Proof.Machine
end

