-- ==== Sys2Proof/Machine/Mmg.lean ====
section
/-! DEFINITION. MMG, the gradient pair, and its index form (R167 to R184). -/

namespace Sys2Proof.Machine

/-- The MMG descriptor (R177). -/
structure MmgDesc where
  xPitch : Nat
  wPitch : Nat
  dyPitch : Nat
  dxPitch : Nat
  dwPitch : Nat
  dwKTotal : Nat
  dxKTotal : Nat
  t : Nat
  o : Nat
  i : Nat
  dwPart : Bool
  dxPart : Bool
  dwEn : Bool
  dxEn : Bool
  dwT : Bool
  dxT : Bool
  dyT : Bool
  wT : Bool
  xT : Bool
  ovf : Nat
  rnd : Nat
  dwFmt : Nat
  dxFmt : Nat
  dyFmt : Nat
  wFmt : Nat
  xFmt : Nat
  aux : Nat
  len : Nat
  dwAcc : Nat
  dxAcc : Nat
  dw : Nat
  dx : Nat
  dy : Nat
  w : Nat
  x : Nat
deriving DecidableEq, Repr, Inhabited

def mmgDesc (x : Nat) : MmgDesc :=
  { xPitch := fld x 1023 992, wPitch := fld x 991 960, dyPitch := fld x 959 928, dxPitch := fld x 927 896
    dwPitch := fld x 895 864, dwKTotal := fld x 862 832, dxKTotal := fld x 830 800, t := fld x 798 768, o := fld x 763 752
    i := fld x 751 742, dwPart := bit x 741, dxPart := bit x 740, dwEn := bit x 739, dxEn := bit x 738, dwT := bit x 737
    dxT := bit x 736, dyT := bit x 735, wT := bit x 734, xT := bit x 733, ovf := fld x 732 732, rnd := fld x 731 729
    dwFmt := fld x 728 724, dxFmt := fld x 723 719, dyFmt := fld x 718 714, wFmt := fld x 713 709, xFmt := fld x 708 704
    aux := fld x 695 640, len := fld x 631 576, dwAcc := fld x 567 512, dxAcc := fld x 503 448, dw := fld x 439 384
    dx := fld x 375 320, dy := fld x 311 256, w := fld x 247 192, x := fld x 183 128 }

def mmgReservedOk (x : Nat) : Bool :=
  zeroAt x [(863, 863), (831, 831), (799, 799), (767, 764), (703, 696), (639, 632), (575, 568), (511, 504), (447, 440),
    (383, 376), (319, 312), (255, 248), (191, 184)]

/-- The MMG auxiliary block (R178). -/
structure MmgAux where
  dbAcc : Nat := 0
  db : Nat := 0
  gate : Nat := 0
  h : Nat := 0
  hPitch : Nat := 0
  dwpPitch : Nat := 0
  dxpPitch : Nat := 0
  tag : Nat := 0
  seed : Nat := 0
  dwScale : Nat := 0
  dxScale : Nat := 0
  embRows : Nat := 0
  dwExp : Int := 0
  hFmt : Nat := 1
deriving DecidableEq, Repr, Inhabited

def mmgAux (x : Nat) : MmgAux :=
  { dbAcc := fld x 1015 960, db := fld x 951 896, gate := fld x 887 832, h := fld x 823 768, hPitch := fld x 767 736
    dwpPitch := fld x 735 704, dxpPitch := fld x 703 672, tag := fld x 671 640, seed := fld x 639 576
    dwScale := fld x 575 544, dxScale := fld x 543 512, embRows := fld x 511 480, dwExp := toSigned 16 (fld x 479 464)
    hFmt := fld x 4 0 }

def mmgAuxReservedOk (x : Nat) : Bool :=
  zeroAt x [(1023, 1016), (959, 952), (895, 888), (831, 824), (463, 5)]

/-- Formats of one gradient operand (R179). -/
def gradFmt (f : Nat) : Bool := decide (1 ≤ f) && decide (f ≤ 4)

def MmgDesc.dxExact (d : MmgDesc) : Bool := pathExact d.dyFmt d.wFmt
def MmgDesc.dwExact (d : MmgDesc) : Bool := pathExact d.xFmt d.dyFmt
def MmgDesc.dbExact (d : MmgDesc) : Bool := fmtBits d.dyFmt == 8

/-- The format of a partial on a path (R171). -/
def partFmt (exact : Bool) : Nat := if exact then fFX128 else fEXT128

/-- Formats of partials (R171). -/
def partialFmt (f : Nat) : Bool := f == fFX128 || f == fEXT128

/-- 0x0131 of R180: every format field holds one of R179, whether or not the op uses it (log 31); what it writes as a partial
has the format of its path and no scale, and what it writes rounded has none of a partial. -/
def mmgFormatsOk (idx : Bool) (d : MmgDesc) (A : MmgAux) : Bool :=
  decide (d.rnd ≤ 5) && gradFmt d.dyFmt && gradFmt d.wFmt && (idx || gradFmt d.xFmt) && decide (A.hFmt ≤ 4) &&
    (decide (d.dxFmt ≤ 4) || partialFmt d.dxFmt) && (decide (d.dwFmt ≤ 1) || partialFmt d.dwFmt || (idx && d.dwFmt == fINT64)) &&
    (!d.dxEn || (if d.dxPart then d.dxFmt == partFmt d.dxExact && A.dxScale == 0 else !partialFmt d.dxFmt)) &&
    (idx || !d.dwEn || (if d.dwPart then d.dwFmt == partFmt d.dwExact && A.dwScale == 0 else !partialFmt d.dwFmt))

/-- Windows of R170. -/
def mmgWindow (d : MmgDesc) (which : Nat) : Int × Int :=
  match which with
  | 0 => windowOf [factorOf d.dyFmt, factorOf d.wFmt] d.dxKTotal
  | 1 => windowOf [factorOf d.xFmt, factorOf d.dyFmt] d.dwKTotal
  | _ => windowOf [factorOf d.dyFmt] d.dwKTotal

def mmgWindowsOk (d : MmgDesc) (A : MmgAux) : Bool :=
  (!(d.dxEn && d.dxExact) || decide ((mmgWindow d 0).2 ≤ 94)) && (!(d.dwEn && d.dwExact) || decide ((mmgWindow d 1).2 ≤ 94)) &&
    (A.db == 0 || !d.dbExact || decide ((mmgWindow d 2).2 ≤ 94))

/-- 0x0141 of R180. -/
def mmgAlignOk (idx : Bool) (d : MmgDesc) (A : MmgAux) : Bool :=
  [d.dwAcc, d.dxAcc, d.dw, d.dx, d.dy, d.w, d.x, A.dbAcc, A.db, A.gate, A.h].all (aligned · 16) && aligned d.len 4 &&
    pitchOk d.dyPitch d.dyFmt (stored d.dyT d.t d.o).2 && (A.h == 0 || pitchOk A.hPitch A.hFmt (stored d.dyT d.t d.o).2) &&
    (if idx then aligned A.dwpPitch 16
     else
      (!d.dxEn || (pitchOk d.wPitch d.wFmt (stored d.wT d.i d.o).2 &&
        (d.dxPart || pitchOk d.dxPitch d.dxFmt (stored d.dxT d.t d.i).2) &&
        (!(d.dxPart || d.dxAcc != 0) || pitchOk A.dxpPitch fFX128 (stored d.dxT d.t d.i).2))) &&
      (!d.dwEn || (pitchOk d.xPitch d.xFmt (stored d.xT d.t d.i).2 &&
        (d.dwPart || pitchOk d.dwPitch d.dwFmt (stored d.dwT d.i d.o).2) &&
        (!(d.dwPart || d.dwAcc != 0) || pitchOk A.dwpPitch fFX128 (stored d.dwT d.i d.o).2))))

/-- The region of a matrix of `r` by `c` under a transpose field. -/
def matRegion (base pitch fmt : Nat) (t : Bool) (r c : Nat) : Nat × Nat :=
  rowRegion base pitch (stored t r c).1 (rowBytes fmt (stored t r c).2)

/-- 0x0145 of R180. -/
def mmgOverlapOk (idx : Bool) (d : MmgDesc) (A : MmgAux) : Bool :=
  let dxP := if d.dxPart then A.dxpPitch else d.dxPitch
  let dwP := if d.dwPart then A.dwpPitch else d.dwPitch
  let outDx := if d.dxEn then matRegion d.dx dxP d.dxFmt d.dxT d.t d.i else (0, 0)
  let outDw := if idx then rowRegion d.dw A.dwpPitch A.embRows (8 * d.o)
               else if d.dwEn then matRegion d.dw dwP d.dwFmt d.dwT d.i d.o else (0, 0)
  let outDb := optRegion A.db 0 1 (d.o * (if d.dwPart then 16 else 4))
  let reads := [
    matRegion d.dy d.dyPitch d.dyFmt d.dyT d.t d.o,
    (if idx then rowRegion d.x 0 1 (4 * d.t) else if d.dwEn then matRegion d.x d.xPitch d.xFmt d.xT d.t d.i else (0, 0)),
    (if d.dxEn then matRegion d.w d.wPitch d.wFmt d.wT d.i d.o else (0, 0)),
    (if A.h = 0 then (0, 0) else matRegion A.h A.hPitch A.hFmt d.dyT d.t d.o),
    rowRegion A.gate 0 1 (if A.h = 0 then 0 else 128), optRegion d.len 0 1 4, optRegion d.aux 0 1 128]
  let inDx := if d.dxEn && d.dxAcc != 0 then matRegion d.dxAcc A.dxpPitch fFX128 d.dxT d.t d.i else (0, 0)
  let inDw := if d.dwEn && d.dwAcc != 0 then matRegion d.dwAcc A.dwpPitch fFX128 d.dwT d.i d.o else (0, 0)
  let inDb := optRegion A.dbAcc 0 1 (if A.db = 0 then 0 else 16 * d.o)
  let outs := [outDx, outDw, outDb]
  !outs.any (fun o => reads.any (overlaps o)) &&
    ((d.dxPart && d.dxAcc == d.dx) || !overlaps outDx inDx) && !overlaps outDw inDx && !overlaps outDb inDx &&
    ((d.dwPart && d.dwAcc == d.dw) || !overlaps outDw inDw) && !overlaps outDx inDw && !overlaps outDb inDw &&
    ((d.dwPart && A.dbAcc == A.db) || !overlaps outDb inDb) && !overlaps outDx inDb && !overlaps outDw inDb

/-- The gate record (R176) keeps the fields that it does not use zero. -/
def gateOk (x : Nat) : Bool :=
  epiReservedOk x && epiOk (epiOf x) && zeroAt x [(159, 128), (124, 120), (119, 64), (60, 56), (55, 0)]

/-- The slope that H selects (R84, R176); none for a NaN. -/
def gateSlope (e : Epi) (h : Val) : Option Val :=
  match h with
  | .nan => none
  | .inf neg => some (if e.knots.isEmpty then .one else if neg then e.slopes.headD .one else e.slopes.getLastD .one)
  | .fin _ _ _ =>
    match e.knots with
    | [] => some .one
    | t1 :: _ =>
      some (segment h t1 .zero (e.slopes.headD .one) e.knots (e.knots.map (fun _ => Val.zero)) e.slopes.tail).1

/-- An element of D: dY, or dY gated and rounded to `DY_FMT` (R176). An overflow of the product takes the op's `OVF`. R34 counts
the elements of an op's output, and the product is an operand: DESIGN CHOICE, it adds nothing to `OVF_COUNT` (log 76). -/
def gated (d : MmgDesc) (e : Epi) (dy : Nat) (h : Val) : Elem :=
  let v := match gateSlope e h with
    | none => Val.nan
    | some s => Val.mul s (decodeNum d.dyFmt dy)
  let c := (encodeNum d.dyFmt { ovf := d.ovf } 0 v).code
  (c, decodeNum d.dyFmt c)

/-- Everything an MMG has read at issue. -/
structure MmgJob where
  d : MmgDesc
  A : MmgAux
  e : Epi
  tAct : Nat
deriving DecidableEq, Repr, Inhabited

/-- R184: what index form requires. -/
def indexFormOk (d : MmgDesc) (A : MmgAux) : Bool :=
  !d.dxEn && d.dwEn && d.dwFmt == fINT64 && d.i == 0 && d.w == 0 && A.h == 0 && A.db == 0 && !d.dwPart && d.dwAcc == 0 &&
    d.xPitch == 0 && decide (8 * d.o ≤ A.dwpPitch)

/-- Checks at issue (R180), in the order of R91 (log 31). -/
def mmgIssue (E : Env) (idx : Bool) (x : Nat) : Plan MmgJob := do
  let d := mmgDesc x
  Plan.need (mmgReservedOk x) 0x0104
  Plan.need (aligned d.aux 128) 0x0144
  let ax ← if d.aux = 0 then pure 0 else rdHeldRec E d.aux 128
  let A := if d.aux = 0 then {} else mmgAux ax
  Plan.need (mmgAuxReservedOk ax) 0x0104
  Plan.need (d.aux != 0 || !(d.rnd == 5 || idx)) 0x0144
  Plan.need (mmgFormatsOk idx d A) 0x0131
  Plan.need (decide (d.t ≤ d.dwKTotal) && decide (d.o ≤ d.dxKTotal)) 0x0140
  Plan.need (idx || mmgWindowsOk d A) 0x0130
  Plan.need (mmgAlignOk idx d A) 0x0141
  let gx ← if A.h = 0 then pure 0 else rdHeldRec E A.gate 128
  Plan.need (gateOk gx) 0x0143
  Plan.need (mmgOverlapOk idx d A) 0x0145
  Plan.need (!idx || allHbm E (rowRegion d.dw A.dwpPitch A.embRows (8 * d.o))) 0x0146
  Plan.need (decide (d.i ≤ 512) && decide (d.o ≤ 2048) && decide (ceilDiv d.i 128 * ceilDiv d.o 128 ≤ 16) &&
    (d.dxEn || d.dwEn || A.db != 0) && (!idx || indexFormOk d A)) 0x0170
  let tAct ← if d.len = 0 then pure d.t else do pure (min (leNat (← rdHeld E false d.len 4)) d.t)
  Plan.need (d.t != 0 && d.o != 0 && (idx || d.i != 0) && tAct != 0) 0x0310
  pure ⟨d, A, epiOf gx, tAct⟩

/-- Rows `t0 … t0 + n - 1` of D, each over the output features (R167, R176). -/
def rdD (E : Env) (J : MmgJob) (t0 n : Nat) : Plan (List (List Elem)) := do
  let d := J.d
  let S : Side := { base := d.dy, pitch := d.dyPitch, fmt := d.dyFmt, alongK := !d.dyT }
  let codes ← sideSlice E S t0 n 0 d.o
  if J.A.h = 0 then pure (codes.map (fun r => r.map (fun c => (c, decodeNum d.dyFmt c))))
  else do
    let H : Side := { base := J.A.h, pitch := J.A.hPitch, fmt := J.A.hFmt, alongK := !d.dyT }
    let hs ← sideSlice E H t0 n 0 d.o
    pure ((codes.zip hs).map (fun p => (p.1.zip p.2).map (fun q => gated d J.e q.1 (decodeNum J.A.hFmt q.2))))

/-- A scale field: the encoding 0 stands for 1.0 (R172). -/
def scaleVal (c : Nat) : Val := if c = 0 then .one else decodeNum fFP32 c

/-- The code a result is written with: a partial, or V × scale rounded once, also for a V that is not finite (R43, R171,
R172). -/
def mmgOut (R : Rnd) (part : Bool) (fmt : Nat) (scale : Val) (idx : Nat) (p : Pt) : Plan Nat :=
  if part then pure p.code else emit (encodeNum fmt R idx (Val.mul p.v scale))

/-- Writes a result of `cols` columns whose rows start at `r0`, unless R48 withholds it; `total` is the number of elements of a
stored row. -/
def mmgWrite (E : Env) (R : Rnd) (part : Bool) (fmt : Nat) (scale : Val) (base pitch : Nat) (t : Bool) (total r0 cols : Nat)
    (pts : List (List Pt)) : Plan Unit := do
  if pts.any (fun r => r.any (·.bad)) then do Plan.count kAccWindowCount 1; Plan.code 0x0305
  else allOrNone (do
    let codes ← ((List.range pts.length).zip pts).mapM (fun p => ((List.range cols).zip p.2).mapM (fun q => do
      pure (some (← mmgOut R part fmt scale ((r0 + p.1) * cols + q.1) q.2))))
    wrArea E base pitch fmt t total r0 0 cols codes)

def mmgRnd (J : MmgJob) (extra : Nat) : Rnd :=
  { rnd := J.d.rnd, ovf := J.d.ovf, seed := J.A.seed, tag := (J.A.tag + extra) % 2 ^ 32 }

/-- Seeds of an area: partials in, or none. -/
def seedsOf (E : Env) (acc pitch : Nat) (t : Bool) (r0 nr nc : Nat) : Plan (List (List (Option Nat))) :=
  if acc = 0 then pure (List.replicate nr (List.replicate nc none))
  else do pure ((← rdPartials E (acc, pitch, t) r0 nr 0 nc).map (fun r => r.map some))

/-- The cells of a product of staged rows, with what its checksums need. -/
def mmgArea (exact : Bool) (B : Int) (seeds : List (List (Option Nat))) (as bs : List (List Elem)) : Area :=
  { pts := (as.zip seeds).map (fun p => (bs.zip p.2).map (fun q => dot exact B q.2 p.1 q.1)), as := as, bs := bs
    seeds := if exact then seeds.map (fun r => r.map (fun c => seedC (c.getD 0))) else [], outside := false }

/-- Elements of a side without scales over `K` values of k, fetched slice by slice (R60). -/
def rdPlain (E : Env) (S : Side) (r0 n K : Nat) : Plan (List (List Elem)) := do
  let codes ← (kSlices K).foldlM (fun (acc : List (List Nat)) k => do
    let c ← sideSlice E S r0 n k.1 k.2
    pure (List.zipWith (· ++ ·) acc c)) (List.replicate n [])
  pure (codes.map (fun r => r.map (fun c => (c, decodeNum S.fmt c))))

/-- Rows of X for tokens `t0 … t0 + n - 1`: for each token its input features (R169). -/
def rdX (E : Env) (d : MmgDesc) (t0 n : Nat) : Plan (List (List Elem)) :=
  if d.dwEn then do
    let codes ← sideSlice E { base := d.x, pitch := d.xPitch, fmt := d.xFmt, alongK := !d.xT } t0 n 0 d.i
    pure (codes.map (fun r => r.map (fun c => (c, decodeNum d.xFmt c))))
  else pure []

/-- What a token block feeds to both arrays: its rows of D and of X (R168, R169), with array B's beats (R175). -/
def mmgBlockIn (E : Env) (J : MmgJob) (bay t0 n : Nat) : Plan (List (List Elem) × List (List Elem)) := do
  let d := J.d
  let D ← rdD E J t0 n
  let X ← rdX E d t0 n
  if d.dwEn then arrayBeats E bay (ceilDiv d.i 128 * ceilDiv d.o 128 * ceilDiv 128 (rankOf d.xFmt d.dyFmt))
  pure (D, X)

/-- The dX planes of a block from its rows of D (R169, R175). -/
def mmgDx (E : Env) (J : MmgJob) (bay t0 n : Nat) (D : Plan (List (List Elem))) : Plan Area := do
  let d := J.d
  let D ← D
  arrayBeats E bay (ceilDiv d.i 128 * ceilDiv d.o (rankOf d.dyFmt d.wFmt))
  let ws ← rdPlain E { base := d.w, pitch := d.wPitch, fmt := d.wFmt, alongK := !d.wT } 0 d.i d.o
  let seeds ← seedsOf E d.dxAcc J.A.dxpPitch d.dxT t0 n d.i
  pure (mmgArea d.dxExact (mmgWindow d 0).1 seeds D ws)

/-- One token block, the `b`-th: its rows of D and X, and its dX rows written from alternating plane sets (R64, R168, R169). -/
def mmgBlock (E : Env) (J : MmgJob) (bay b t0 : Nat) : Plan (List (List Elem) × List (List Elem)) := do
  let d := J.d
  let n := min 128 (J.tAct - t0)
  let r ← mmgBlockIn E J bay t0 n
  if d.dxEn then do
    let wide := ceilDiv d.i 128
    let plane := tilePlane 0 (wide - 1) b
    let planes := fun (a : Area) => (areaPlanes (mmgWindow d 0).1 wide a).map (fun p => (plane + p.1, p.2))
    let a ← cksTile2 E d.dxExact true bay 0 planes (mmgDx E J bay t0 n (pure r.1)) (mmgDx E J bay t0 n (rdD E J t0 n))
    mmgWrite E (mmgRnd J 0) d.dxPart d.dxFmt (scaleVal J.A.dxScale) d.dx (if d.dxPart then J.A.dxpPitch else d.dxPitch) d.dxT
      (if d.dxT then d.t else d.i) t0 d.i a.pts
    pure r
  else pure r

/-- dW over all active tokens, from their rows of D and X (R167, R169). -/
def mmgDw (E : Env) (J : MmgJob) (r : List (List Elem) × List (List Elem)) : Plan Area := do
  let d := J.d
  let seeds ← seedsOf E d.dwAcc J.A.dwpPitch d.dwT 0 d.i d.o
  pure (mmgArea d.dwExact (mmgWindow d 1).1 seeds (transposeN (0, .zero) d.i r.2) (transposeN (0, .zero) d.o r.1))

/-- db: the column sums of D (R167, R171, R172). -/
def mmgDb (E : Env) (J : MmgJob) (D : List (List Elem)) : Plan Unit := do
  let d := J.d
  if J.A.db = 0 then pure ()
  else
    let seeds ← seedsOf E J.A.dbAcc 0 false 0 1 d.o
    let ones : List Elem := D.map (fun _ => (0, Val.one))
    let pts := ((transposeN (0, .zero) d.o D).zip (seeds.headD [])).map (fun p =>
      dot d.dbExact (mmgWindow d 2).1 p.2 p.1 ones)
    mmgWrite E (mmgRnd J 2) d.dwPart (if d.dwPart then partFmt d.dbExact else fFP32) .one J.A.db 0 false d.o 0 d.o [pts]

/-- The rows of all blocks as one. -/
def joinBlocks {α : Type} (bs : List (List α × List α)) : List α × List α := (bs.flatMap (·.1), bs.flatMap (·.2))

/-- MMG (R167 to R180). A re-run of dW fetches every block again (R67). -/
def mmgPlan (E : Env) (x bay : Nat) : Plan Unit := do
  let J ← mmgIssue E false x
  let d := J.d
  let ts := starts J.tAct 128
  let r := joinBlocks (← ((List.range ts.length).zip ts).mapM (fun p => mmgBlock E J bay p.1 p.2))
  if d.dwEn then do
    let again : Plan Area := do
      mmgDw E J (joinBlocks (← ts.mapM (fun t0 => mmgBlockIn E J bay t0 (min 128 (J.tAct - t0)))))
    let a ← cksTile2 E d.dwExact true bay 1 (areaPlanes (mmgWindow d 1).1 (ceilDiv d.o 128)) (mmgDw E J r) again
    mmgWrite E (mmgRnd J 1) d.dwPart d.dwFmt (scaleVal J.A.dwScale) d.dw
      (if d.dwPart then J.A.dwpPitch else d.dwPitch) d.dwT (if d.dwT then d.i else d.o) 0 d.o a.pts
  else pure ()
  mmgDb E J r.1

/-- MMG in index form (R184). -/
def mmgIndexPlan (E : Env) (x : Nat) : Plan Unit := do
  let J ← mmgIssue E true x
  let d := J.d
  (List.range J.tAct).forM (fun t => do
    let xt ← rdNat E (d.x + 4 * t) 4
    if J.A.embRows ≤ xt ∨ 2 ^ 31 ≤ xt then do Plan.count kEmbIndexCount 1; Plan.code 0x0312
    else do
      let D ← rdD E J t 1
      scatter E (d.dw + xt * J.A.dwpPitch) J.A.dwExp ((D.headD []).map (·.2)))

end Sys2Proof.Machine
end

