-- ==== Sys2Proof/Machine/Link.lean ====
section
/-! DEFINITION. Flits of ZelugLink and frames of Soune ports: control areas, sequence numbers, credits and replay (R460 to
R464, R485 to R487). Both links follow the same rules and differ in widths, so `zl` says which one is meant. -/

namespace Sys2Proof.Machine

def State.setDp (s : State) (d : Dp) : State := { s with dp := d }

def State.obj (s : State) (k : Nat) : Nat := objGet s.dp k

def State.bump (s : State) (k n : Nat) : State := { s with dp := Sys2Proof.Machine.bump s.dp k n }

def State.setObj (s : State) (k v : Nat) : State := { s with dp := objSet s.dp k v }

def State.log (s : State) (e : Event) : State := { s with dp := logEvent s.dp e }

def State.send (s : State) (kind : OutKind) (dest : Nat) (data : List Nat) : State :=
  { s with out := s.out ++ [⟨kind, dest, data⟩] }

def State.time (s : State) : Nat := s.dp.time

/-! ## Ports -/

def State.port (s : State) (zl : Bool) (p : Nat) : Port := ((if zl then s.zl else s.soune)[p]?).getD {}

def State.setPort (s : State) (zl : Bool) (p : Nat) (x : Port) : State :=
  if zl then { s with zl := s.zl.set p x } else { s with soune := s.soune.set p x }

/-- Modulus of sequence numbers. -/
def seqMod (zl : Bool) : Nat := if zl then 1024 else 4096

/-- Bytes of data that a flit or frame holds. -/
def frameBytes (zl : Bool) : Nat := if zl then 256 else 512

/-- Whether a port carries traffic. -/
def portActive (zl : Bool) (x : Port) : Bool := if zl then x.st == 4 || x.st == 5 else x.st == 2

def portUp (s : State) (p : Nat) : Bool := portActive true (s.port true p)

/-- The ZelugLink port of a context's transactions, or the surviving one (R466, R468). -/
def ctxPort (c : Nat) : Nat := c % 2

def zlPortFor (s : State) (c : Nat) : Nat := if portUp s (ctxPort c) || !portUp s (1 - ctxPort c) then ctxPort c else 1 - ctxPort c

/-! ## Control areas (R461, R485) -/

/-- Fields of a control area: sequence number, acknowledgement, NAK, type, class or channel of the data, class or channel and
count of returned credits, headers. -/
structure FrameCtl where
  seq : Nat
  ack : Nat
  nak : Bool
  ftype : Nat
  cls : Nat
  crdClass : Nat
  crdCount : Nat
  hdr0 : Nat := 0
  hdr1 : Nat := 0
deriving DecidableEq, Repr, Inhabited

/-- The check over data and control bits: CRC-64 in a flit, CRC-32C in a frame. -/
def frameCrc (zl : Bool) (ctrl data : Nat) : Nat :=
  if zl then crc64 (leBytes 256 data ++ leBytes 24 (ctrl >>> 64)) else crc32c (leBytes 512 data ++ leBytes 12 (ctrl >>> 32))

/-- A control area with its check. -/
def ctlWord (zl : Bool) (c : FrameCtl) (data : Nat) : Nat :=
  let w := if zl then
      c.seq % 2 ^ 10 * 2 ^ 246 + c.ack % 2 ^ 10 * 2 ^ 236 + b2n c.nak * 2 ^ 235 + c.ftype % 4 * 2 ^ 233 + c.crdClass % 4 * 2 ^ 231 +
        c.crdCount % 2 ^ 7 * 2 ^ 224 + c.hdr0 % 2 ^ 80 * 2 ^ 144 + c.hdr1 % 2 ^ 80 * 2 ^ 64
    else
      c.seq % 2 ^ 12 * 2 ^ 116 + c.ack % 2 ^ 12 * 2 ^ 104 + b2n c.nak * 2 ^ 103 + c.ftype % 4 * 2 ^ 101 + c.cls % 4 * 2 ^ 99 +
        c.crdClass % 4 * 2 ^ 97 + c.crdCount % 2 ^ 8 * 2 ^ 89
  w + frameCrc zl w data

def ctlOf (zl : Bool) (w : Nat) : FrameCtl :=
  if zl then { seq := bits w 255 246, ack := bits w 245 236, nak := bit w 235, ftype := bits w 234 233, cls := 0
               crdClass := bits w 232 231, crdCount := bits w 230 224, hdr0 := bits w 223 144, hdr1 := bits w 143 64 }
  else { seq := bits w 127 116, ack := bits w 115 104, nak := bit w 103, ftype := bits w 102 101, cls := bits w 100 99
         crdClass := bits w 98 97, crdCount := bits w 96 89 }

/-- Whether a received control area agrees with its check. -/
def ctlOk (zl : Bool) (w data : Nat) : Bool :=
  if zl then w % 2 ^ 64 == frameCrc true w data else w % 2 ^ 32 == frameCrc false w data && bits w 88 32 == 0

/-! ## Sending -/

def frameOut (zl : Bool) : OutKind := if zl then .zlFlit else .souneFrame

/-- Puts a flit or frame on the line and into the replay buffer; it returns `crd.2` credits of class `crd.1`. -/
def emitFrame (s : State) (zl : Bool) (p ftype cls hdr data : Nat) (nak : Bool) (crd : Nat × Nat) : State :=
  let x := s.port zl p
  let w := ctlWord zl { seq := x.nextOut, ack := (x.nextIn + seqMod zl - 1) % seqMod zl, nak := nak, ftype := ftype, cls := cls
                        crdClass := if crd.2 = 0 ∧ zl then 3 else crd.1, crdCount := crd.2, hdr0 := hdr } data
  (s.setPort zl p { x with nextOut := (x.nextOut + 1) % seqMod zl, buf := x.buf ++ [(x.nextOut, w, data)] }).send (frameOut zl) p [w, data]

/-- Sends a data frame of a class, or holds it until its credit and room in the replay buffer come, or until the port returns
from RECOVERY; the order within the port is kept (R463, R464, R486). -/
def sendFrame (s : State) (zl : Bool) (p cls hdr data : Nat) : State :=
  let x := s.port zl p
  if !portActive zl x && !x.recovering then s
  else if !portActive zl x ∨ x.credits.getD cls 0 = 0 ∨ 1024 ≤ x.buf.length ∨ x.wait.any (fun w => w.1 == cls) then
    s.setPort zl p { x with wait := x.wait ++ [(cls, hdr, data)] }
  else emitFrame (s.setPort zl p { x with credits := x.credits.set cls (x.credits.getD cls 0 - 1) }) zl p 0 cls hdr data false (0, 0)

/-- Bytes cut into the data parts of successive frames; at least one. -/
def framesOf (zl : Bool) (bs : List Nat) : List Nat :=
  let n := frameBytes zl
  (List.range (max 1 (ceilDiv bs.length n))).map (fun i => leNat ((bs.drop (i * n)).take n))

/-- A transaction header (R462). -/
def zlHdr (ttype len ttag addr attr : Nat) : Nat :=
  ttype % 16 * 2 ^ 76 + len % 256 * 2 ^ 68 + ttag % 2 ^ 12 * 2 ^ 56 + addr / 16 % 2 ^ 52 * 2 ^ 4 + attr % 16

/-- Sends a transaction with its data: the header travels in the first flit. -/
def zlTransact (s : State) (p cls hdr : Nat) (bs : List Nat) : State :=
  ((framesOf true bs).foldl (fun (a : State × Nat) d => (sendFrame a.1 true p cls a.2 d, 0)) (s, hdr)).1

/-- Sends a packet's bytes in frames of a channel. -/
def souneTransact (s : State) (p vc : Nat) (bs : List Nat) : State :=
  (framesOf false bs).foldl (fun s d => sendFrame s false p vc 0 d) s

/-! ## Receiving (R464, R487) -/

/-- Sends what waits, as far as credits reach. -/
def drainWait (zl : Bool) (p : Nat) : List (Nat × Nat × Nat) → State → State
  | [], s => s
  | w :: ws, s => drainWait zl p ws (sendFrame s zl p w.1 w.2.1 w.2.2)

/-- Frames of the replay buffer that `ACK` covers leave it. -/
def coverAck (zl : Bool) (ack : Nat) (buf : List (Nat × Nat × Nat)) : List (Nat × Nat × Nat) :=
  let m := seqMod zl
  match buf.head? with
  | none => []
  | some b =>
    let n := (ack + m - b.1) % m
    if n < buf.length then buf.drop (n + 1) else buf

def replayKey (zl : Bool) (p : Nat) : Nat := if zl then kZlReplayCount else objKey p kPortReplays

/-- Replays the buffer; the fourth replay of one frame in a row takes the port into RECOVERY. -/
def replay (s : State) (zl : Bool) (p : Nat) : State :=
  let x := s.port zl p
  match x.buf.head? with
  | none => s
  | some b =>
    let n := match x.replayed with
      | some r => if r.1 = b.1 then r.2 + 1 else 1
      | none => 1
    let s1 := (s.setPort zl p { x with replayed := some (b.1, n) }).bump (replayKey zl p) 1
    let s2 := x.buf.foldl (fun s f => s.send (frameOut zl) p [f.2.1, f.2.2]) s1
    if 4 ≤ n then
      s2.setPort zl p { s2.port zl p with st := if zl then 6 else 3, since := s.time, replayed := none, recovering := true }
    else s2

/-- The class of a transaction (R463). -/
def hdrClass (h : Nat) : Nat :=
  match bits h 79 76 with
  | 0 => 1
  | 5 => 1
  | 2 => 2
  | 3 => 2
  | _ => 0

/-- The class in which a data flit or frame took its credit; a flit without a header carries on the transaction before it. -/
def takenClass (zl : Bool) (c : FrameCtl) (last : Nat) : Nat := if !zl then c.cls else if c.hdr0 = 0 then last else hdrClass c.hdr0

/-- A flit or frame arrives: a bad one, or one out of order, is answered once with NAK and discarded; a good one returns
credits, acknowledges or asks for a replay, and is acknowledged, with the credit that its data took. The second part says
whether it was accepted. -/
def receiveFrame (s : State) (zl : Bool) (p ctrl data : Nat) (uncorrectable : Bool) : State × Bool :=
  let x := s.port zl p
  let c := ctlOf zl ctrl
  if !portActive zl x then (s, false)
  else if uncorrectable || !ctlOk zl ctrl data || c.seq != x.nextIn || c.ftype == 3 then
    if x.naked then (s, false)
    else (emitFrame (s.setPort zl p { x with naked := true }) zl p 1 0 0 0 true (0, 0), false)
  else
    let credits := if c.crdCount = 0 ∨ (zl ∧ c.crdClass = 3) then x.credits
      else x.credits.set c.crdClass (x.credits.getD c.crdClass 0 + c.crdCount)
    let buf := coverAck zl c.ack x.buf
    let cls := takenClass zl c x.inClass
    let s1 := s.setPort zl p { x with nextIn := (x.nextIn + 1) % seqMod zl, naked := false, credits := credits, buf := buf
                                      replayed := if buf.length < x.buf.length then none else x.replayed, wait := []
                                      inClass := if c.ftype = 0 then cls else x.inClass }
    let s2 := drainWait zl p x.wait s1
    let s3 := if c.nak then replay s2 zl p else s2
    let s4 := if c.ftype = 0 then emitFrame s3 zl p 2 0 0 0 false (cls, 1) else s3
    (if c.ftype = 0 ∧ zl ∧ c.hdr1 ≠ 0 then emitFrame s4 zl p 2 0 0 0 false (hdrClass c.hdr1, 1) else s4, true)

end Sys2Proof.Machine
end

