-- ==== Sys2Proof/Machine/Queues.lean ====
section
/-! DEFINITION. Descriptors' common header (R479), contexts and their records (R437, R438), ops in flight, signal words,
completion entries and interrupts (R474 to R478), and deadlines (R628, R631). -/

namespace Sys2Proof.Machine

/-! ## The common header (R479) -/

def hTag (x : Nat) : Nat := bits x 127 64
def hLayer (x : Nat) : Nat := bits x 63 52
def hQueue (x : Nat) : Nat := bits x 47 40
def hOpc (x : Nat) : Nat := bits x 39 32
def hVer (x : Nat) : Nat := bits x 7 0

/-- Op codes of R480. -/
def opMMA : Nat := 0x01
def opMMG : Nat := 0x02
def opATT : Nat := 0x03
def opATG : Nat := 0x04
def opCNV : Nat := 0x05
def opCNT : Nat := 0x06
def opVEC : Nat := 0x07
def opFUN : Nat := 0x08
def opRMS : Nat := 0x09
def opSMX : Nat := 0x0A
def opUPD : Nat := 0x10
def opPSH : Nat := 0x11
def opPOP : Nat := 0x12
def opMRK : Nat := 0x13
def opMOV : Nat := 0x14
def opPFT : Nat := 0x15
def opFNC : Nat := 0x16
def opBCS : Nat := 0x20
def opRDO : Nat := 0x21
def opMDC : Nat := 0x30
def opMEN : Nat := 0x31
def opING : Nat := 0x32

/-- The bay of a reel op (R328). -/
def reelBay (x : Nat) : Nat := bits x 291 285

/-- The engine queue that an op runs on (R480); none for bay ops, fences, and codes of no op. -/
def engineOf (x : Nat) : Option Nat :=
  match hOpc x with
  | 0x10 => some 0x86
  | 0x11 => some (0x88 + reelBay x / 32)
  | 0x12 => some (0x88 + reelBay x / 32)
  | 0x13 => some (0x88 + reelBay x / 32)
  | 0x14 => some 0x84
  | 0x15 => some 0x85
  | 0x20 => some 0x83
  | 0x21 => some 0x83
  | 0x30 => some 0x80
  | 0x31 => some 0x81
  | 0x32 => some 0x82
  | _ => none

def isBayOp (opc : Nat) : Bool := decide (1 ≤ opc) && decide (opc ≤ 0x0A)

/-- The header codes of R480, in their order, without 0x01B2 and later. -/
def headerCode (x : Nat) : Nat :=
  let q := hQueue x
  if !isBayOp (hOpc x) ∧ (engineOf x).isNone ∧ hOpc x ≠ opFNC then 0x0101
  else if hVer x ≠ 1 then 0x0102
  else if hOpc x ≠ opFNC ∧ !(if isBayOp (hOpc x) then decide (q < 128) || q == 0xFF else some q == engineOf x || q == 0xFE) then 0x0103
  else if bits x 51 48 ≠ 0 ∨ bits x 31 8 ≠ 0 then 0x0104
  else 0

/-! ## Fences (R452) -/

structure Fnc where
  thresh : Nat
  value : Nat
  dest : Nat
  waitSig : Nat
  setSig : Nat
  timeoutUs : Nat
  scope : Nat
  waitEn : Bool
  sigEn : Bool
  remote : Bool
  inval : Bool
  stepEn : Bool
  toAct : Bool
  destGrp : Nat
deriving DecidableEq, Repr, Inhabited

def fncOf (x : Nat) : Fnc :=
  { thresh := bits x 1023 960, value := bits x 959 896, dest := bits x 895 880, waitSig := bits x 879 868
    setSig := bits x 867 856, timeoutUs := bits x 855 824, scope := bits x 823 822, waitEn := bit x 821
    sigEn := bit x 820, remote := bit x 819, inval := bit x 818, stepEn := bit x 817, toAct := bit x 816
    destGrp := bits x 815 800 }

/-- Whether a word lies in a context's signal range (R449). -/
def sigOwned (rec w : Nat) : Bool := decide (bits rec 799 788 ≤ w) && decide (w < bits rec 799 788 + bits rec 787 775)

/-- The checks of R452 and R449; `size` is the size of group `DEST_GRP`, none where this device is no member of it. -/
def fncOk (rec x : Nat) (size : Option Nat) : Bool :=
  let f := fncOf x
  let q := hQueue x
  decide (bits x 799 128 = 0) && decide (f.scope ≤ 1) &&
  (if f.scope = 1 then q == 0xFE else decide (q ≤ 0x86) || (decide (0x88 ≤ q) && decide (q ≤ 0x8B))) &&
  (!f.sigEn || f.value != 0) && (f.timeoutUs == 0 || f.waitEn) &&
  (if f.remote then (match size with | some n => decide (f.dest < n) | none => false) else f.dest == 0 && f.destGrp == 0) &&
  (!f.waitEn || sigOwned rec f.waitSig) && (!f.sigEn || f.remote || sigOwned rec f.setSig)

/-! ## Context records (R438) -/

def cBayMask (r : Nat) : Nat := bits r 1023 896
def cPtRoot (r : Nat) : Nat := bits r 887 832
def cPartition (r : Nat) : Nat := bits r 831 826
def cKind (r : Nat) : Nat := bits r 825 824
def cWeight (r : Nat) : Nat := bits r 823 816
def cOpsMax (r : Nat) : Nat := bits r 815 803
def cSigBase (r : Nat) : Nat := bits r 799 788
def cSigCount (r : Nat) : Nat := bits r 787 775
def cOpLimitMs (r : Nat) : Nat := bits r 767 736

/-- Whether a record keeps the layout of R438; `PT_ROOT` in HBM3E is a page of a valid region. -/
def recordOk (d : Dp) (r : Nat) : Bool :=
  cBayMask r != 0 && bits r 895 888 == 0 && cPtRoot r % 4096 == 0 && hbmPageOk d (cPtRoot r / Config.pageBytes) &&
  decide (cPartition r ≤ 62) && decide (cKind r ≤ 2) && decide (1 ≤ cWeight r) &&
  decide (1 ≤ cOpsMax r) && decide (cOpsMax r ≤ 4096) && bits r 802 800 == 0 &&
  decide (cSigBase r + cSigCount r ≤ 4096) && bits r 774 768 == 0 && bits r 735 0 == 0

/-! ## Ops and contexts of the state -/

def State.ctx (s : State) (c : Nat) : Ctx := kvGet {} s.ctxs c

def State.setCtx (s : State) (c : Nat) (x : Ctx) : State := { s with ctxs := kvSet {} s.ctxs c x }

def State.op? (s : State) (id : Nat) : Option Op := s.ops.find? (fun o => o.id == id)

def State.putOp (s : State) (o : Op) : State := { s with ops := s.ops.map (fun x => if x.id = o.id then o else x) }

/-- Whether any context exists: is not FREE (R325, R470, R658). -/
def State.anyCtx (s : State) : Bool := s.ctxs.any (fun p => p.2.st != .free)

def State.inflight (s : State) (c : Nat) : List Op := s.ops.filter (fun o => o.ctx == c)

/-- Who accesses on behalf of a context (R299, R281). -/
def State.env (s : State) (c : Nat) : Env :=
  { d := s.dp, ctx := c, root := cPtRoot (s.ctx c).record, part := cPartition (s.ctx c).record }

/-- Who accesses in an op: MOV writes flash (R471), and UPD streams (R271). What the op read at its issue, and its `NEG_ZERO_OUT`, are its own. -/
def State.opEnv (s : State) (o : Op) : Env :=
  { s.env o.ctx with
    mov := o.opc == opMOV
    held := o.held
    keepNeg := o.keepNeg
    hint := if o.opc = opUPD then some hStream else none }

/-! ## Host memory over ZelugLink (R462, R466, R468) -/

/-- The transfers of `n` bytes of host memory: address and bytes of each, at most 4 KiB and none across a 4 KiB boundary (R462). -/
def transfers (a n : Nat) : List (Nat × Nat) :=
  if n = 0 then []
  else (List.range ((a + n - 1) / 4096 - a / 4096 + 1)).map (fun i =>
    let lo := max a ((a / 4096 + i) * 4096)
    (lo, min (a + n) ((a / 4096 + i + 1) * 4096) - lo))

/-- `LEN` of a transfer: the 16-byte units that it touches, 0 for 256 of them (R462). -/
def transferLen (t : Nat × Nat) : Nat := ceilDiv (t.1 % 16 + t.2) 16 % 256

/-- What an access writes to host memory. -/
def hostRun? : Act → Option (Nat × List Nat)
  | .wr p bs _ => if p.tier = 2 then some (p.addr, bs) else none
  | _ => none

/-- Posted writes of a context's bytes to host memory, in order (R468). -/
def sendMwrs (s : State) (c : Nat) (w : Nat × List Nat) : State :=
  (transfers w.1 w.2.length).foldl (fun s t =>
    zlTransact s (zlPortFor s c) 0 (zlHdr 1 (transferLen t) 0 t.1 0) ((w.2.drop (t.1 - w.1)).take t.2)) s

def hostWrites (s : State) (c : Nat) (as : List Act) : State := (as.filterMap hostRun?).foldl (fun s w => sendMwrs s c w) s

/-- The transfers of host memory that accesses read. -/
def hostReads (as : List Act) : List (Nat × Nat) :=
  as.flatMap (fun a => match a with
    | .rd p n _ => if p.tier = 2 then transfers p.addr n else []
    | _ => [])

/-- A read tag that no outstanding read of a port uses, counted on from the tag given last (R462). -/
def freeTag? (s : State) (p : Nat) : Option Nat :=
  let busy := (s.zlReads.filter (fun r => r.port == p)).map (·.tag)
  ((List.range 4096).map (fun i => (s.zlTag + i) % 4096)).find? (fun t => !busy.contains t)

/-- Sends a read of host memory under a tag, and notes it as outstanding. -/
def sendMrd (s : State) (id port k : Nat) (t : Nat × Nat × Nat) : State :=
  let s1 := zlTransact s port 1 (zlHdr 0 (transferLen t.2) k t.2.1 0) []
  ({ s1 with zlReads := s1.zlReads ++ [⟨port, k, id, t.1, s.time⟩], zlTag := (k + 1) % 4096 } : State).send .zlRead port [k, t.2.1, t.2.2]

/-- Sends one of an op's reads, or leaves it where no tag is free. -/
def sendNext (id ctx : Nat) (r : State × List (Nat × Nat × Nat)) (t : Nat × Nat × Nat) : State × List (Nat × Nat × Nat) :=
  match freeTag? r.1 (zlPortFor r.1 ctx) with
  | none => (r.1, r.2 ++ [t])
  | some k => (sendMrd r.1 id (zlPortFor r.1 ctx) k t, r.2)

/-- Sends reads of host memory for an op, each a part of it, an address and a length; the second part is what no tag was free for
(R462, R469). -/
def sendMrds (id ctx : Nat) (ts : List (Nat × Nat × Nat)) (s : State) : State × List (Nat × Nat × Nat) :=
  ts.foldl (sendNext id ctx) (s, [])

/-- Issues reads of host memory for an op; those without a tag wait (log 45). -/
def issueRead (s : State) (o : Op) (ts : List (Nat × Nat × Nat)) : State :=
  let r := sendMrds o.id o.ctx ts s
  r.1.putOp { o with hostAsked := true, hostTodo := r.2 }

/-- The reads of host memory that an op waits for, none once all have come. -/
def waitsForHost (o : Op) (e : Eff) : Option (List (Nat × Nat)) :=
  if o.hostOk then none
  else match hostReads e.acts.reverse with
    | [] => none
    | ts => some ts

/-- An op that waits for host memory: its reads are issued once, and those that had no tag when one is free. -/
def readOn (s : State) (o : Op) (ts : List (Nat × Nat)) : State :=
  if !o.hostAsked then issueRead s o (ts.map (fun t => (0, t)))
  else if o.hostTodo.isEmpty then s
  else issueRead s o o.hostTodo

/-- Carries out accesses that were worked out for a context: the memories as they leave them, and what goes to host memory sent. -/
def State.effect (s : State) (E : Env) (e : Eff) : State := hostWrites (s.setDp (applyEff E e s.dp)) E.ctx e.acts.reverse

/-- Whether the deadline of a wait that began at `since` has expired (R628, R631). -/
def State.expired (s : State) (since limitNs : Nat) : Bool :=
  let skew := toSigned 16 (s.obj kMutexSkewNs)
  decide (max (since : Int) ((since : Int) + limitNs + skew) ≤ (s.time : Int))

/-! ## Signal words (R445 to R450) -/

/-- Adds to a signal word, modulo 2^64. -/
def State.signal (s : State) (w v : Nat) : State := { s with sig := kvSet 0 s.sig w ((kvGet 0 s.sig w + v) % 2 ^ 64) }

/-- Sets the words of a record's range to zero (R450). -/
def State.clearSignals (s : State) (rec : Nat) : State :=
  { s with sig := s.sig.filter (fun p => !sigOwned rec p.1) }

/-! ## Fence waits -/

/-- A fence's earlier ops in its scope: of the queue, or of the context (R447 step 1). -/
def fenceEarlier (s : State) (o : Op) : List Op :=
  s.ops.filter (fun e => e.ctx == o.ctx && decide (e.id < o.id) && ((fncOf o.desc).scope == 1 || e.queue == o.queue))

def fenceStep1 (s : State) (o : Op) : Bool := (fenceEarlier s o).all (fun e => e.phase == .done)

/-- Notes the moment from which fences wait for their signals (R451). -/
def noteFences (s : State) : State :=
  { s with ops := s.ops.map (fun o =>
      if o.opc = opFNC ∧ o.phase ≠ .done ∧ o.waitSince = none ∧ (fncOf o.desc).waitEn ∧ fenceStep1 s o then
        { o with waitSince := some s.time } else o) }

/-! ## Completion -/

/-- Whether a queue belongs to an engine whose time is accounted (R376). -/
def engineAccounted (q : Nat) : Bool := decide (0x80 ≤ q) && decide (q ≤ 0x8B) && q != 0x84

/-- An op completes: its status and `INFO` stand, and its completion waits to be posted (R476). -/
def finishOp (s : State) (id status info : Nat) : State :=
  match s.op? id with
  | none => s
  | some o =>
    if o.phase = .done then s
    else
      let s1 := s.putOp { o with phase := .done, status := status, info := info }
      let C := s1.ctx o.ctx
      let s2 := s1.setCtx o.ctx { C with doneQ := C.doneQ ++ [id] }
      let s3 := s2.bump (objKey o.ctx kAcctOps) 1
      noteFences (if o.phase = .started ∧ engineAccounted o.queue then s3.bump (objKey o.ctx kAcctEngineNs) (s.time - o.startedAt) else s3)

/-- The completion entry of R476. -/
def cqEntry (s : State) (o : Op) : Nat :=
  let C := s.ctx o.ctx
  let phase := 1 - C.cqProd / 2 ^ s.obj (objKey o.ctx kCqLog2) % 2
  hTag o.desc * 2 ^ 192 + o.status * 2 ^ 176 + o.opc * 2 ^ 168 + o.ctx * 2 ^ 160 + o.queue * 2 ^ 152 +
    o.info * 2 ^ 120 + C.sqCons * 2 ^ 88 + phase

/-- Whether the completion queue of a context is full (R477, R478). -/
def cqFull (s : State) (c : Nat) : Bool :=
  let C := s.ctx c
  decide (2 ^ s.obj (objKey c kCqLog2) ≤ (C.cqProd + 2 ^ 32 - C.cqCons) % 2 ^ 32)

/-- Sends an interrupt in a flit of a port (R462). -/
def sendInt (s : State) (c v : Nat) : State :=
  zlTransact (s.send .interrupt v [c]) (zlPortFor s c) 0 (zlHdr 6 0 0 0 0 + v % 2 ^ 12 * 2 ^ 4) []

/-- Sends a completion interrupt, or holds it while `CQ_MOD_US` runs (R477). -/
def cqInterrupt (s : State) (c : Nat) : State :=
  let C := s.ctx c
  let v := s.obj (objKey c kCqVector)
  if v = 0xFFFF then s
  else
    let due := match C.lastInt with
      | none => true
      | some t => decide (t + s.obj (objKey c kCqModUs) * 1000 ≤ s.time)
    if due then sendInt (s.setCtx c { C with lastInt := some s.time, intHeld := false }) c v
    else s.setCtx c { C with intHeld := true }

/-- Writes the completion entry of an op in one MWR and raises the interrupt that is due (R476, R477). -/
def postEntry (s : State) (o : Op) : State :=
  let C := s.ctx o.ctx
  let slot := C.cqProd % 2 ^ s.obj (objKey o.ctx kCqLog2)
  let at_ := s.obj (objKey o.ctx kCqBase) + 32 * slot
  let bs := leBytes 32 (cqEntry s o)
  let s0 : State := { s with dp := { s.dp with mem := hostWrite s.dp.mem at_ bs } }
  let s1 := zlTransact s0 (zlPortFor s o.ctx) 0 (zlHdr 1 2 0 at_ 0) bs
  let s2 := s1.setCtx o.ctx { C with cqProd := (C.cqProd + 1) % 2 ^ 32, intArmed := false }
  if C.intArmed then cqInterrupt s2 o.ctx else s2

/-- The op leaves the device; a context in TEARDOWN without ops becomes FAULTED (R454). -/
def removeOp (s : State) (o : Op) : State :=
  let C := s.ctx o.ctx
  let s1 : State := { s.setCtx o.ctx { C with doneQ := C.doneQ.filter (· ≠ o.id) } with ops := s.ops.filter (fun x => x.id ≠ o.id) }
  if C.st = .teardown ∧ (s1.inflight o.ctx).isEmpty then s1.setCtx o.ctx { s1.ctx o.ctx with st := .faulted } else s1

/-- Posts the completion of the op that completed first in its context: an entry where the queue has room; during TEARDOWN
an entry that does not fit is discarded and counted; otherwise the wait of R478 begins. -/
def postOp (s : State) (o : Op) : State :=
  if o.phase = .done ∧ (s.ctx o.ctx).doneQ.head? = some o.id then
    if !cqFull s o.ctx then removeOp (postEntry s o) o
    else if (s.ctx o.ctx).st = .teardown then removeOp (s.bump (objKey o.ctx kCqLost) 1) o
    else if o.cqSince = none then s.putOp { o with cqSince := some s.time } else s
  else s

end Sys2Proof.Machine
end

