-- ==== Sys2Proof/Machine/Widen.lean ====
section
/-! DEFINITION. Accesses that the device makes on a context's behalf (R664), and the widening state of a context: layer
decisions, storms, mirrors and the step boundary (R217, R218, R226 to R232). -/

namespace Sys2Proof.Machine

/-! ## The device's own accesses (R664) -/

/-- A read of `n` bytes for a context, by narrow or line requests (R277); no number where it meets a
translation fault or poisoned data. -/
def devRead (s : State) (c va n : Nat) (narrow : Bool := false) : Option Nat × State :=
  let E := s.env c
  let r : Except Nat (List Nat) × Eff := (rdN E narrow va n).run {}
  (r.1.toOption.map leNat, s.effect E r.2)

/-- A read that leaves the state as it is. -/
def peek (s : State) (c va n : Nat) : Option Nat :=
  match ((rdN (s.env c) false va n).run {} : Except Nat (List Nat) × Eff) with
  | (.ok bs, _) => some (leNat bs)
  | (.error _, _) => none

/-- A write for a context; none, with no effect, where it meets a translation fault. -/
def devWrite (s : State) (c va : Nat) (bs : List Nat) (narrow : Bool := false) : Option State :=
  let E := s.env c
  match ((wrN E narrow va bs).run {} : Except Nat Unit × Eff) with
  | (.ok _, e) => some (s.effect E e)
  | (.error _, _) => none

/-! ## Layers -/

def State.wid (s : State) (c : Nat) : WidCtx := kvGet {} s.dp.wid c

def State.setWid (s : State) (c : Nat) (w : WidCtx) : State := s.setDp { s.dp with wid := kvSet {} s.dp.wid c w }

def WidCtx.layer (w : WidCtx) (n : Nat) : WidLayer := kvGet {} w.layers n

def WidCtx.setLayer (w : WidCtx) (n : Nat) (l : WidLayer) : WidCtx := { w with layers := kvSet {} w.layers n l }

/-- `WID_LAYERS`, taken as 0 without a widening table (R215). -/
def widLayers (s : State) (c : Nat) : Nat :=
  if s.obj (objKey c kWidTable) = 0 then 0 else s.obj (objKey c kWidLayers)

def widRecAddr (s : State) (c n : Nat) : Nat := s.obj (objKey c kWidTable) + 64 * (n - 1)

/-- Bits [127:0] of a layer record (R218). -/
def mirrorBytes (w : WidCtx) (n : Nat) : List Nat :=
  leBytes 16 ((w.layer n).blocks % 2 ^ 32 * 2 ^ 96 + w.steps % 2 ^ 32 * 2 ^ 64 + b2n (w.layer n).wide)

/-- Writes a layer's mirror; the second part is the address of a write that met a fault. -/
def writeMirror (s : State) (c n : Nat) : State × Option Nat :=
  match devWrite s c (widRecAddr s c n) (mirrorBytes (s.wid c) n) with
  | some s' => (s', none)
  | none => (s, some (widRecAddr s c n))

/-- A layer becomes WIDE, and a storm may begin (R227, R230). -/
def becomeWide (s : State) (c n : Nat) : State :=
  let w := s.wid c
  if (w.layer n).wide then s
  else
    let w1 := { w.setLayer n { w.layer n with wide := true } with w := w.w + 1 }
    let s1 := (s.setWid c w1).bump kWidLayerCount 1
    if !w1.storm && decide (widLayers s c < 4 * w1.w) then
      ((s1.setWid c { w1 with storm := true }).bump kWidStormCount 1).log
        { source := 0x4031, code := 0x4031, sev := 1, ctx := c
          data := dataAt 628 n + dataAt 612 w1.w + dataAt 596 (widLayers s c) }
    else s1

/-- One decision that an op's drain reported: 10 a block widened by its detectors, 11 a probe failed and its block widened,
12 a probe failed in a WIDE layer. The layer stands in the low 12 bits, above them `LAYER_BLOCKS` as the op read it (R216). -/
def widDecision (c : Nat) (p : State × Option Nat) (note : Nat × Nat) : State × Option Nat :=
  let s := p.1
  let n := note.2 % 4096
  let limit := note.2 / 4096
  let w := s.wid c
  if note.1 = 12 then (s.setWid c { w with probeFailed := true }, p.2)
  else if note.1 = 10 ∨ note.1 = 11 then
    let l := { w.layer n with blocks := (w.layer n).blocks + 1 }
    let s1 := s.setWid c { w.setLayer n l with probeFailed := w.probeFailed || note.1 == 11 }
    let s2 := if note.1 = 11 ∨ (limit ≠ 0 ∧ limit ≤ l.blocks) then becomeWide s1 c n else s1
    let r := writeMirror s2 c n
    (r.1, if p.2.isSome then p.2 else r.2)
  else p

/-- Carries out the decisions of an op, oldest first; the second part is the address of a mirror write that met a fault. -/
def widDecisions (s : State) (c : Nat) (notes : List (Nat × Nat)) : State × Option Nat :=
  notes.foldl (widDecision c) (s, none)

/-! ## Step boundaries (R229, R230, R232) -/

/-- `PIN` of every layer, or the address of a record that cannot be read; with the state after the reads (R232). -/
def readPins (s : State) (c : Nat) : Nat → State × Except Nat (List (Nat × Nat))
  | 0 => (s, .ok [])
  | n + 1 =>
    match readPins s c n with
    | (t, .error a) => (t, .error a)
    | (t, .ok l) =>
      match devRead t c (widRecAddr s c (n + 1)) 64 with
      | (none, u) => (u, .error (widRecAddr s c (n + 1)))
      | (some r, u) => (u, .ok (l ++ [(n + 1, bits r 216 215)]))

/-- Writes the mirrors of some layers; `p.2` keeps the address of the first access that met a fault. -/
def writeMirrors (c : Nat) (ns : List Nat) (p : State × Option Nat) : State × Option Nat :=
  ns.foldl (fun p n => let r := writeMirror p.1 c n; (r.1, if p.2.isSome then p.2 else r.2)) p

/-- A change of a context's widening table (R217): every layer becomes NARROW and the counts are cleared. The mirrors of the
layers that change are written into the table in force afterwards (R218, log 75). -/
def resetLayers (s : State) (c : Nat) : State × Option Nat :=
  let old := s.wid c
  let s1 := s.setWid c { old with layers := [], clean := 0, w := 0 }
  writeMirrors c ((old.layers.filter (fun p => (p.2.wide || p.2.blocks != 0) && decide (p.1 ≤ widLayers s1 c))).map (·.1)) (s1, none)

/-- The layer states after a boundary: a storm's layers become WIDE, and after 64 clean steps one layer returns. -/
def boundaryLayers (w : WidCtx) (pins : List (Nat × Nat)) (clean : Nat) : WidCtx × Option Nat :=
  let free := (pins.filter (fun p => p.2 = 0)).map (·.1)
  let w1 := if w.storm then free.foldl (fun (x : WidCtx) n => x.setLayer n { x.layer n with wide := true }) w else w
  match if clean = 64 then free.find? (fun n => (w1.layer n).wide) else none with
  | some n => (w1.setLayer n { w1.layer n with wide := false }, some n)
  | none => (w1, none)

/-- The step boundary of a context (R218, R229 to R232); the second part is the address of an access that met a fault. Mirrors
are written at every boundary, also where a record could not be read. -/
def stepBoundary (s0 : State) (c : Nat) : State × Option Nat :=
  let rp := readPins s0 c (widLayers s0 c)
  let s := rp.1
  let pins := rp.2
  let w := s.wid c
  let clean := if w.w = 0 ∧ !w.probeFailed then w.clean + 1 else 0
  let b : WidCtx × Option Nat := match pins with
    | .ok l => boundaryLayers w l clean
    | .error _ => (w, none)
  let layers := b.1.layers.filterMap (fun p => if p.2.wide then some (p.1, { p.2 with blocks := 0, atStep := true }) else none)
  let w1 : WidCtx := { layers := layers, clean := if clean = 64 then 0 else clean, w := 0, storm := false
                       probeFailed := false, steps := (w.steps + 1) % 2 ^ 32 }
  let s1 := s.setWid c w1
  let s2 := match b.2 with
    | some n => (s1.bump kWidNarrowCount 1).log { source := 0x4031, code := 0x4030, sev := 0, ctx := c, data := dataAt 628 n }
    | none => s1
  writeMirrors c ((List.range (widLayers s c)).map (· + 1)) (s2, match pins with | .error a => some a | .ok _ => none)

end Sys2Proof.Machine
end

