-- ==== Sys2Proof/Machine/Place.lean ====
section
/-! DEFINITION. Dispatch: the next op of a context, its target and room (R440 to R444, R663), the rounds of R442, and the
conditions under which a placed op starts (R57, R58, R309, R445) with what it captures then. -/

namespace Sys2Proof.Machine

def findGroup (s : State) (g : Nat) : Option Group := s.groups.find? (fun x => x.roster.group == g)

/-- Entries of a queue (R663). -/
def queueCap (q : Nat) : Nat :=
  if q < 128 then 32
  else match q with
    | 0x80 => 64
    | 0x81 => 32
    | 0x82 => 16
    | 0x83 => 256
    | _ => 64

def entriesIn (s : State) (q : Nat) : List Op := s.ops.filter (fun o => o.queue == q)

/-- The bay among `bs` with the fewest entries in use; ties go to the lowest number (R444). -/
def fewest (s : State) (bs : List Nat) : Nat :=
  (bs.foldl (fun (b : Option (Nat × Nat)) x =>
    let n := (entriesIn s x).length
    match b with
    | none => some (x, n)
    | some p => if n < p.2 then some (x, n) else b) none).elim 0 (·.1)

/-- The bays of a mask, ascending. -/
def maskBays (m : Nat) : List Nat := bitList Config.bays m

/-- Placement of an op that names any bay (R444): by its first operand where the op has a descriptor address. -/
def anyBay (s : State) (c x : Nat) : Except Nat Nat :=
  let mask := cBayMask (s.ctx c).record
  let all := fewest s (maskBays mask)
  if hOpc x = opVEC then .ok all
  else match translate (s.env c) (bits x 183 128) 1 false with
    | .error e => .error e
    | .ok p =>
      if p.tier = 0 ∧ bit mask (p.addr / 2 ^ 23) then .ok (p.addr / 2 ^ 23)
      else if p.tier = 1 then
        match (regions s.dp).find? (fun r => r.hasPage (p.addr / Config.pageBytes)) with
        | some r =>
          let tile := if r.kind = 1 then r.unit else r.unit / 5
          let near := (maskBays mask).filter (fun b => b / 32 == tile)
          if (r.kind = 1 ∨ r.kind = 2) ∧ !near.isEmpty then .ok (fewest s near) else .ok all
        | none => .ok all
      else .ok all

/-- Where the next op of a context goes: it completes at dispatch with a status, waits in the dispatcher as a CONTEXT fence,
or enters a queue. -/
inductive Target where
  | reject (status : Nat)
  | fence
  | queue (q : Nat)
deriving DecidableEq, Repr, Inhabited

/-- Ops that an evaluation context may not issue (R440). -/
def evalBarred (opc : Nat) : Bool := [opPSH, opPOP, opMRK, opUPD, opMMG, opATG].contains opc

/-- The checks at dispatch, in the order of R480, and the target. -/
def targetOf (s : State) (c x : Nat) : Target :=
  let rec_ := (s.ctx c).record
  let q := hQueue x
  if headerCode x ≠ 0 then .reject (headerCode x)
  else if cKind rec_ = 2 ∧ evalBarred (hOpc x) then .reject 0x01B2
  else if q < 128 ∧ !bit (cBayMask rec_) q then .reject 0x01B3
  else if hOpc x = opFNC then
    if !fncOk rec_ x ((findGroup s (fncOf x).destGrp).map (fun g => g.roster.size)) then .reject 0x01B1
    else if (fncOf x).scope = 1 then .fence
    else .queue q
  else match engineOf x with
    | some e => .queue e
    | none =>
      if q < 128 then .queue q
      else match anyBay s c x with
        | .ok b => .queue b
        | .error e => .reject e

/-- The next descriptor of a context's submission queue (R474, R475). -/
def nextDesc (s : State) (c : Nat) : Nat :=
  let slot := (s.ctx c).sqCons % 2 ^ s.obj (objKey c kSqLog2)
  leNat (hostRead s.dp.mem (s.obj (objKey c kSqBase) + 128 * slot) 128)

/-- Whether room and limits allow the target (R441, R663). -/
def hasRoom (s : State) (c : Nat) (t : Target) : Bool :=
  decide (s.ops.length < Config.opsMax) && decide ((s.inflight c).length < cOpsMax (s.ctx c).record) &&
  match t with
  | .queue q => decide ((entriesIn s q).length < queueCap q) &&
      (decide (128 ≤ q) || decide (((entriesIn s q).filter (fun o => o.ctx == c)).length < Config.bayQuota))
  | _ => true

/-- A collective, which needs a paired device (R9, R522). -/
def isColl (opc : Nat) : Bool := opc == opBCS || opc == opRDO

/-- Whether something holds the context's ops back: no ACTIVE context (R454), a fenced device (R537), a waiting CONTEXT fence
(R446), a digest mismatch (R535), a halted group that it has used (R553). -/
def heldBack (s : State) (c : Nat) : Bool :=
  let C := s.ctx c
  C.st != .active || s.twin.st == 5 || C.digestStop ||
  (s.inflight c).any (fun o => o.opc == opFNC && (fncOf o.desc).scope == 1 && o.phase != .done) ||
  C.groups.any (fun g => (findGroup s g).any (fun x => x.st == 3))

/-- Whether the dispatcher can place the context's next op. -/
def canPlace (s : State) (c : Nat) : Bool :=
  let C := s.ctx c
  !heldBack s c && C.sqCons != C.sqProd &&
  (let x := nextDesc s c
   !(isColl (hOpc x) && headerCode x == 0 && !s.twin.paired) && hasRoom s c (targetOf s c x))

/-- Whether the rounds of R442 let context `c` place its next op now: it has weight left in its turn, or every context
between the current turn and its own has nothing it can place or has used its weight. -/
def isTurn (s : State) (c : Nat) : Bool :=
  let blocked := fun (x : Nat) => !canPlace s x
  let full := decide (cWeight (s.ctx s.turn).record ≤ s.turnUsed)
  if c = s.turn ∧ !full then true
  else
    let now := if full then true else blocked s.turn
    let between := s.ctxs.filter (fun p => p.1 ≠ c && p.1 ≠ s.turn &&
      (if s.turn < c then decide (s.turn < p.1) && decide (p.1 < c) else decide (s.turn < p.1) || decide (p.1 < c)))
    now && between.all (fun p => blocked p.1)

/-- The next op of a context as it is placed; its number is `nextOp`. A CONTEXT fence waits in the dispatcher from then on. -/
def newOp (s : State) (c : Nat) : Op :=
  let x := nextDesc s c
  let o : Op := { id := s.nextOp, ctx := c, queue := hQueue x, opc := hOpc x, desc := x }
  match targetOf s c x with
  | .queue q => { o with queue := q }
  | .fence => { o with phase := .started, startedAt := s.time }
  | .reject _ => o

/-- The device once it has taken a context's next op, with the context's turn (R441, R442, R553). -/
def taken (s : State) (c : Nat) : State :=
  let C := s.ctx c
  let x := nextDesc s c
  let used := if c = s.turn ∧ s.turnUsed < cWeight C.record then s.turnUsed + 1 else 1
  let grp := if isColl (hOpc x) ∧ !C.groups.contains (bits x 927 912) then bits x 927 912 :: C.groups else C.groups
  { s.setCtx c { C with sqCons := (C.sqCons + 1) % 2 ^ 32, groups := grp } with
    ops := s.ops ++ [newOp s c], nextOp := s.nextOp + 1, turn := c, turnUsed := used }

/-- Places the context's next op; a rejected op completes at once (R441, R480). -/
def placeNext (s : State) (c : Nat) : State :=
  match targetOf s c (nextDesc s c) with
  | .reject st => finishOp (taken s c) s.nextOp st 0
  | _ => noteFences (taken s c)

/-! ## Starting -/

/-- Whether the ops before `o` in its queue let it start (R57, R445). A PFT CANCEL is held by fences of its own context and by nothing
else (R306). -/
def queueTurn (s : State) (o : Op) : Bool :=
  if o.opc = opPFT ∧ bit o.desc 228 then
    !s.ops.any (fun e => e.queue == o.queue && e.ctx == o.ctx && decide (e.id < o.id) && e.phase != .done && e.opc == opFNC &&
      (fncOf e.desc).scope == 0)
  else (s.ops.filter (fun e => e.queue == o.queue && decide (e.id < o.id) && e.phase != .done && !(e.opc == opFNC && (fncOf e.desc).scope == 1))).all
    (fun e => if e.opc = opFNC then e.ctx != o.ctx else e.phase == .started || isColl e.opc)

/-- Whether a sample's decode runs on one of the device's decoders (R401). -/
def IngSample.onDevice (x : IngSample) : Bool := x.ring == 0 && x.st == 1

/-- Decoders that ING decodes hold, one bit each (R401). -/
def ingDecoders (s : State) : Nat :=
  ((s.ing.flatMap (·.samples) ++ s.carries.map (·.sample)).filter (·.onDevice)).foldl (fun a x => a ||| 2 ^ x.decoder) 0

/-- Units of a bay: 1 array A, 2 array B, 4 vector unit, 8 special-function unit, 16 soft-maximum stage; of the decoders' queue, the
decoders in use. -/
def busyUnits (s : State) (q : Nat) : Nat :=
  (s.ops.filter (fun e => e.queue == q && e.phase == .started)).foldl (fun a e => a ||| e.arrays) (if q = 0x80 then ingDecoders s else 0)

/-- The units that an op takes among the free ones (R57, R58, R110, R135, R167, R184). -/
def unitsFor (x busy : Nat) : Option Nat :=
  let need := fun (u : Nat) => if busy &&& u = 0 then some u else none
  let array := fun (sel : Nat) =>
    if sel = 1 then need 1 else if sel = 2 then need 2
    else if sel = 3 then some 0
    else if !bit busy 0 then some 1 else need 2
  match hOpc x with
  | 0x01 => array (mmaDesc x).arrSel
  | 0x02 => if (mmgDesc x).xFmt = fINT32 then some 0 else need 3
  | 0x03 => need 19
  | 0x04 => need 19
  | 0x05 => array (convDesc (hOpc x == opCNT) x).arrSel
  | 0x06 => array (convDesc (hOpc x == opCNT) x).arrSel
  | 0x07 => need 4
  | 0x08 => if (rowDesc x).fn = 4 then some 0 else need 8
  | 0x09 => need 8
  | 0x0A => need 8
  | 0x30 => codecFree busy (bits x 787 784) 8
  | 0x31 => codecFree busy (bits x 675 672) 4
  | _ => some 0
where
  /-- One decoder or encoder: the named one, or the first that is free (R379, R390). -/
  codecFree (busy k n : Nat) : Option Nat :=
    if k = 15 then ((List.range n).find? (fun i => !bit busy i)).map (2 ^ ·)
    else if n ≤ k then some 0
    else if bit busy k then none
    else some (2 ^ k)

/-- Ops that an engine runs at a time: eight decoders and four encoders (R379, R390, R663), one ingest batch, one move. -/
def engineWidth (q : Nat) : Option Nat :=
  match q with
  | 0x80 => some 8
  | 0x81 => some 4
  | _ => none

def engineFree (s : State) (q : Nat) : Bool :=
  match engineWidth q with
  | some n => decide (((entriesIn s q).filter (fun e => e.phase == .started && e.opc != opFNC)).length < n)
  | none => true

/-- Entries of a schedule whose copy has not completed (R309). -/
def Sched.incomplete (x : Sched) : List SchedEntry := x.cur.toList ++ x.ready.map (·.2) ++ x.inflight.map (·.2)

/-- Whether a prefetch schedule holds the op (R309). -/
def heldBy (x : Sched) (o : Op) : Bool :=
  x.ctx == o.ctx && x.incomplete.any (fun e => e.forLayer != 0 && e.forLayer == hLayer o.desc && e.bay == o.queue)

def prefetchHeld (s : State) (o : Op) : Bool := s.scheds.any (fun x => heldBy x o)

/-- Table slots that an op evaluates or loads (R108, R131, R164), with the reads that it keeps from its issue on: whether ATT
writes λ stands in its auxiliary block. -/
def slotsNamed (x : Nat) (hs : List Held) : List Nat :=
  match hOpc x with
  | 0x08 =>
    let d := rowDesc x
    if d.fn = 0 ∨ d.fn = 1 ∨ d.fn = 4 then [d.slot] else []
  | 0x0A => let d := rowDesc x; if d.aux2 = 0 then [d.slot] else [d.slot, d.slot2]
  | 0x03 =>
    let d := attDesc x
    (attSlots d (((hs.find? (fun h => h.va == d.aux && h.n == 128)).map (fun h => attAux (leNat h.bytes))).getD {})).map (·.1)
  | 0x04 => [(attDesc x).slot]
  | _ => []

/-- The bank of a slot that an op starting now captures, with the slot's owner (R108, R112). -/
def bankNow (s : State) (k : Nat) : BankRef :=
  let t := kvGet {} s.dp.tables k
  { slot := k, gen := t.gen, owner := s.obj (kTblOwner + k), image := t.active, bank := t.bank }

/-- What a matrix, attention or convolution op reads at its issue. -/
def issuePlan (E : Env) (x : Nat) : Plan Unit :=
  match hOpc x with
  | 0x01 => do
    let _ ← mmaIssue E x
    let _ ← mmaLayer E (hLayer x)
    pure ()
  | 0x02 => do
    let _ ← mmgIssue E ((mmgDesc x).xFmt == fINT32) x
    pure ()
  | 0x03 => do
    let _ ← attIssue E [] x
    pure ()
  | 0x04 => do
    let _ ← atgIssue E [] x
    pure ()
  | 0x05 => do
    let _ ← convIssue E false x
    pure ()
  | 0x06 => do
    let _ ← convIssue E true x
    pure ()
  | _ => pure ()

/-- The reads that an op keeps from its issue on (R28, R75, R86, R149, R216). -/
def issueReads (s : State) (o : Op) : List Held := ((issuePlan (s.opEnv o) o.desc).run {} : Except Nat Unit × Eff).2.held

/-- What an op takes with it when it starts: units, table banks, its layer's widening state (R216, R226, R228, R230), what it
reads at its issue, and `NEG_ZERO_OUT` (R56). -/
def captured (s : State) (o : Op) (units : Nat) : Op :=
  let w := s.wid o.ctx
  let l := w.layer (hLayer o.desc)
  let hs := issueReads s o
  { o with
    phase := .started, startedAt := s.time, startNo := s.ops.foldl (fun a e => max a e.startNo) 0 + 1, arrays := units
    banks := (slotsNamed o.desc hs).map (bankNow s), heldSince := none
    layerWide := l.wide, stepWide := l.atStep, stormy := w.storm
    held := hs, keepNeg := s.obj kNegZeroOut == 0 }

/-- An op of a layer starts in a bay: the start event of a schedule's current entry (R308). `DONE_LAYER` then waits for the
ops of that layer that are queued in the bay. -/
def startEvent (s : State) (o : Op) (x : Sched) : Sched :=
  match x.cur with
  | none => x
  | some e =>
    if !x.started ∧ x.ctx = o.ctx ∧ e.after ≠ 0 ∧ e.after = hLayer o.desc ∧ e.bay = o.queue then
      { x with started := true, waitOps := (s.ops.filter (fun p => p.ctx == x.ctx && p.queue == e.bay && p.phase != .done &&
          e.done != 0 && hLayer p.desc == e.done)).map (·.id) }
    else x

/-- The checks that stand for an op whose selector names no command: it completes at its start with its code, in
the order of R480 and R131. -/
def noSuchForm (x : Nat) : Option Nat :=
  match hOpc x with
  | 0x08 => if 5 ≤ (rowDesc x).fn then some (if rowReservedOk x && decide (6 ≤ (rowDesc x).rnd) then 0x0131 else 0x0155) else none
  | _ => none

end Sys2Proof.Machine
end

