-- ==== Sys2Proof/Machine/Reel.lean ====
section
/-! DEFINITION. The reel (R313 to R329): fulling, frames, blocks, spill and fetch, and the working of PSH, POP and MRK. The
entries lie in the blocks of the reel area, and spilled blocks in the spill area (log 33). -/

namespace Sys2Proof.Machine

/-- The descriptor of PSH, POP and MRK (R328). -/
structure ReelDesc where
  rank : Nat
  tag : Nat
  bay : Nat
  act : Nat
  full : Nat
  fmt : Nat
  elems : Nat
  rows : Nat
  pitch : Nat
  addr : Nat
deriving DecidableEq, Repr, Inhabited

def reelDesc (x : Nat) : ReelDesc :=
  { rank := fld x 343 312, tag := fld x 311 296, bay := fld x 291 285, act := fld x 281 280, full := fld x 279 277
    fmt := fld x 276 272, elems := fld x 271 248, rows := fld x 247 224, pitch := fld x 223 192, addr := fld x 183 128 }

def reelReservedOk (x : Nat) : Bool := zeroAt x [(1023, 344), (295, 292), (284, 282), (191, 184)]

/-! ## Fulling (R318, R319) -/

/-- Source formats of a fulling mode. -/
def fullSource (full fmt : Nat) : Bool :=
  match full with
  | 0 => decide (fmt ≤ 15)
  | 1 => [0, 1, 2, 3, 4, 6, 11, 12].contains fmt
  | 2 => decide (fmt ≤ 2)
  | 3 => decide (fmt ≤ 2)
  | 4 => decide (fmt ≤ 4) || fmt == fINT8
  | _ => false

/-- Destination formats of POP for the modes that do not keep the pushed bits. -/
def fullDest (full fmt : Nat) : Bool :=
  match full with
  | 2 => decide (fmt ≤ 2)
  | 3 => decide (fmt ≤ 2)
  | 4 => decide (fmt ≤ 4)
  | _ => false

/-- ceil(log2(a / max)) clamped to −127 to 127 (R318). -/
def groupScale (a mx : Val) : Int :=
  match Val.div a mx with
  | .fin _ m e =>
    if m = 0 then -127
    else
      let k : Int := (Nat.log2 m : Int) + e
      let c := if m = 2 ^ Nat.log2 m then k else k + 1
      max (-127) (min 127 c)
  | _ => -127

/-- The narrow format and largest magnitude of E4M3S and E5M2S. -/
def wireFmt (full : Nat) : Nat × Val := if full = 2 then (fE4M3, .ofNat 448) else (fE5M2, .ofNat 57344)

/-- One group of E4M3S or E5M2S. -/
def fullGroup (full fmt : Nat) (cs : List Nat) : List Nat :=
  let w := wireFmt full
  let vs := cs.map (decodeNum fmt)
  let s := groupScale (maxAbs vs) w.2
  (s + 127).toNat :: vs.map (fun v => (encodeNum w.1 { keepNeg := true } 0 (Val.scale v (-s))).code)

/-- One run of ZERO: a mask of 8 bytes, then the codes that are not zero. -/
def fullZero (fmt : Nat) (cs : List Nat) : List Nat :=
  leBytes 8 (packNat 1 (cs.map (fun c => b2n (c != 0)))) ++ packRow fmt (cs.filter (· != 0))

/-- The fulled bytes of one row. -/
def fullRow (full fmt : Nat) (cs : List Nat) : List Nat :=
  match full with
  | 0 => packRow fmt cs
  | 1 => (chunksOf 64 (ceilDiv cs.length 64) cs).flatMap (fullZero fmt)
  | 4 => leBytes (ceilDiv cs.length 8) (packNat 1 (cs.map (fun c => b2n (Val.lt .zero (decodeNum fmt c)))))
  | _ => (chunksOf 32 (ceilDiv cs.length 32) cs).flatMap (fullGroup full fmt)

/-- Reads back the codes of a run of ZERO from its mask. -/
def unzero (w : Nat) : List Bool → List Nat → List Nat
  | [], _ => []
  | false :: bs, xs => 0 :: unzero w bs xs
  | true :: bs, xs => leNat (xs.take w) :: unzero w bs (xs.drop w)

/-- Values of one row of E4M3S or E5M2S. -/
def unfullVals (full : Nat) : Nat → Nat → List Nat → List Val
  | 0, _, _ => []
  | f + 1, n, bs =>
    if n = 0 then []
    else
      let k := min 32 n
      let s : Int := ((bs.headD 0 : Nat) : Int) - 127
      ((bs.drop 1).take k).map (fun c => Val.scale (decodeNum (wireFmt full).1 c) s) ++
        unfullVals full f (n - k) (bs.drop (k + 1))

/-- Codes of one row of ZERO. -/
def unfullZero (w : Nat) : Nat → Nat → List Nat → List Nat
  | 0, _, _ => []
  | f + 1, n, bs =>
    if n = 0 then []
    else
      let k := min 64 n
      let mask := leNat (bs.take 8)
      let used := popCount k mask
      unzero w ((List.range k).map (fun i => mask.testBit i)) (bs.drop 8) ++ unfullZero w f (n - k) (bs.drop (8 + used * w))

/-- Bytes that one fulled row takes in an entry. -/
def fulledLength (full fmt n : Nat) (bs : List Nat) : Nat :=
  match full with
  | 0 => rowBytes fmt n
  | 4 => ceilDiv n 8
  | 1 => zeroLen (fmtBits fmt / 8) (ceilDiv n 64) n bs
  | _ => n + ceilDiv n 32
where
  zeroLen (w : Nat) : Nat → Nat → List Nat → Nat
    | 0, _, _ => 0
    | f + 1, n, bs =>
      let k := min 64 n
      let l := 8 + popCount k (leNat (bs.take 8)) * w
      l + zeroLen w f (n - k) (bs.drop l)

/-- Rows of an entry, each as its fulled bytes. -/
def fulledRows (full fmt n : Nat) : Nat → List Nat → List (List Nat)
  | 0, _ => []
  | r + 1, bs =>
    let l := fulledLength full fmt n bs
    bs.take l :: fulledRows full fmt n r (bs.drop l)

/-- Bytes an entry occupies (R317). -/
def ReelEntry.size (e : ReelEntry) : Nat := 64 + roundUp e.len 64

/-! ## Records, frames and blocks -/

structure ReelRec where
  area : Nat
  areaBlocks : Nat
  spillAddr : Nat
  spillBlocks : Nat
  spill : Nat
  hi : Nat
  lo : Nat
  ahead : Nat
  maxFrames : Nat
deriving DecidableEq, Repr, Inhabited

def reelRec (x : Nat) : ReelRec :=
  { area := fld x 503 448, areaBlocks := fld x 447 416, spillAddr := fld x 407 352, spillBlocks := fld x 351 320
    spill := fld x 319 318, hi := fld x 317 311, lo := fld x 310 304, ahead := fld x 303 288, maxFrames := fld x 287 280 }

/-- R314: what the record alone must satisfy. -/
def reelRecOk (x : Nat) : Bool :=
  let r := reelRec x
  zeroAt x [(511, 504), (415, 408), (279, 0)] && aligned r.area 65536 && decide (2 ≤ r.areaBlocks) && r.spill != 3 &&
    decide (2 ≤ r.hi) && decide (r.hi ≤ 100) && decide (1 ≤ r.lo) && decide (r.lo < r.hi) && decide (1 ≤ r.maxFrames) &&
    decide (r.maxFrames ≤ 64) && (r.spill == 0 || aligned r.spillAddr 65536)

/-- Whether every page of a virtual range is writable in a tier (R315). -/
def pagesIn (E : Env) (va n tier : Nat) : Bool :=
  (runsOf va n).all (fun r => match translate E r.1 1 true with | .ok p => p.tier == tier | .error _ => false)

/-- R315. -/
def reelPagesOk (E : Env) (r : ReelRec) : Bool :=
  pagesIn E r.area (r.areaBlocks * 65536) 1 &&
    (match r.spill with
     | 1 => pagesIn E r.spillAddr (r.spillBlocks * 65536) 2
     | 2 => decide (r.spillAddr + r.spillBlocks * 65536 ≤ E.d.partnerPages * Config.pageBytes)
     | _ => true)

def findReel (d : Dp) (ctx bay : Nat) : Option Reel := d.reels.find? (fun r => r.ctx = ctx ∧ r.bay = bay)

/-- Blocks of a frame that are resident, and those that are spilled. -/
def ReelFrame.here (f : ReelFrame) : List ReelBlock := f.blocks.filter (fun b => !b.spilled)
def ReelFrame.outside (f : ReelFrame) : List ReelBlock := f.blocks.filter (·.spilled)

/-- Resident and spilled blocks of a reel. -/
def Reel.resident (r : Reel) : Nat := (r.frames.map (fun f => f.here.length)).sum
def Reel.spilled (r : Reel) : Nat := (r.frames.map (fun f => f.outside.length)).sum

/-- Whether the engine spills (R322): from above `SPILL_HI` % of resident blocks on, until `SPILL_LO` % or fewer are. -/
def Reel.spills (r : Reel) : Bool :=
  let R := reelRec r.record
  (r.spilling || decide (R.hi * R.areaBlocks < 100 * r.resident)) && decide (R.lo * R.areaBlocks < 100 * r.resident)

/-- Replaces a reel; a reel without frames is dropped, since its record is read again at the next OPEN (R313). -/
def putReel (d : Dp) (r : Reel) : Dp :=
  let rest := d.reels.filter (fun x => !(x.ctx == r.ctx && x.bay == r.bay))
  { d with reels := if r.frames.isEmpty then rest else rest ++ [{ r with spilling := r.spills }] }

def Reel.frame (r : Reel) (tag : Nat) : Option ReelFrame := r.frames.find? (fun f => f.tag = tag)

def Reel.putFrame (r : Reel) (f : ReelFrame) : Reel :=
  { r with frames := r.frames.map (fun x => if x.tag = f.tag then f else x) }

def Reel.dropFrame (r : Reel) (tag : Nat) : Reel := { r with frames := r.frames.filter (fun x => x.tag ≠ tag) }

/-- The expected pop order (R321): tag, block number, and whether the block is spilled. -/
def Reel.popOrder (r : Reel) : List (Nat × Nat × Bool) :=
  (r.frames.insertionSort (fun a b => a.rank ≤ b.rank)).flatMap (fun f =>
    (((List.range f.blocks.length).zip f.blocks).map (fun p => (f.tag, p.1, p.2.spilled))).reverse)

def Reel.setBlock (r : Reel) (tag b : Nat) (v : ReelBlock) : Reel :=
  { r with frames := r.frames.map (fun f => if f.tag = tag then { f with blocks := f.blocks.set b v } else f) }

def Reel.block? (r : Reel) (tag b : Nat) : Option ReelBlock := (r.frame tag).bind (fun f => f.blocks[b]?)

/-- The lowest number below a limit that no block uses. -/
def lowestFree (used : List Nat) (limit : Nat) : Option Nat := (List.range limit).find? (fun i => !used.contains i)

/-- A free block of the reel area, and of the spill area (R321, R322). -/
def Reel.freeSlot (r : Reel) : Option Nat :=
  lowestFree (r.frames.flatMap (fun f => f.here.map (·.slot))) (reelRec r.record).areaBlocks
def Reel.freeSpill (r : Reel) : Option Nat :=
  lowestFree (r.frames.flatMap (fun f => f.outside.map (·.slot))) (reelRec r.record).spillBlocks

/-- The block that the engine spills next (R322): the resident one that comes last in the order, none of the first
`FETCH_AHEAD` and none in use. -/
def Reel.victim (r : Reel) (partner : Bool) (busy : List (Nat × Nat)) : Option (Nat × Nat) :=
  let R := reelRec r.record
  if R.spill = 0 ∨ R.spillBlocks ≤ r.spilled ∨ (R.spill = 2 ∧ !partner) then none
  else (((r.popOrder.drop R.ahead).filter (fun b => !b.2.2 && !busy.contains (b.1, b.2.1))).getLast?).map
    (fun b => (b.1, b.2.1))

/-! ## The engine's work on blocks -/

/-- What a reel engine works on: the memories, a reel, and the accesses it has made, the latest first. -/
structure ReelSt where
  dp : Dp
  reel : Reel
  acts : List Act := []
deriving DecidableEq, Repr, Inhabited

/-- Work of a reel engine; it ends early with an op's status, or with 0 where it waits for room. -/
abbrev ReelWork (α : Type) := ExceptT Nat (StateM ReelSt) α

/-- Accesses of the engine, carried out on the memories as they stand. -/
def reelDo {α : Type} (E : Env) (p : Env → Plan α) : ReelWork α := do
  let w ← get
  let x : Except Nat α × Eff := (p { E with d := w.dp }).run {}
  set ({ w with dp := applyEff E x.2 w.dp, acts := x.2.acts ++ w.acts } : ReelSt)
  match x.1 with
  | .ok a => pure a
  | .error c => throw c

def reelSet (f : Reel → Reel) : ReelWork Unit := modify (fun w => { w with reel := f w.reel })

def reelCount (key n : Nat) : ReelWork Unit := modify (fun w => { w with dp := bump w.dp key n })

/-- Accounts a block that crosses the tether (R376); one that lies in host memory is accounted by its accesses. -/
def reelTether (ctx spill : Nat) : ReelWork Unit := if spill = 2 then reelCount (objKey ctx kAcctBytesFabric) 65536 else pure ()

/-- Spills one block, if one can be spilled; false where none can. Its accesses take the page's hint, as every access does that R271 does
not name. -/
def spillOne (E : Env) (busy : List (Nat × Nat)) : ReelWork Bool := do
  let w ← get
  let r := w.reel
  let R := reelRec r.record
  match r.victim (w.dp.partnerPages != 0) busy with
  | none => pure false
  | some v =>
    match r.block? v.1 v.2, r.freeSpill with
    | some b, some j => do
      let bs ← reelDo E (fun E => rd E (R.area + 65536 * b.slot) 65536)
      if R.spill = 1 then reelDo E (fun E => wr E (R.spillAddr + 65536 * j) bs)
      reelTether r.ctx R.spill
      reelCount kReelSpillBytes 65536
      reelSet (fun r => r.setBlock v.1 v.2 { slot := j, spilled := true, crc := crc64 bs, away := if R.spill = 2 then bs else [] })
      pure true
    | _, _ => pure false

/-- A free block of the reel area, for which another is spilled where there is none; the work waits where there is none to spill
(R322, R324). -/
def takeSlot (E : Env) (busy : List (Nat × Nat)) : ReelWork Nat := do
  match (← get).reel.freeSlot with
  | some k => pure k
  | none =>
    if ← spillOne E busy then
      match (← get).reel.freeSlot with
      | some k => pure k
      | none => throw 0
    else throw 0

/-- A frame becomes LOST (R323). -/
def loseFrame (d : Dp) (r : Reel) (tag reason : Nat) : Dp × Reel :=
  match r.frame tag with
  | none => (d, r)
  | some f =>
    if f.st = .lost then (d, r)
    else
      (logEvent (bump d kReelLostCount 1)
        { source := 0x3110, code := 0x01A5, sev := 1, ctx := r.ctx, data := dataAt 632 r.bay + dataAt 616 tag + dataAt 608 reason },
        r.putFrame { f with st := .lost })

/-- Fetches one spilled block and checks it; `bad1` and `bad2` say that the first and the second read bring other bytes than were
spilled. A block that fails twice makes its frame LOST (R323). -/
def fetchBlock (E : Env) (tag b : Nat) (busy : List (Nat × Nat)) (bad1 bad2 : Bool) : ReelWork Unit := do
  let r := (← get).reel
  let R := reelRec r.record
  match r.block? tag b with
  | none => pure ()
  | some x => do
    let k ← takeSlot E ((tag, b) :: busy)
    let bs ← if R.spill = 1 then reelDo E (fun E => rd E (R.spillAddr + 65536 * x.slot) 65536) else pure x.away
    let wrong := crc64 bs != x.crc
    reelTether r.ctx R.spill
    reelCount kReelFetchBytes 65536
    if (wrong || bad1) && (wrong || bad2) then do
      modify (fun w => let p := loseFrame w.dp w.reel tag 1; { w with dp := p.1, reel := p.2 })
      throw 0x01A5
    else do
      reelDo E (fun E => wr E (R.area + 65536 * k) bs)
      reelSet (fun r => r.setBlock tag b { slot := k })

/-- Makes blocks `bs` of a frame resident, adding those that the frame does not have yet (R322, R324). -/
def ensureBlocks (E : Env) (tag : Nat) (busy : List (Nat × Nat)) : List Nat → ReelWork Unit
  | [] => pure ()
  | b :: bs => do
    match (← get).reel.block? tag b with
    | some x => if x.spilled then fetchBlock E tag b busy false false
    | none => do
      let k ← takeSlot E busy
      reelSet (fun r => match r.frame tag with
        | some f => r.putFrame { f with blocks := f.blocks ++ [{ slot := k }] }
        | none => r)
    ensureBlocks E tag busy bs

def ReelFrame.bytes (f : ReelFrame) : Nat := (f.entries.map ReelEntry.size).sum

/-- Numbers of the blocks that `n` bytes from offset `off` of a frame touch. -/
def blockSpan (off n : Nat) : List Nat :=
  if n = 0 then [] else (List.range ((off + n - 1) / 65536 - off / 65536 + 1)).map (off / 65536 + ·)

/-- The pieces of `n` bytes from offset `off` of a frame, one for each resident block: address and length. -/
def entryPieces (r : Reel) (f : ReelFrame) (off n : Nat) : List (Nat × Nat) :=
  (blockSpan off n).map (fun b =>
    let lo := max off (65536 * b)
    let hi := min (off + n) (65536 * (b + 1))
    ((reelRec r.record).area + 65536 * ((f.blocks[b]?).map (·.slot)).getD 0 + lo % 65536, hi - lo))

/-- Writes bytes over pieces, in order. -/
def wrPiecesAt (E : Env) : List (Nat × Nat) → List Nat → Plan Unit
  | [], _ => pure ()
  | q :: qs, bs => do
    wr E q.1 (bs.take q.2)
    wrPiecesAt E qs (bs.drop q.2)

/-- The bytes of an entry (R317): header, fulled data, and zeros up to a multiple of 64. -/
def entryBytes64 (e : ReelEntry) (data : List Nat) : List Nat :=
  leBytes 64 (Config.reelHeader (e.rows + 2 ^ 24 * e.elems + 2 ^ 48 * e.fmt + 2 ^ 53 * e.full)).toNat ++ data ++
    List.replicate (e.size - 64 - data.length) 0

/-- Puts an entry on top of a frame (R317): its blocks are made resident and its bytes written, under STREAM (R271). -/
def pushEntry (E : Env) (tag : Nat) (e : ReelEntry) (data : List Nat) : ReelWork Unit := do
  match (← get).reel.frame tag with
  | none => pure ()
  | some f => do
    let bs := blockSpan f.bytes e.size
    ensureBlocks E tag (bs.map (fun b => (tag, b))) bs
    let r := (← get).reel
    match r.frame tag with
    | none => pure ()
    | some g => do
      reelDo { E with hint := some hStream } (fun E => wrPiecesAt E (entryPieces r g f.bytes e.size) (entryBytes64 e data))
      reelSet (fun r => r.putFrame { g with entries := e :: g.entries })
      reelCount kReelPushBytes (e.rows * rowBytes e.fmt e.elems)
      reelCount kReelFulledBytes e.size

/-- The fulled data of a frame's top entry (R319): its blocks are made resident and its bytes read, under LAST (R271). -/
def topData (E : Env) (f : ReelFrame) (e : ReelEntry) : ReelWork (List Nat) := do
  let off := f.bytes - e.size
  let bs := blockSpan off e.size
  ensureBlocks E f.tag (bs.map (fun b => (f.tag, b))) bs
  let r := (← get).reel
  let qs := entryPieces r ((r.frame f.tag).getD f) off e.size
  let xs ← reelDo { E with hint := some hLast } (fun E => qs.mapM (fun q => rd E q.1 q.2))
  pure ((xs.flatten.drop 64).take e.len)

/-- Takes the top entry off a frame; the frame goes with its last entry (R316, R319). -/
def popEntry (r : Reel) (tag : Nat) : Reel :=
  match r.frame tag with
  | none => r
  | some f =>
    let rest := f.entries.tail
    if rest.isEmpty then r.dropFrame tag
    else
      let g := { f with entries := rest, st := .closed }
      r.putFrame { g with blocks := g.blocks.take (ceilDiv g.bytes 65536) }

/-- The partner has faulted: every frame with a spilled block in its window is LOST (R325). -/
def partnerFaultReels (d : Dp) : Dp :=
  d.reels.foldl (fun d r =>
    if (reelRec r.record).spill = 2 then
      let lost := r.frames.filter (fun f => f.st != .lost && !f.outside.isEmpty)
      let p := lost.foldl (fun (p : Dp × Reel) f => loseFrame p.1 p.2 f.tag 2) (d, r)
      putReel p.1 p.2
    else d) d

/-- Drops every reel of a context, as by MRK DROP (R454). -/
def dropReels (d : Dp) (ctx : Nat) : Dp := { d with reels := d.reels.filter (fun r => r.ctx ≠ ctx) }

/-! ## Checks and working of the ops -/

/-- Checks at start (R329), in the table's order; `kind`: 0 PSH, 1 POP, 2 MRK. -/
def reelIssue (kind x : Nat) : Plan ReelDesc := do
  let d := reelDesc x
  Plan.need (reelReservedOk x) 0x0155
  let data := kind != 2
  Plan.need (if data then decide (d.full ≤ 4) && decide (d.fmt ≤ 15) && (kind != 0 || fullSource d.full d.fmt) else d.act != 3) 0x0131
  Plan.need (!data || (aligned d.addr 16 && pitchOk d.pitch d.fmt d.elems)) 0x0141
  Plan.need (if data then d.rank == 0 && d.act == 0
    else d.full == 0 && d.fmt == 0 && d.elems == 0 && d.rows == 0 && d.pitch == 0 && d.addr == 0 && (d.act == 0 || d.rank == 0)) 0x0155
  Plan.need (!data || (d.rows != 0 && d.elems != 0)) 0x0310
  pure d

/-- Reads and fulls the rows of a push (R317, R318): its entry and data. -/
def pshPlan (E : Env) (d : ReelDesc) : Plan (ReelEntry × List Nat) := do
  let rows ← (List.range d.rows).mapM (fun r => rdCodes E (d.addr + r * d.pitch) d.fmt 0 d.elems)
  let data := rows.flatMap (fullRow d.full d.fmt)
  pure ({ rows := d.rows, elems := d.elems, fmt := d.fmt, full := d.full, len := data.length }, data)

/-- Whether a POP agrees with the top entry (R319). -/
def popAgrees (d : ReelDesc) (e : ReelEntry) : Bool :=
  d.rows == e.rows && d.elems == e.elems && d.full == e.full && (if d.full ≤ 1 then d.fmt == e.fmt else fullDest d.full d.fmt)

/-- Decodes and writes an entry (R319). -/
def popPlan (E : Env) (d : ReelDesc) (e : ReelEntry) (data : List Nat) : Plan Unit :=
  let rows := fulledRows e.full e.fmt e.elems e.rows data
  ((List.range e.rows).zip rows).forM (fun p =>
    let row := d.addr + p.1 * d.pitch
    allOrNone (
      match e.full with
      | 0 => wrCodes E row e.fmt 0 (unpackFrom e.fmt 0 e.elems p.2)
      | 1 => wrCodes E row e.fmt 0 (unfullZero (fmtBits e.fmt / 8) (ceilDiv e.elems 64) e.elems p.2)
      | 4 => wrVals E row d.fmt {} 0 0 ((List.range e.elems).map (fun i => if (leNat p.2).testBit i then Val.one else .zero))
      | _ => wrVals E row d.fmt { keepNeg := true } 0 0 (unfullVals e.full (ceilDiv e.elems 32) e.elems p.2)))

/-- The record that MRK OPEN reads, when it passes R314 and R315 (R313). -/
def reelRecord (E : Env) (bay : Nat) : Plan Nat := do
  let table := objGet E.d (objKey E.ctx kReelTable)
  Plan.need (table != 0) 0x01A0
  let x ← rdRec E (table + 64 * bay) 64
  Plan.need (reelRecOk x && reelPagesOk E (reelRec x)) 0x01A0
  pure x

end Sys2Proof.Machine
end

