-- ==== Sys2Proof/Machine/Coll.lean ====
section
/-! DEFINITION. Soune packets and collectives (R489 to R517, R237 to R242): the tree, tickets, joining, the movement and
reduction of chunks, and the end of a collective. Where the spec says what a packet carries and not where, its data bytes
hold it little-endian in the order given (log 40). -/

namespace Sys2Proof.Machine

/-! ## Packets (R490) -/

def pDst (h : Nat) : Nat := bits h 255 232
def pSrc (h : Nat) : Nat := bits h 231 208
def pKind (h : Nat) : Nat := bits h 207 204
def pGroup (h : Nat) : Nat := bits h 203 188
def pEpoch (h : Nat) : Nat := bits h 187 156
def pTicket (h : Nat) : Nat := bits h 155 92
def pChunk (h : Nat) : Nat := bits h 91 68
def pLen (h : Nat) : Nat := bits h 67 50
def pLevel (h : Nat) : Nat := bits h 49 47

structure Hdr where
  dst : Nat
  src : Nat
  kind : Nat
  group : Nat := 0
  epoch : Nat := 0
  ticket : Nat := 0
  chunk : Nat := 0
  len : Nat := 0
  level : Nat := 0
deriving DecidableEq, Repr, Inhabited

def Hdr.word (h : Hdr) : Nat :=
  h.dst % 2 ^ 24 * 2 ^ 232 + h.src % 2 ^ 24 * 2 ^ 208 + h.kind % 16 * 2 ^ 204 + h.group % 2 ^ 16 * 2 ^ 188 +
    h.epoch % 2 ^ 32 * 2 ^ 156 + h.ticket % 2 ^ 64 * 2 ^ 92 + h.chunk % 2 ^ 24 * 2 ^ 68 + h.len % 2 ^ 18 * 2 ^ 50 +
    h.level % 8 * 2 ^ 47

/-- The CRC-64 over prefix and data (R490). -/
def packetCrc (pre : Nat) (bs : List Nat) : Nat := crc64 (leBytes 8 pre ++ bs)

/-- ACTIVE fabric ports of a destination's route (R489). -/
def routePorts (s : State) (dst : Nat) : List Nat :=
  (bitList 32 (s.obj (objKey dst kRoutePorts))).filter (fun p => ((s.soune.getD p {}).st == 2))

/-- The port that carries a packet (R489). -/
def routePort (s : State) (dst ticket chunk : Nat) : Option Nat :=
  let ps := routePorts s dst
  if ps.isEmpty then none else ps[(ticket + chunk) % ps.length]?

/-- The virtual channel of a fabric packet (R485): chunks up, results down, and control. -/
def packetVc (h : Hdr) : Nat := if h.kind = 3 then (if h.level = 7 then 2 else 1) else 0

/-- The bytes of a packet: header, a CHUNK's prefix, data, check. -/
def packetBytes (w kind pre : Nat) (bs : List Nat) : List Nat :=
  leBytes 32 w ++ (if kind = 3 then leBytes 8 pre else []) ++ bs ++ leBytes 8 (packetCrc pre bs)

/-- Sends a fabric packet; nothing leaves towards a destination without an ACTIVE port, and a fenced device sends no data
packet (R489, R537). -/
def sendPacket (s : State) (h : Hdr) (pre : Nat) (bs : List Nat) : State :=
  match routePort s h.dst h.ticket h.chunk with
  | none => s
  | some p =>
    if s.twin.st = 5 ∧ h.kind = 3 then s
    else
      let w := ({ h with len := ceilDiv bs.length 16 } : Hdr).word
      souneTransact (s.send .fabric p ([w, pre, packetCrc pre bs] ++ bs)) p (packetVc h) (packetBytes w h.kind pre bs)

/-! ## Groups and the tree (R491) -/

/-- The fabric address of a member; a spare pair marked INCOMING holds no member number yet (R547). -/
def memberAddr (r : Roster) (m : Nat) : Option Nat :=
  match r.lines.find? (fun l => !l.incoming && (l.member == m || l.member + 1 == m)) with
  | some l => some (if l.member = m then l.addr0 else l.addr1)
  | none => none

def addrIs (r : Roster) (a m : Nat) : Bool := memberAddr r m == some a

def State.self (s : State) : Nat := s.obj kSouneAddr

/-- Members of level-0 set `j`. -/
def setMembers (n j : Nat) : List Nat := (List.range (min 256 (n - 256 * j))).map (256 * j + ·)

def setCount (n : Nat) : Nat := ceilDiv n 256

def treeLevels (n : Nat) : Nat := if n ≤ 256 then 1 else 2

/-- The level-0 reducer of set `j` for chunk `c`. -/
def reducer0 (n j c : Nat) : Nat := 256 * j + c % min 256 (n - 256 * j)

def topReducer (n c : Nat) : Nat := if treeLevels n = 1 then reducer0 n 0 c else reducer0 n (c / 256 % setCount n) c

/-! ## The descriptor (R515) -/

structure CollDesc where
  timeoutUs : Nat
  gseq : Nat
  epoch : Nat
  group : Nat
  root : Nat
  count : Nat
  hi : Int
  lo : Int
  tag : Nat
  seed : Nat
  srcFmt : Nat
  wireFmt : Nat
  dstFmt : Nat
  rnd : Nat
  ovf : Nat
  all : Bool
  dst : Nat
  src : Nat
  rdo : Bool
deriving DecidableEq, Repr, Inhabited

def collDesc (x : Nat) : CollDesc :=
  { timeoutUs := bits x 1023 992, gseq := bits x 991 960, epoch := bits x 959 928, group := bits x 927 912
    root := bits x 911 896, count := bits x 895 856, hi := toSigned 8 (bits x 847 840), lo := toSigned 8 (bits x 839 832)
    tag := bits x 831 800, seed := bits x 799 736, srcFmt := bits x 735 731, wireFmt := bits x 730 726
    dstFmt := bits x 725 721, rnd := bits x 720 718, ovf := bits x 717 717, all := bit x 716
    dst := bits x 247 192, src := bits x 183 128, rdo := hOpc x == opRDO }

def collReservedOk (x : Nat) : Bool := zeroAt x [(855, 848), (715, 248), (191, 184)]

/-- How a reduction is computed (R505): 0 a copy, 1 extended, 2 exact from a narrow wire, 3 FX128, 4 integer. -/
def CollDesc.how (d : CollDesc) : Nat :=
  if !d.rdo then 0
  else if d.wireFmt ≤ 2 then 1
  else if d.wireFmt ≤ 7 then 2
  else if d.wireFmt = fFX128 then 3
  else 4

/-- Combinations of R505. -/
def collFormatsOk (d : CollDesc) : Bool :=
  let float (f : Nat) : Bool := decide (f ≤ 2)
  let narrow (f : Nat) : Bool := decide (3 ≤ f) && decide (f ≤ 7)
  let out (f : Nat) : Bool := decide (f ≤ 4)
  decide (d.rnd ≤ 5) &&
  if !d.rdo then decide (d.srcFmt ≤ 15) && d.wireFmt == d.srcFmt && d.dstFmt == d.srcFmt
  else
    (float d.srcFmt && d.wireFmt == d.srcFmt && float d.dstFmt) ||
    (float d.srcFmt && narrow d.wireFmt && out d.dstFmt) ||
    (narrow d.srcFmt && d.wireFmt == d.srcFmt && out d.dstFmt) ||
    (d.srcFmt == fINT32 && d.wireFmt == fINT32 && d.dstFmt == fINT32) ||
    (d.srcFmt == fINT64 && d.wireFmt == fINT64 && d.dstFmt == fINT64) ||
    (d.srcFmt == fFX128 && d.wireFmt == fFX128 && d.dstFmt == fFX128)

/-- Elements of a chunk (R500). -/
def CollDesc.elems (d : CollDesc) : Nat := 524288 / max 1 (fmtBits d.wireFmt)

def CollDesc.chunks (d : CollDesc) : Nat := ceilDiv d.count d.elems

/-- Elements that chunk `c` holds. -/
def CollDesc.chunkLen (d : CollDesc) (c : Nat) : Nat := min d.elems (d.count - c * d.elems)

/-- Unit exponent of the exact reduction (R239). -/
def CollDesc.base (d : CollDesc) : Int := factorLo d.wireFmt + d.lo

/-- 0x0130 of R517: the span of R239; FX128 sums stay within 128 bits for every group size. -/
def collSpanOk (d : CollDesc) (n : Nat) : Bool :=
  decide (d.lo ≤ d.hi) && (d.how != 2 || decide (factorHi d.wireFmt + d.hi + clog2 n - d.base ≤ 126))

def CollDesc.srcRegion (d : CollDesc) : Nat × Nat := (d.src, d.src + rowBytes d.srcFmt d.count)
def CollDesc.dstRegion (d : CollDesc) : Nat × Nat := (d.dst, d.dst + rowBytes d.dstFmt d.count)

/-- The address fields of R516 on member `m`. -/
def collAddrsOk (d : CollDesc) (m : Nat) : Bool :=
  if !d.rdo then (if m = d.root then d.src != 0 && d.dst == 0 else d.src == 0 && d.dst != 0)
  else if d.all then d.src != 0 && d.dst != 0
  else d.src != 0 && (if m = d.root then d.dst != 0 else d.dst == 0)

/-- The code that a member reports through JOIN (R517), in the table's order, its reserved fields first (R480). -/
def collCheck (x : Nat) (m n : Nat) : Nat :=
  let d := collDesc x
  if !collReservedOk x then 0x0155
  else if !collSpanOk d n then 0x0130
  else if !collFormatsOk d then 0x0131
  else if 2 ^ 24 < d.chunks then 0x0140
  else if d.src % 16 ≠ 0 ∨ d.dst % 16 ≠ 0 then 0x0141
  else if overlaps d.srcRegion d.dstRegion && !(d.all && d.src == d.dst) && d.src != 0 && d.dst != 0 then 0x0145
  else if !collAddrsOk d m ∨ n ≤ d.root ∨ (d.all ∧ (!d.rdo ∨ d.root ≠ 0)) then 0x0155
  else 0

/-- The signature of R497, as bytes. -/
def collSig (d : CollDesc) (ticket : Nat) : List Nat :=
  ([if d.rdo then opRDO else opBCS, b2n d.all, d.srcFmt, d.wireFmt, d.dstFmt, d.count, d.root, d.group, d.epoch, ticket,
    ofSigned 8 d.lo, ofSigned 8 d.hi, d.rnd, d.ovf] ++ (if d.rnd = 5 then [d.seed, d.tag] else [])).flatMap (leBytes 8)

/-! ## Data of a chunk (R237 to R242, R500 to R507) -/

/-- Largest finite value of a wire format. -/
def fmtMax (f : Nat) : Val :=
  match f with
  | 3 => .ofNat 448
  | 4 => .ofNat 57344
  | 5 => .ofNat 6
  | 6 => .ofNat 127
  | _ => .ofNat 7

/-- A contribution on the wire (R238, R500): E8M0 scale code, bytes, and what its conversion counts; special values follow R35
under the op's `OVF`. -/
def encodeChunk (d : CollDesc) (codes : List Nat) : Nat × List Nat × List (Nat × Nat) :=
  if d.rdo ∧ d.srcFmt ≠ d.wireFmt then
    let vs := codes.map (decodeNum d.srcFmt)
    let a := maxAbs vs
    let k : Int := if a.isZero then d.lo else groupScale a (fmtMax d.wireFmt)
    let es := vs.map (fun v => encodeNum d.wireFmt { ovf := d.ovf, keepNeg := true } 0 (Val.scale v (-k)))
    ((k + 127).toNat, packRow d.wireFmt (es.map (·.code)),
      [(kOvfCount, (es.filter (·.ovf)).length), (kNanSubstCount, (es.filter (·.sub)).length), (kNanOutCount, (es.filter (·.nan)).length)])
  else (127, packRow d.wireFmt codes, [])

/-- Cells of R502. -/
def cell502 (k : Cell) : Nat :=
  if k.nan || k.pinf || k.ninf then 2 ^ 127 + b2n k.nan * 4 + b2n k.pinf * 2 + b2n k.ninf else ofSigned 127 k.c

def ofCell502 (x : Nat) : Cell :=
  if bit x 127 then { c := 0, nan := bit x 2, pinf := bit x 1, ninf := bit x 0 }
  else { c := toSigned 127 x, nan := false, pinf := false, ninf := false }

/-- Adds a contribution's element to a cell. -/
def cellIn (d : CollDesc) (scale : Nat) (k : Cell) (code : Nat) : Cell :=
  if d.how = 3 then
    match Cell.ofFx128 code with
    | some y => { c := k.c + y.c, nan := k.nan || y.nan, pinf := k.pinf || y.pinf, ninf := k.ninf || y.ninf }
    | none => { k with nan := true }
  else Cell.addProd d.base k (Val.scale (decodeNum d.wireFmt code) ((scale : Int) - 127))

def cellAdd (a b : Cell) : Cell :=
  { c := a.c + b.c, nan := a.nan || b.nan, pinf := a.pinf || b.pinf, ninf := a.ninf || b.ninf }

def cellZero : Cell := { c := 0, nan := false, pinf := false, ninf := false }

/-- The column sums of a reducer's inputs in ascending order, as cells (R507) or extended values (R506) or integers. -/
structure Sum where
  cells : List Cell := []
  vals : List Val := []
  ints : List Nat := []
deriving DecidableEq, Repr, Inhabited

/-- Codes that an input holds: contributions in the wire format, partials in the forms of R501. -/
def partCodes (d : CollDesc) (p : CollPart) : List Nat :=
  let fmt := if p.level = 0 then d.wireFmt else if d.how = 1 then fFP32 else if d.how = 4 then d.wireFmt else fFX128
  unpackFrom fmt 0 (d.chunkLen p.chunk) p.bytes

def sumParts (d : CollDesc) (ps : List CollPart) : Sum :=
  match ps with
  | [] => {}
  | p :: rest =>
    match d.how with
    | 1 =>
      let vals := fun (q : CollPart) => (partCodes d q).map (decodeNum (if q.level = 0 then d.wireFmt else fFP32))
      { vals := rest.foldl (fun acc q => List.zipWith (fun a b => toExt (Val.add 0 a b)) acc (vals q)) (vals p) }
    | 4 =>
      { ints := rest.foldl (fun acc q => List.zipWith (fun a b => (a + b) % 2 ^ fmtBits d.wireFmt) acc (partCodes d q)) (partCodes d p) }
    | _ =>
      let cells := fun (q : CollPart) (acc : List Cell) =>
        List.zipWith (fun k c => if q.level = 0 then cellIn d q.scale k c else cellAdd k (ofCell502 c)) acc (partCodes d q)
      { cells := ps.foldl (fun acc q => cells q acc) (List.replicate (d.chunkLen p.chunk) cellZero) }

/-- A level-0 partial (R501, R502). -/
def partialBytes (d : CollDesc) (x : Sum) : List Nat :=
  match d.how with
  | 1 => packRow fFP32 (x.vals.map (fun v => (encodeNum fFP32 { keepNeg := true } 0 v).code))
  | 4 => packRow d.wireFmt x.ints
  | _ => packRow fFX128 (x.cells.map cell502)

/-- The result of a chunk (R241, R242, R506), with what its conversion counts; none where an FX128 sum does not fit. -/
def resultBytes (d : CollDesc) (c : Nat) (x : Sum) : Option (List Nat × List (Nat × Nat)) :=
  let round := fun (vs : List Val) =>
    let es := ((List.range vs.length).zip vs).map (fun p =>
      encodeNum d.dstFmt { rnd := d.rnd, ovf := d.ovf, seed := d.seed, tag := d.tag } (c * d.elems + p.1) p.2)
    (packRow d.dstFmt (es.map (·.code)),
      [(kOvfCount, (es.filter (·.ovf)).length), (kNanSubstCount, (es.filter (·.sub)).length), (kNanOutCount, (es.filter (·.nan)).length)])
  match d.how with
  | 1 => some (round x.vals)
  | 2 => some (round (x.cells.map (Cell.value d.base)))
  | 3 => if x.cells.all Cell.fits then some (packRow fFX128 (x.cells.map Cell.fx128), []) else none
  | _ => some (packRow d.wireFmt x.ints, [])

/-- The status with which a reducer withholds a chunk (R240, R503), or 0. -/
def partsBad (d : CollDesc) (ps : List CollPart) : Nat :=
  match ps.find? (fun p => p.bad != 0) with
  | some p => p.bad
  | none =>
    if d.how = 2 ∧ ps.any (fun p => p.level == 0 && !(decide (d.lo ≤ (p.scale : Int) - 127) && decide ((p.scale : Int) - 127 ≤ d.hi)))
    then 0x0309 else 0

/-! ## Records and completion -/

def State.coll? (s : State) (op : Nat) : Option Coll := s.colls.find? (fun c => c.op == op)

def State.putColl (s : State) (c : Coll) : State := { s with colls := s.colls.map (fun x => if x.op = c.op then c else x) }

/-- The collective that serves a ticket's packets: the first on the device (R550, log 41). -/
def collOf (s : State) (ticket : Nat) : Option Coll := s.colls.find? (fun c => c.ticket == some ticket && decide (1 ≤ c.phase))

/-- What a collective needs of its surroundings: context, descriptor and the group's roster. -/
structure CollEnv where
  ctx : Nat
  d : CollDesc
  r : Roster
deriving DecidableEq, Repr, Inhabited

def collEnv (s : State) (c : Coll) : Option CollEnv :=
  (findGroup s (collDesc c.desc).group).map (fun g => ⟨c.ctx, collDesc c.desc, g.roster⟩)

/-- Chunks that member `m` writes (R516). -/
def writes (d : CollDesc) (m : Nat) : Bool := if d.rdo then d.all || m == d.root else m != d.root

/-- The first applicable code of R513 among chunks withheld. -/
def lostCode (l : List (Nat × Nat)) : Nat := firstCode [0x0404, 0x0305, 0x0309] (l.map (·.2))

/-- Counts the end of a collective with a code (R520). -/
def countEnd (s : State) (code : Nat) : State :=
  if code = 0x0401 then s.bump kCollMismatchCount 1
  else if code = 0x0402 then s.bump kCollTimeoutCount 1
  else if code = 0x0403 then s.bump kCollReformedCount 1
  else s

/-- The ticket sequence of a roster: that of the pair which holds its primary manager, whichever twin has the role (R494, R546). -/
def startedKey (r : Roster) : Nat :=
  match r.lines.find? (fun l => l.member == r.primary || l.member + 1 == r.primary) with
  | some l => l.addr0
  | none => 2 ^ 24

/-- The collectives of a roster's ticket sequence that have started here, or whose turn has passed (R495). -/
def State.startedOf (s : State) (r : Roster) : Nat := kvGet 0 s.started (startedKey r)

/-- `n` collectives of a sequence have had their turn; those after them that ended before it count with them (log 42). -/
def passTurns (s : State) (k n : Nat) : State :=
  let mine := (s.skipped.filter (fun x => x.1 == k)).map (·.2)
  let m := mine.foldl (fun m _ => if mine.contains m then m + 1 else m) n
  { s with started := kvSet 0 s.started k m, skipped := s.skipped.filter (fun x => x.1 != k || decide (m ≤ x.2)) }

/-- A collective of a roster's sequence has started. -/
def noteStarted (s : State) (r : Roster) : State := passTurns s (startedKey r) (s.startedOf r + 1)

/-- A collective of a roster's sequence with `PRIOR` ended before its start (log 42). -/
def noteSkipped (s : State) (r : Roster) (prior : Nat) : State :=
  passTurns { s with skipped := (startedKey r, prior) :: s.skipped } (startedKey r) (s.startedOf r)

/-- A collective ends on this member with a code; one that held a ticket and had not started counts in its turn (R495,
log 42). `INFO` is the number of chunks that the member did not write (R509). -/
def endColl (s : State) (c : Coll) (code : Nat) : State :=
  let d := collDesc c.desc
  let unwritten := if c.phase = 2 ∧ writes d c.member then d.chunks - c.written.length else 0
  let s1 := match findGroup s d.group with
    | some g => if c.phase = 0 ∧ c.ticket.isSome then noteSkipped s g.roster c.prior else s
    | none => s
  let s2 : State := { s1 with
    colls := s1.colls.filter (fun x => x.op ≠ c.op), joins := s1.joins.filter (fun j => some j.ticket ≠ c.ticket) }
  if c.phase = 3 then s2 else countEnd (finishOp s2 c.op code unwritten) code

/-- Sends ABORT with a cause to every other member of the group (R508, R512). -/
def abortGroup (s : State) (c : Coll) (r : Roster) (cause : Nat) : State :=
  let others := ((List.range r.size).filterMap (memberAddr r)).filter (· ≠ s.self)
  others.dedup.foldl (fun s a => sendPacket s
    { dst := a, src := s.self, kind := 2, group := r.group, epoch := r.epoch, ticket := c.ticket.getD 0 } 0 (leBytes 2 cause)) s

/-! ## Movement -/

/-- Sends a chunk and holds it until it is acknowledged (R503); bytes are counted (R376, R520). -/
def sendChunk (s : State) (E : CollEnv) (op dst chunk level scale : Nat) (bs : List Nat) : State :=
  match s.coll? op with
  | none => s
  | some c =>
    let t := c.ticket.getD 0
    let s1 := sendPacket s { dst := dst, src := s.self, kind := 3, group := E.d.group, epoch := E.d.epoch, ticket := t,
                             chunk := chunk, level := level } scale bs
    let s2 := s1.putColl { c with sent := c.sent ++ [⟨dst, chunk, level, scale, bs, (routePort s dst t chunk).getD 32⟩] }
    (s2.bump kCollBytesSent bs.length).bump (objKey E.ctx kAcctBytesFabric) bs.length

/-- Sends WITHHELD for a chunk (R503). -/
def sendWithheld (s : State) (E : CollEnv) (t dst chunk level reason : Nat) : State :=
  sendPacket s { dst := dst, src := s.self, kind := 9, group := E.d.group, epoch := E.d.epoch, ticket := t,
                 chunk := chunk, level := level } 0 (leBytes 2 reason)

/-- What a member passes on: bytes, or the status of a withheld chunk. -/
abbrev Payload := Except Nat (List Nat)

/-- Sends a payload to a member that another device holds. -/
def passOn (s : State) (E : CollEnv) (op t chunk level : Nat) (p : Payload) (m : Nat) : State :=
  match memberAddr E.r m with
  | none => s
  | some a =>
    if a = s.self then s
    else match p with
      | .ok bs => sendChunk s E op a chunk level 127 bs
      | .error reason => sendWithheld s E t a chunk level reason

/-- A member learns that a chunk is withheld: it notes the status once, and counts a scale out of range (R240, R504). -/
def noteLost (s : State) (op chunk reason : Nat) : State :=
  match s.coll? op with
  | none => s
  | some c =>
    if c.lost.any (fun x => x.1 == chunk) then s
    else (s.putColl { c with lost := (chunk, reason) :: c.lost }).bump kWireScaleRangeCount (b2n (reason == 0x0309))

/-- Writes a result chunk at this member's destination, or notes it as withheld; a fault ends the op with its status. -/
def takeResult (s : State) (E : CollEnv) (op chunk : Nat) (p : Payload) : State :=
  match s.coll? op with
  | none => s
  | some c =>
    match p with
      | .error reason => noteLost s op chunk reason
      | .ok bs =>
        if !writes E.d c.member then s.putColl { c with written := chunk :: c.written } else
        let env := { s.env E.ctx with d := s.dp }
        match ((wr env (E.d.dst + chunk * E.d.elems * fmtBits E.d.dstFmt / 8) bs).run {} : Except Nat Unit × Eff) with
        | (.ok _, e) => (s.effect env e).putColl { c with written := chunk :: c.written }
        | (.error code, e) => endColl (s.effect env e) c code

/-- Whether this device holds member `m`. -/
def holds (s : State) (E : CollEnv) (m : Nat) : Bool := addrIs E.r s.self m

/-- The broadcast path of a chunk at this device, from the moment it holds the chunk (R493). -/
def broadcast (s : State) (E : CollEnv) (op t chunk : Nat) (p : Payload) : State :=
  let n := E.r.size
  let top := topReducer n chunk
  let sets := List.range (setCount n)
  let s1 := if treeLevels n = 2 ∧ holds s E top then
      ((sets.map (fun j => reducer0 n j chunk)).filter (· ≠ top)).foldl (fun s m => passOn s E op t chunk 7 p m) s
    else s
  let mine := sets.filter (fun j => holds s E (reducer0 n j chunk))
  let s2 := mine.foldl (fun s j => ((setMembers n j).filter (· ≠ reducer0 n j chunk)).foldl (fun s m => passOn s E op t chunk 7 p m) s) s1
  takeResult s2 E op chunk p

/-- Whether every member hears of a chunk's end: of its result with `ALL` = 1, and of a scale out of range always, since every member
counts it (R240, R504). -/
def everyMember (d : CollDesc) (p : Payload) : Bool := d.all || (match p with | .error r => r == 0x0309 | .ok _ => false)

/-- The result of a chunk at its top reducer: to every member, or to `ROOT` (R492). -/
def deliverResult (s : State) (E : CollEnv) (op t chunk : Nat) (p : Payload) : State :=
  if everyMember E.d p then broadcast s E op t chunk p
  else if holds s E E.d.root then takeResult s E op chunk p
  else passOn s E op t chunk 7 p E.d.root

/-- The top reducer's level-1 work on a chunk, once it holds every set's partial (R492, R506, R507). -/
def reduce1 (s : State) (E : CollEnv) (op t chunk : Nat) : State :=
  match s.coll? op with
  | none => s
  | some c =>
    let n := E.r.size
    let ps := (List.range (setCount n)).filterMap (fun j => c.parts.find? (fun p => p.chunk == chunk && p.level == 1 && p.src == j))
    if c.reduced.contains (chunk, 1) ∨ ps.length < setCount n then s
    else
      let s1 := s.putColl { c with reduced := (chunk, 1) :: c.reduced, parts := c.parts.filter (fun p => !(p.chunk == chunk && p.level == 1)) }
      if partsBad E.d ps ≠ 0 then deliverResult s1 E op t chunk (.error (partsBad E.d ps))
      else match resultBytes E.d chunk (sumParts E.d ps) with
        | none => deliverResult s1 E op t chunk (.error 0x0305)
        | some r => deliverResult (s1.setDp (bumps s1.dp r.2)) E op t chunk (.ok r.1)

/-- A level-0 reducer's work on a chunk of its set, once it holds every contribution. -/
def reduce0 (s : State) (E : CollEnv) (op t chunk j : Nat) : State :=
  match s.coll? op with
  | none => s
  | some c =>
    let n := E.r.size
    let ms := setMembers n j
    let ps := ms.filterMap (fun m => c.parts.find? (fun p => p.chunk == chunk && p.level == 0 && p.src == m))
    if c.reduced.contains (chunk, 8 + j) ∨ ps.length < ms.length then s
    else
      let s1 := s.putColl { c with reduced := (chunk, 8 + j) :: c.reduced
                                   parts := c.parts.filter (fun p => !(p.chunk == chunk && p.level == 0 && ms.contains p.src)) }
      let bad := partsBad E.d ps
      if treeLevels n = 1 then
        if bad ≠ 0 then deliverResult s1 E op t chunk (.error bad)
        else match resultBytes E.d chunk (sumParts E.d ps) with
          | none => deliverResult s1 E op t chunk (.error 0x0305)
          | some r => deliverResult (s1.setDp (bumps s1.dp r.2)) E op t chunk (.ok r.1)
      else
        let p : Payload := if bad ≠ 0 then .error bad else .ok (partialBytes E.d (sumParts E.d ps))
        if holds s E (topReducer n chunk) then
          match s1.coll? op with
          | none => s1
          | some c1 =>
            let part : CollPart := match p with
              | .ok bs => { chunk := chunk, level := 1, src := j, bytes := bs }
              | .error b => { chunk := chunk, level := 1, src := j, bad := b }
            reduce1 (s1.putColl { c1 with parts := part :: c1.parts }) E op t chunk
        else passOn s1 E op t chunk 1 p (topReducer n chunk)

/-- A contribution reaches its level-0 reducer on this device. -/
def takePart (s : State) (E : CollEnv) (op t : Nat) (p : CollPart) : State :=
  match s.coll? op with
  | none => s
  | some c =>
    let s1 := s.putColl { c with parts := p :: c.parts }
    if p.level = 0 then reduce0 s1 E op t p.chunk (p.src / 256) else reduce1 s1 E op t p.chunk

/-- Whether a collective's data are all moved for this member's completion (R514). -/
def collFinished (E : CollEnv) (c : Coll) : Bool :=
  let n := E.d.chunks
  let got := decide (n ≤ c.written.length + c.lost.length)
  if !c.moved then false
  else if c.member ≠ E.r.member then c.sent.isEmpty
  else if E.d.rdo && !E.d.all then (if c.member = E.d.root then got else c.sent.isEmpty)
  else got && c.sent.isEmpty

/-- Whether it serves other members no more: every chunk it reduces is reduced, and nothing waits for an acknowledgement. -/
def collIdle (s : State) (E : CollEnv) (c : Coll) : Bool :=
  let n := E.r.size
  c.sent.isEmpty && (!E.d.rdo || (List.range E.d.chunks).all (fun k =>
    (List.range (setCount n)).all (fun j => !holds s E (reducer0 n j k) || c.reduced.contains (k, 8 + j)) &&
    (treeLevels n == 1 || !holds s E (topReducer n k) || c.reduced.contains (k, 1))))

/-- The code with which a member completes: that of its withheld chunks (R513), or 0x0303 where a NaN of its data became +0
(R35, R55). -/
def collCode (c : Coll) : Nat := if lostCode c.lost = 0 ∧ c.subst then 0x0303 else lostCode c.lost

/-- Completes the op when its data are moved, and drops the record when it serves no one (R513, R514). -/
def collProgress (s : State) (E : CollEnv) (op : Nat) : State :=
  match s.coll? op with
  | none => s
  | some c =>
    let s1 := if c.phase = 2 ∧ collFinished E c then
        (finishOp s op (collCode c) (if writes E.d c.member then c.lost.length else 0)).putColl { c with phase := 3 }
      else s
    match s1.coll? op with
    | none => s1
    | some c1 =>
      if c1.phase = 3 ∧ collIdle s1 E c1 then { s1 with colls := s1.colls.filter (fun x => x.op ≠ op) } else s1

/-- The codes of chunk `c` of the source. -/
def sourceCodes (s : State) (E : CollEnv) (c : Nat) : Plan (List Nat) :=
  rdCodes (s.env E.ctx) E.d.src E.d.srcFmt (c * E.d.elems) (E.d.chunkLen c)

/-- The codes of the whole source, chunk by chunk. -/
def sources (s : State) (E : CollEnv) : Plan (List (List Nat)) := (List.range E.d.chunks).mapM (sourceCodes s E)

/-- A member's own part of the movement after GO: its contributions (R492) or, at the root of a BCS, the tensor (R493).
`serve` is the op of the collective that serves the ticket on this device. -/
def moveChunk (s : State) (E : CollEnv) (op serve member t c : Nat) (codes : List Nat) : State :=
  let n := E.r.size
  if E.d.rdo then
    let w := encodeChunk E.d codes
    let s0 := s.setDp (bumps s.dp w.2.2)
    let s1 := if w.2.2.any (fun x => x.1 == kNanSubstCount && x.2 != 0) then
        (match s0.coll? op with
          | some k => s0.putColl { k with subst := true }
          | none => s0)
      else s0
    let red := reducer0 n (member / 256) c
    if holds s E red then takePart s1 E serve t { chunk := c, level := 0, src := member, scale := w.1, bytes := w.2.1 }
    else match memberAddr E.r red with
      | some a => sendChunk s1 E op a c 0 w.1 w.2.1
      | none => s1
  else if holds s E (topReducer n c) then broadcast s E serve t c (.ok (packRow E.d.srcFmt codes))
  else passOn s E op t c 7 (.ok (packRow E.d.srcFmt codes)) (topReducer n c)

/-- Takes up the result chunks that reached this member before its GO (R499). -/
def takeHeld (s : State) (E : CollEnv) (op t : Nat) : State :=
  match s.coll? op with
  | none => s
  | some c =>
    (c.parts.filter (fun p => p.level == 7)).foldl (fun s p => broadcast s E op t p.chunk (.ok p.bytes))
      (s.putColl { c with parts := c.parts.filter (fun p => p.level != 7) })

/-- GO (R499): the member may move the collective's data. -/
def takeGo (s : State) (c : Coll) : State := s.putColl { c with phase := 2, since := s.time }

/-- The member's own part after GO (R499): a collective of no elements completes with 0x0310; a member with a source reads and
sends it. -/
def moveColl (s : State) (E : CollEnv) (c : Coll) : State :=
  let t := c.ticket.getD 0
  let s1 := s.putColl { c with moved := true, since := s.time }
  if E.d.count = 0 then endColl s1 { c with moved := true } 0x0310
  else if E.d.src = 0 then collProgress (takeHeld s1 E c.op t) E c.op
  else
    let serve := ((collOf s1 t).map (·.op)).getD c.op
    let env := s1.env E.ctx
    match ((sources s1 E).run {} : Except Nat (List (List Nat)) × Eff) with
    | (.error code, e) => endColl (s1.effect env e) { c with moved := true } code
    | (.ok cs, e) =>
      let s2 := s1.effect env e
      let s3 := ((List.range cs.length).zip cs).foldl (fun s p => moveChunk s E c.op serve c.member t p.1 p.2)
        (takeHeld s2 E c.op t)
      collProgress (collProgress s3 E serve) E c.op

/-- A started collective op goes on: it moves its data after GO, and completes when all are moved. -/
def runColl (s : State) (o : Op) : State :=
  match s.coll? o.id with
  | none => s
  | some c =>
    match collEnv s c with
    | none => s
    | some E =>
      if c.phase ≠ 2 then s
      else if c.moved then collProgress s E o.id
      else if E.d.count = 0 ∨ E.d.src = 0 then moveColl s E c
      else match waitsForHost o ((sources s E).run {} : Except Nat (List (List Nat)) × Eff).2 with
        | some ts => readOn s o ts
        | none => moveColl s E c

/-! ## Joining (R498, R499) -/

/-- GO or an ABORT's cause at a member and, from a level-0 collector, to the members of its set. -/
def decide1 (s : State) (E : CollEnv) (t : Nat) (cause : Option Nat) : State :=
  let hdr := fun (a : Nat) => ({ dst := a, src := s.self, kind := if cause.isSome then 2 else 1, group := E.d.group,
                                 epoch := E.d.epoch, ticket := t } : Hdr)
  let mine := (List.range (setCount E.r.size)).filter (fun j => holds s E (256 * j))
  let s1 := mine.foldl (fun s j => (((setMembers E.r.size j).filterMap (memberAddr E.r)).filter (· ≠ s.self)).dedup.foldl
    (fun s a => sendPacket s (hdr a) 0 (match cause with | some k => leBytes 2 k | none => [])) s) s
  (s1.colls.filter (fun c => c.ticket == some t && c.phase == 1)).foldl (fun s c =>
    match cause with
    | some k => endColl s c k
    | none => takeGo s c) s1

/-- Member 0's decision once it holds every set's JOIN. -/
def decideTop (s : State) (E : CollEnv) (t : Nat) : State :=
  let n := E.r.size
  let js := (List.range (setCount n)).filterMap (fun j => s.joins.find? (fun x => x.ticket == t && x.level == 1 && x.member == 256 * j))
  if js.length < setCount n then s
  else
    let differ := js.any (fun j => j.differ || j.sig != (js.headD default).sig)
    let code := (js.find? (fun j => j.code != 0)).map (·.code)
    let cause := if differ then some 0x0401 else code
    let others := (((List.range (setCount n)).filterMap (fun j => memberAddr E.r (256 * j))).filter (· ≠ s.self)).dedup
    let hdr := fun (a : Nat) => ({ dst := a, src := s.self, kind := if cause.isSome then 2 else 1, group := E.d.group,
                                   epoch := E.d.epoch, ticket := t, level := 1 } : Hdr)
    let s1 := others.foldl (fun s a => sendPacket s (hdr a) 0 (match cause with | some k => leBytes 2 k | none => [])) s
    decide1 { s1 with joins := s1.joins.filter (fun j => j.ticket ≠ t) } E t cause

/-- A level-0 collector forwards one JOIN once it holds every JOIN of its set. -/
def collect0 (s : State) (E : CollEnv) (t j : Nat) : State :=
  let ms := setMembers E.r.size j
  let js := ms.filterMap (fun m => s.joins.find? (fun x => x.ticket == t && x.level == 0 && x.member == m))
  if js.length < ms.length then s
  else
    let sig := (js.headD default).sig
    let one : CollJoin := { ticket := t, level := 1, member := 256 * j, sig := sig
                            code := ((js.find? (fun x => x.code != 0)).map (·.code)).getD 0
                            differ := js.any (fun x => x.differ || x.sig != sig) }
    let s1 : State := { s with joins := s.joins.filter (fun x => !(x.ticket == t && x.level == 0 && ms.contains x.member)) }
    if holds s E 0 then decideTop { s1 with joins := one :: s1.joins } E t
    else match memberAddr E.r 0 with
      | none => s1
      | some a => sendPacket s1 { dst := a, src := s.self, kind := 0, group := E.d.group, epoch := E.d.epoch, ticket := t, level := 1 } 0
          (one.sig ++ leBytes 2 one.code ++ [b2n one.differ])

/-- A member's JOIN goes to the lowest-numbered member of its set. -/
def sendJoin (s : State) (E : CollEnv) (c : Coll) : State :=
  let t := c.ticket.getD 0
  let j := c.member / 256
  let one : CollJoin := { ticket := t, level := 0, member := c.member, sig := collSig E.d t
                          code := collCheck c.desc c.member E.r.size, differ := false }
  if holds s E (256 * j) then collect0 { s with joins := one :: s.joins } E t j
  else match memberAddr E.r (256 * j) with
    | none => s
    | some a => sendPacket s { dst := a, src := s.self, kind := 0, group := E.d.group, epoch := E.d.epoch, ticket := t } 0
        (one.sig ++ leBytes 2 one.code ++ [0])

/-! ## Tickets (R494, R546) -/

/-- Whether a collective waits for the ticket of a triple. -/
def asks (c : Coll) (group epoch gseq : Nat) : Bool :=
  let d := collDesc c.desc
  c.phase == 0 && c.ticket == none && d.group == group && d.epoch == epoch && d.gseq == gseq

/-- A ticket reaches the collectives that asked for it. -/
def takeTicket (s : State) (group epoch ticket gseq prior : Nat) : State :=
  let waited := ((s.colls.filter (fun c => asks c group epoch gseq)).map (fun c => s.time - c.since)).sum
  let s1 : State := { s with colls := s.colls.map (fun c =>
      if asks c group epoch gseq then { c with ticket := some ticket, prior := prior, since := s.time } else c) }
  s1.bump kTicketWaitNs waited

/-- What `State.late` holds of a collective whose wait for its ticket has expired, beside the numbers of tickets. -/
def askKey (group epoch gseq : Nat) : Nat := 2 ^ 64 + (group * 2 ^ 32 + epoch) * 2 ^ 32 + gseq

/-- A ticket of a group's current epoch reaches this device: the collectives that asked take it; one whose collective gave up its wait is
late, and one that no collective here asked for is stale; such a collective's turn passes (R508, R510, log 42). -/
def meetTicket (s : State) (group epoch ticket gseq prior : Nat) : State :=
  if s.colls.any (fun c => asks c group epoch gseq) then takeTicket s group epoch ticket gseq prior
  else if s.colls.any (fun c => c.ticket == some ticket) then s
  else
    let s1 := match findGroup s group with
      | some g => noteSkipped s g.roster prior
      | none => s
    let k := askKey group epoch gseq
    if s.late.contains k then ({ s1 with late := ticket :: s1.late.filter (· ≠ k) } : State).bump kCollLateCount 1
    else s1.bump kCollStaleCount 1

/-- An answer of the primary manager reaches the asking device. -/
def answerTicket (s : State) (dst group epoch ticket gseq prior : Nat) : State :=
  if dst = s.self then meetTicket s group epoch ticket gseq prior
  else sendPacket s { dst := dst, src := s.self, kind := 7, group := group, epoch := epoch, ticket := ticket } 0
    (leBytes 4 gseq ++ leBytes 8 prior)

/-- Sends a tether packet on every ACTIVE tether port or on the first of them (R523). -/
def sendTether (s : State) (kind chunk ticket : Nat) (every : Bool) (bs : List Nat) : State :=
  let ps := [32, 33, 34, 35].filter (fun p => portActive false (s.port false p))
  let h : Hdr := { dst := s.twin.addr, src := s.self, kind := kind, epoch := s.twin.epoch, chunk := chunk, ticket := ticket
                   len := ceilDiv bs.length 16 }
  (if every then ps else ps.take 1).foldl (fun s p =>
    souneTransact (s.send .tether p ([h.word, 0, packetCrc 0 bs] ++ bs)) p 3 (packetBytes h.word kind 0 bs)) s

/-- Whether this device is a group's primary manager: the one that its roster names, or the twin that has taken over the role (R546). -/
def isPrimary (s : State) (g : Group) : Bool := g.roster.role == 4 || addrIs g.roster s.self g.roster.primary

/-- A ticket request at the primary manager: the first request for a triple fixes its ticket; the answer waits for the twin
where this device is paired. -/
def giveTicket (s : State) (src group epoch gseq : Nat) : State :=
  match findGroup s group with
  | none => s
  | some g =>
    let old := s.mgr.given.find? (fun x => x.1 == group && x.2.1 == epoch && x.2.2.1 == gseq)
    let t := (old.map (fun x => x.2.2.2)).getD s.mgr.next
    let m1 : Manager := if old.isSome then s.mgr else { s.mgr with next := s.mgr.next + 1, given := s.mgr.given ++ [(group, epoch, gseq, t)] }
    let prior := (m1.given.filter (fun x => decide (x.2.2.2 < t) && (findGroup s x.1).any (fun y => (List.range y.roster.size).any (addrIs y.roster src)))).length
    if s.twin.st = 2 ∧ old.isNone then
      let m2 : Manager := { m1 with waiting := m1.waiting ++ [(s.twin.seq, src, [group, epoch, t, gseq, prior])] }
      let s1 : State := { s with mgr := m2, twin := { s.twin with seq := s.twin.seq + 1 } }
      sendTether s1 11 2 s.twin.seq false (leBytes 2 group ++ leBytes 4 epoch ++ leBytes 4 gseq ++ leBytes 8 t)
    else answerTicket { s with mgr := m1 } src g.roster.group epoch t gseq prior

/-- The engine places a collective in its queue: it asks for a ticket (R494); a request for an epoch that is not current finds no
ticket (R510, R511). A stand-in's second op of a collective speaks for the number it holds (R550, log 41). -/
def collPlaced (s : State) (o : Op) : State :=
  let d := collDesc o.desc
  match findGroup s d.group with
  | none => s
  | some g =>
    let other := s.colls.any (fun c =>
      let e := collDesc c.desc
      e.group == d.group && e.epoch == d.epoch && e.gseq == d.gseq)
    let m := if other ∧ g.roster.standin < 65536 then g.roster.standin else g.roster.member
    if g.roster.size ≤ m then s
    else
      let s1 : State := { s with colls := s.colls ++ [{ op := o.id, ctx := o.ctx, desc := o.desc, member := m, since := s.time }] }
      if isPrimary s g then (if g.roster.epoch = d.epoch then giveTicket s1 s.self d.group d.epoch d.gseq else s1.bump kCollStaleCount 1)
      else match memberAddr g.roster g.roster.primary with
        | none => s1
        | some a => sendPacket s1 { dst := a, src := s.self, kind := 6, group := d.group, epoch := d.epoch } 0 (leBytes 4 d.gseq)

end Sys2Proof.Machine
end

