-- ==== Sys2Proof/Machine/CollCmd.lean ====
section
/-! DEFINITION. The commands of the collective engine and remote signals (R449, R494 to R512). -/

namespace Sys2Proof.Machine

/-- Whether the packet's epoch is its group's current epoch (R510). -/
def epochOk (s : State) (h : Nat) : Bool := (findGroup s (pGroup h)).any (fun g => g.roster.epoch == pEpoch h)

/-- Discards a packet: as late where its collective's wait has expired here (R508), otherwise as stale (R510). -/
def discardPacket (s : State) (h : Nat) : State :=
  if epochOk s h && s.late.contains (pTicket h) then s.bump kCollLateCount 1 else s.bump kCollStaleCount 1

/-- The collective that a data packet belongs to. -/
def packetColl (s : State) (h : Nat) : Option (Coll × CollEnv) :=
  if !epochOk s h then none else (collOf s (pTicket h)).bind (fun c => (collEnv s c).map (fun E => (c, E)))

/-- JOIN at a collector (R498). A JOIN may come before the collector's own collective starts and is held (log 43). -/
def onCollJoin (pkt : Packet) (s : State) : State :=
  let h := pkt.hdr
  match findGroup s (pGroup h) with
  | none => (discardPacket s h)
  | some g =>
    if g.roster.epoch ≠ pEpoch h ∨ s.late.contains (pTicket h) then (discardPacket s h)
    else
      let n := g.roster.size
      let E : CollEnv := ⟨0, { (default : CollDesc) with group := pGroup h, epoch := pEpoch h }, g.roster⟩
      let lvl := if pLevel h = 1 then 1 else 0
      let from_ := if lvl = 1 then (List.range (setCount n)).map (256 * ·) else
        ((List.range (setCount n)).filter (fun j => holds s E (256 * j))).flatMap (setMembers n)
      let m := from_.find? (fun m => addrIs g.roster (pSrc h) m &&
        !s.joins.any (fun j => j.ticket == pTicket h && j.level == lvl && j.member == m))
      match m with
      | none => s
      | some m =>
        let k := pkt.data.length - 3
        let one : CollJoin := { ticket := pTicket h, level := lvl, member := m, sig := pkt.data.take k
                                code := leNat ((pkt.data.drop k).take 2), differ := (pkt.data.drop (k + 2)).headD 0 == 1 }
        let s1 : State := { s with joins := one :: s.joins }
        (if lvl = 1 then decideTop s1 E (pTicket h) else collect0 s1 E (pTicket h) (m / 256))

/-- GO (R499): passed on by a collector, and taken by this device's collectives of the ticket. -/
def onCollGo (pkt : Packet) (s : State) : State :=
  let h := pkt.hdr
  match packetColl s h with
  | none => (discardPacket s h)
  | some p =>
    if pLevel h = 1 then (decide1 s p.2 (pTicket h) none)
    else ((s.colls.filter (fun c => c.ticket == some (pTicket h) && c.phase == 1)).foldl takeGo s)

/-- ABORT (R498, R509): the collective ends with its cause, unless it has completed; during joining a collector passes it on. -/
def onCollAbort (pkt : Packet) (s : State) : State :=
  let h := pkt.hdr
  let cause := leNat (pkt.data.take 2)
  match packetColl s h with
  | none => (discardPacket s h)
  | some p =>
    if pLevel h = 1 ∧ p.1.phase = 1 then (decide1 s p.2 (pTicket h) (some cause))
    else ((s.colls.filter (fun c => c.ticket == some (pTicket h) && (c.phase == 1 || c.phase == 2))).foldl (fun s c => endColl s c cause) s)

/-- The source that a chunk stands for at this device (R504): a member, a set, or for results the sender's address. -/
def chunkSource (s : State) (E : CollEnv) (c : Coll) (h : Nat) : Option Nat :=
  let n := E.r.size
  let fresh := fun (x : Nat) => !c.seen.contains (pChunk h, pLevel h, x)
  if pLevel h = 0 then
    (((List.range (setCount n)).filter (fun j => holds s E (reducer0 n j (pChunk h)))).flatMap (setMembers n)).find?
      (fun m => addrIs E.r (pSrc h) m && fresh m)
  else if pLevel h = 1 then
    (List.range (setCount n)).find? (fun j => addrIs E.r (pSrc h) (reducer0 n j (pChunk h)) && fresh j)
  else if fresh (pSrc h) then some (pSrc h) else none

/-- A result or broadcast chunk at this member. -/
def takeDown (s : State) (E : CollEnv) (op t chunk : Nat) (p : Payload) : State :=
  if E.d.rdo && !everyMember E.d p then takeResult s E op chunk p else broadcast s E op t chunk p

/-- CHUNK (R503, R504): discarded where it is a duplicate; asked for once more where its CRC fails, and withheld where it
fails again; otherwise acknowledged and reduced, written or passed on. -/
def onChunk (pkt : Packet) (s : State) : State :=
  let h := pkt.hdr
  match packetColl s h with
  | none => (discardPacket s h)
  | some p =>
    let c := p.1
    let E := p.2
    match chunkSource s E c h with
    | none => (s.bump kCollDupCount 1)
    | some src =>
      let key := (pChunk h, pLevel h, src)
      let t := pTicket h
      let answer := fun (s : State) (kind : Nat) => sendPacket s
        { dst := pSrc h, src := s.self, kind := kind, group := pGroup h, epoch := pEpoch h, ticket := t,
          chunk := pChunk h, level := pLevel h } 0 []
      if packetCrc pkt.pre pkt.data ≠ pkt.crc then
        if !c.again.contains key then (answer (s.putColl { c with again := key :: c.again, since := s.time }) 5)
        else
          let s1 := answer ((s.putColl { c with seen := key :: c.seen, since := s.time }).bump kCollChunkFail 1) 4
          let s2 := if pLevel h = 7 then takeDown s1 E c.op t (pChunk h) (.error 0x0404)
            else takePart s1 E c.op t { chunk := pChunk h, level := pLevel h, src := src, bad := 0x0404 }
          (collProgress s2 E c.op)
      else
        let s1 := answer (s.putColl { c with seen := key :: c.seen, since := s.time }) 4
        let s2 :=
          if pLevel h = 7 then
            if c.phase = 1 then
              match s1.coll? c.op with
              | some c1 => s1.putColl { c1 with parts := { chunk := pChunk h, level := 7, src := src, bytes := pkt.data } :: c1.parts }
              | none => s1
            else takeDown s1 E c.op t (pChunk h) (.ok pkt.data)
          else takePart s1 E c.op t { chunk := pChunk h, level := pLevel h, src := src, scale := pkt.pre % 256, bytes := pkt.data }
        (collProgress s2 E c.op)

/-- CHUNK_ACK (R503): the sender releases the chunk. -/
def onChunkAck (pkt : Packet) (s : State) : State :=
  let h := pkt.hdr
  match (s.colls.filter (fun c => epochOk s h && c.ticket == some (pTicket h))).find? (fun c =>
      c.sent.any (fun x => x.dst == pSrc h && x.chunk == pChunk h && x.level == pLevel h)) with
  | none => (discardPacket s h)
  | some c =>
    let s1 := s.putColl { c with since := s.time
                                 sent := c.sent.filter (fun x => !(x.dst == pSrc h && x.chunk == pChunk h && x.level == pLevel h)) }
    match collEnv s c with
    | some E => (collProgress s1 E c.op)
    | none => s1

/-- RESEND (R503): the sender sends the chunk once more. -/
def onResend (pkt : Packet) (s : State) : State :=
  let h := pkt.hdr
  match (s.colls.filter (fun c => epochOk s h && c.ticket == some (pTicket h))).findSome? (fun c =>
      c.sent.find? (fun x => x.dst == pSrc h && x.chunk == pChunk h && x.level == pLevel h)) with
  | none => (discardPacket s h)
  | some x =>
    ((sendPacket s { dst := x.dst, src := s.self, kind := 3, group := pGroup h, epoch := pEpoch h, ticket := pTicket h,
                           chunk := x.chunk, level := x.level } x.scale x.bytes).bump kCollResendCount 1)

/-- WITHHELD (R503): a withheld partial at the level-1 reducer, a withheld chunk at a member. -/
def onWithheld (pkt : Packet) (s : State) : State :=
  let h := pkt.hdr
  match packetColl s h with
  | none => (discardPacket s h)
  | some p =>
    let reason := if pkt.data.length < 2 then 0x0404 else leNat (pkt.data.take 2)
    let s1 := s.putColl { p.1 with since := s.time }
    let s2 :=
      if pLevel h = 7 then takeDown s1 p.2 p.1.op (pTicket h) (pChunk h) (.error reason)
      else match chunkSource s p.2 p.1 h with
        | none => s1
        | some src => takePart s1 p.2 p.1.op (pTicket h) { chunk := pChunk h, level := pLevel h, src := src, bad := reason }
    (collProgress s2 p.2 p.1.op)

/-- TICKET_REQ at the primary manager (R494). -/
def onTicketReq (pkt : Packet) (s : State) : State :=
  let h := pkt.hdr
  match findGroup s (pGroup h) with
  | none => (discardPacket s h)
  | some g =>
    if g.roster.epoch ≠ pEpoch h ∨ !isPrimary s g then (discardPacket s h)
    else (giveTicket s (pSrc h) (pGroup h) (pEpoch h) (leNat (pkt.data.take 4)))

/-- TICKET (R494). -/
def onTicket (pkt : Packet) (s : State) : State :=
  let h := pkt.hdr
  if !epochOk s h then (discardPacket s h)
  else (meetTicket s (pGroup h) (pEpoch h) (pTicket h) (leNat (pkt.data.take 4)) (leNat ((pkt.data.drop 4).take 8)))

/-- A collective starts (R495): its checks are made and JOIN is sent; a stand-in's second op of a ticket follows its first (log 41); one whose group or epoch is not current completes with
0x0403 (R511). -/
def onCollectiveStart (op : Nat) (s : State) : State :=
  match s.op? op with
  | none => s
  | some o =>
    let d := collDesc o.desc
    if o.phase ≠ .placed ∨ !isColl o.opc ∨ s.twin.st = 5 ∨
        s.ops.any (fun e => e.opc == opFNC && e.queue == o.queue && e.ctx == o.ctx && e.phase != .done && decide (e.id < o.id)) then s
    else match findGroup s d.group, s.coll? op with
      | some g, some c =>
        if g.roster.epoch ≠ d.epoch then (endColl s c 0x0403)
        else if g.st ≠ 1 ∨ c.phase ≠ 0 ∨ c.ticket = none ∨ s.startedOf g.roster < c.prior ∨
            64 ≤ (s.colls.filter (fun x => decide (1 ≤ x.phase))).length then s
        else
          let s0 := s.bump kTicketWaitNs (s.time - c.since)
          let s1 := if s.startedOf g.roster = c.prior then noteStarted s0 g.roster else s0
          let c1 := { c with phase := 1, since := s.time, member := if c.member = g.roster.standin then c.member else g.roster.member }
          let s2 := (s1.putOp { o with phase := .started, startedAt := s.time }).putColl c1
          (sendJoin s2 ⟨o.ctx, d, g.roster⟩ c1)
      | _, some c => (endColl s c 0x0403)
      | _, none => (countEnd (finishOp s op 0x0403 0) 0x0403)

/-- A collective's wait expires (R508): the member sends ABORT to its group and completes with 0x0402. -/
def onCollectiveWaitExpiry (op : Nat) (s : State) : State :=
  match s.coll? op with
  | none => s
  | some c =>
    let d := collDesc c.desc
    let t := if d.timeoutUs = 0 then s.obj kCollTimeoutUs else d.timeoutUs
    if c.phase = 3 ∨ !s.expired c.since (t * 1000) then s
    else
      let s1 := match findGroup s d.group with
        | some g => if c.ticket.isSome then abortGroup s c g.roster 0x0402 else s
        | none => s
      let s2 := endColl s1 c 0x0402
      { s2 with late := match c.ticket with
                              | some k => k :: s2.late
                              | none => askKey d.group d.epoch d.gseq :: s2.late }

/-- A remote SIGNAL (R449): it adds where its epoch is current and the word lies in an ACTIVE context's range. -/
def onRemoteSignal (pkt : Packet) (s : State) : State :=
  let w := leNat (pkt.data.take 2)
  if epochOk s pkt.hdr && s.ctxs.any (fun p => p.2.st == .active && sigOwned p.2.record w) then
    (s.signal w (leNat ((pkt.data.drop 2).take 8)))
  else (s.bump kSigRemoteDrop 1)

/-! ## The commands; a device in reset takes none of them (log 2) -/

/-- JOIN at a collector (R498). -/
def execCollJoin (pkt : Packet) (s : State) : Host.Outcome State Fault Refusal := live s (onCollJoin pkt)

/-- GO (R499). -/
def execCollGo (pkt : Packet) (s : State) : Host.Outcome State Fault Refusal := live s (onCollGo pkt)

/-- ABORT (R498, R509). -/
def execCollAbort (pkt : Packet) (s : State) : Host.Outcome State Fault Refusal := live s (onCollAbort pkt)

/-- CHUNK (R503, R504). -/
def execChunk (pkt : Packet) (s : State) : Host.Outcome State Fault Refusal := live s (onChunk pkt)

/-- CHUNK_ACK (R503). -/
def execChunkAck (pkt : Packet) (s : State) : Host.Outcome State Fault Refusal := live s (onChunkAck pkt)

/-- RESEND (R503). -/
def execResend (pkt : Packet) (s : State) : Host.Outcome State Fault Refusal := live s (onResend pkt)

/-- WITHHELD (R503). -/
def execWithheld (pkt : Packet) (s : State) : Host.Outcome State Fault Refusal := live s (onWithheld pkt)

/-- TICKET_REQ at the primary manager (R494). -/
def execTicketReq (pkt : Packet) (s : State) : Host.Outcome State Fault Refusal := live s (onTicketReq pkt)

/-- TICKET (R494). -/
def execTicket (pkt : Packet) (s : State) : Host.Outcome State Fault Refusal := live s (onTicket pkt)

/-- A collective starts (R495). -/
def execCollectiveStart (op : Nat) (s : State) : Host.Outcome State Fault Refusal := live s (onCollectiveStart op)

/-- A collective's wait expires (R508). -/
def execCollectiveWaitExpiry (op : Nat) (s : State) : Host.Outcome State Fault Refusal := live s (onCollectiveWaitExpiry op)

/-- A remote SIGNAL (R449). -/
def execRemoteSignal (pkt : Packet) (s : State) : Host.Outcome State Fault Refusal := live s (onRemoteSignal pkt)

end Sys2Proof.Machine
end

