-- ==== Sys2Proof/Machine/Upd.lean ====
section
/-! DEFINITION. UPD, the optimiser update (R200 to R207). -/

namespace Sys2Proof.Machine

/-- The UPD descriptor (R206). -/
structure UpdDesc where
  ovf : Nat
  rnd : Nat
  algo : Nat
  gFmt : Nat
  m2Fmt : Nat
  m1Fmt : Nat
  pFmt : Nat
  gExp : Int
  elemBase : Nat
  count : Nat
  tag : Nat
  seed : Nat
  clipMax : Nat
  bc2 : Nat
  bc1 : Nat
  wd : Nat
  eps : Nat
  beta2 : Nat
  beta1 : Nat
  lr : Nat
  digest : Nat
  clip : Nat
  g : Nat
  m2 : Nat
  m1 : Nat
  p : Nat
deriving DecidableEq, Repr, Inhabited

def updDesc (x : Nat) : UpdDesc :=
  { ovf := fld x 977 977, rnd := fld x 976 974, algo := fld x 973 972, gFmt := fld x 971 967, m2Fmt := fld x 966 962
    m1Fmt := fld x 961 957, pFmt := fld x 956 952, gExp := toSigned 16 (fld x 951 936), elemBase := fld x 935 896
    count := fld x 895 864, tag := fld x 863 832, seed := fld x 831 768, clipMax := fld x 767 736, bc2 := fld x 735 704
    bc1 := fld x 703 672, wd := fld x 671 640, eps := fld x 639 608, beta2 := fld x 607 576, beta1 := fld x 575 544
    lr := fld x 543 512, digest := fld x 503 448, clip := fld x 439 384, g := fld x 375 320, m2 := fld x 311 256
    m1 := fld x 247 192, p := fld x 183 128 }

def updReservedOk (x : Nat) : Bool :=
  zeroAt x [(1023, 978), (511, 504), (447, 440), (383, 376), (319, 312), (255, 248), (191, 184)]

def updFormatsOk (d : UpdDesc) : Bool :=
  let small (f : Nat) : Bool := decide (f ≤ 1)
  decide (d.rnd ≤ 5) && small d.pFmt && small d.m1Fmt && (d.algo != 0 || small d.m2Fmt) &&
    (decide (d.gFmt ≤ 2) || d.gFmt == fFX128 || d.gFmt == fINT64)

def updRegions (d : UpdDesc) : List (Nat × Nat) :=
  let span (a fmt : Nat) : Nat × Nat := (a, a + d.count * (fmtBits fmt / 8))
  [span d.p d.pFmt, span d.m1 d.m1Fmt, span d.g d.gFmt] ++ (if d.algo = 0 then [span d.m2 d.m2Fmt] else []) ++
    (if d.digest = 0 then [] else [(d.digest, d.digest + 8)])

/-- Whether no two of a list of regions meet. -/
def disjointRegions : List (Nat × Nat) → Bool
  | [] => true
  | r :: rs => !rs.any (overlaps r) && disjointRegions rs

/-- 0x0171 of R207. -/
def updFieldsOk (d : UpdDesc) : Bool :=
  let fin (c : Nat) : Bool := (decodeNum fFP32 c).isFinite
  d.algo != 3 && [d.clipMax, d.bc2, d.bc1, d.wd, d.eps, d.beta2, d.beta1, d.lr].all fin &&
    (d.clip == 0 || Val.lt .zero (decodeNum fFP32 d.clipMax)) &&
    (d.algo == 0 || (d.m2Fmt == 0 && d.m2 == 0 && d.beta2 == 0 && d.bc1 == 0 && d.bc2 == 0 && d.eps == 0))

/-- Checks at issue (R207), in the table's order. -/
def updIssue (E : Env) (x : Nat) : Plan UpdDesc := do
  let d := updDesc x
  Plan.need (updReservedOk x) 0x0104
  Plan.need (updFormatsOk d) 0x0131
  Plan.need ([d.p, d.m1, d.m2, d.g].all (· % 16 == 0) && d.digest % 8 == 0 && d.clip % 4 == 0) 0x0141
  Plan.need (disjointRegions (updRegions d)) 0x0145
  Plan.need ((updRegions d).all (allHbm E)) 0x0146
  Plan.need (updFieldsOk d) 0x0171
  Plan.need (d.count != 0) 0x0310
  pure d

/-- The clip factor c (R203); none when the norm is not finite. -/
def updClip (E : Env) (d : UpdDesc) : Plan (Option Val) := do
  if d.clip = 0 then pure (some .one)
  else
    let n := decodeNum fFP32 (← rdNat E d.clip 4)
    pure (if n.isFinite then some (toExt (Val.min .one (Val.div (decodeNum fFP32 d.clipMax) n))) else none)

/-- The gradient of an element in units of 1 (R202). R202 is silent on the reserved bits [124:96] of an FX128 gradient, where
R48 speaks of tiles: DESIGN CHOICE, they are ignored (log 76). -/
def updGrad (fmt c : Nat) : Val :=
  if fmt = fFX128 then
    Cell.value 0 { c := toSigned 96 c, nan := c.testBit 127, pinf := c.testBit 126, ninf := c.testBit 125 }
  else decodeNum fmt c

/-- What UPD makes of one element: p, m1 and m2 (R201). -/
def updElem (d : UpdDesc) (c g p m1 m2 : Val) : Val × Val × Val :=
  let f (x : Nat) : Val := decodeNum fFP32 x
  let one (x : Nat) : Val := Val.sub 0 .one (f x)
  let g1 := toExt (Val.mul (Val.scale g d.gExp) c)
  let r := if d.algo = 0 then
      let n1 := toExt (Val.add 0 (Val.mul (f d.beta1) m1) (Val.mul (one d.beta1) g1))
      let n2 := toExt (Val.add 0 (Val.mul (f d.beta2) m2) (Val.mul (Val.mul (one d.beta2) g1) g1))
      (n1, n2, toExt (Val.div (Val.mul n1 (f d.bc1)) (Val.add 0 (Val.sqrt (Val.mul n2 (f d.bc2))) (f d.eps))))
    else
      let n1 := toExt (Val.add 0 (Val.mul (f d.beta1) m1) g1)
      (n1, Val.zero, if d.algo = 1 then n1 else toExt (Val.add 0 g1 (Val.mul (f d.beta1) n1)))
  let pn := toExt (Val.sub 0 (Val.mul p (Val.sub 0 .one (Val.mul (f d.lr) (f d.wd)))) (Val.mul (f d.lr) r.2.2))
  (pn, r.1, r.2.1)

/-- `digest_term` of R204. -/
def digestTerm (index b : Nat) : Nat := mix64 ((index * 0x9E3779B97F4A7C15 + b) % 2 ^ 64)

/-- One element: read, updated and written; the code that P then has (R200, R201, R205). -/
def updOne (E : Env) (d : UpdDesc) (c : Option Val) (e : Nat) : Plan Nat := do
  let at' (a fmt : Nat) : Nat := a + e * (fmtBits fmt / 8)
  let pc ← rdNat E (at' d.p d.pFmt) (fmtBits d.pFmt / 8)
  match c with
  | none => pure pc
  | some c => do
    let gc ← rdNat E (at' d.g d.gFmt) (fmtBits d.gFmt / 8)
    let m1c ← rdNat E (at' d.m1 d.m1Fmt) (fmtBits d.m1Fmt / 8)
    let m2c ← if d.algo = 0 then rdNat E (at' d.m2 d.m2Fmt) (fmtBits d.m2Fmt / 8) else pure 0
    let r := updElem d c (updGrad d.gFmt gc) (decodeNum d.pFmt pc) (decodeNum d.m1Fmt m1c) (decodeNum d.m2Fmt m2c)
    let R (k : Nat) : Rnd := { rnd := d.rnd, ovf := d.ovf, seed := d.seed, tag := (d.tag + k) % 2 ^ 32, keepNeg := true }
    let idx := d.elemBase + e
    let pn ← emit (encodeNum d.pFmt (R 0) idx r.1)
    allOrNone (do
      wr E (at' d.p d.pFmt) (leBytes (fmtBits d.pFmt / 8) pn)
      wrVals E (at' d.m1 d.m1Fmt) d.m1Fmt (R 1) idx 0 [r.2.1]
      if d.algo = 0 then wrVals E (at' d.m2 d.m2Fmt) d.m2Fmt (R 2) idx 0 [r.2.2] else pure ())
    Plan.count kUpdElements 1
    if r.1.isNan then Plan.count kUpdNanCount 1
    pure pn

/-- UPD (R200 to R207). -/
def updPlan (E : Env) (x : Nat) : Plan Unit := do
  let d ← updIssue E x
  let c ← updClip E d
  if c.isNone then do Plan.count kUpdSkipCount 1; Plan.code 0x0308
  let sum ← if c.isNone ∧ d.digest = 0 then pure 0
    else (List.range d.count).foldlM (fun s e => do
      let b ← updOne E d c e
      pure ((s + digestTerm (d.elemBase + e) b) % 2 ^ 64)) 0
  if d.digest ≠ 0 then addAt E d.digest fINT64 [some sum] else pure ()

end Sys2Proof.Machine
end

