-- ==== Sys2Proof/Machine/Media.lean ====
section
/-! DEFINITION. MDC and MEN (R379 to R398): descriptors, checks, jobs, the decoding of units with its windows, budget, concealment
and display order, info records, and rate control. The codecs' own syntax and prediction are the standards' and stand as
functions without a body (log 9). -/

namespace Sys2Proof.Machine

/-! ## Free regions -/

/-- Bytes that take free values (log 3), by tier and key. -/
def freeBytes (d : Dp) (ks : List (Nat × Nat)) : Dp :=
  ks.foldl (fun d k => { d with mem := d.mem.setTier k.1 (memSet (d.mem.tier k.1) k.2 (Config.freeByte d.freeCtr).toNat)
                                freeCtr := d.freeCtr + 1 }) d

/-- The bytes of a virtual region that may be written, by tier and key. -/
def regionKeys (E : Env) (va n : Nat) : List (Nat × Nat) :=
  (runsOf va n).flatMap (fun r => match translate E r.1 r.2 true with
    | .ok p => (tierKeys E.d p.tier p.addr r.2).map (fun k => (p.tier, k))
    | .error _ => [])

/-- The first `n` bytes of a list, zeros where it is shorter. -/
def fit (n : Nat) (l : List Nat) : List Nat := (List.range n).map (fun i => l.getD i 0)

def stateBytes : Nat := 65536

/-- Bytes of a sample in a layout (R385). -/
def layoutBytes (layout : Nat) : Nat := if layout = 0 then 1 else 2

/-- Whether a picture fits planes of a pitch within a slot. -/
def planesFit (w h layout pitch chroma size : Nat) : Bool :=
  decide (2 * ceilDiv w 2 * layoutBytes layout ≤ pitch) && decide (h * pitch ≤ chroma) &&
    decide (chroma + ceilDiv h 2 * pitch ≤ size)

/-- Bytes of the smallest picture in 8-bit samples, which a pool must hold (R397). -/
def leastPool : Nat := 64 * 64 * 3 / 2

/-! ## MDC -/

structure MdcDesc where
  tag : Nat
  bsBytes : Nat
  pitch : Nat
  chroma : Nat
  slotBytes : Nat
  refBytes : Nat
  slots : Nat
  codec : Nat
  engine : Nat
  layout : Nat
  flush : Bool
  reset : Bool
  info : Nat
  state : Nat
  ref : Nat
  out : Nat
  bs : Nat
deriving DecidableEq, Repr, Inhabited

def mdcDesc (x : Nat) : MdcDesc :=
  { tag := bits x 1023 960, bsBytes := bits x 959 928, pitch := bits x 927 896, chroma := bits x 895 864
    slotBytes := bits x 863 832, refBytes := bits x 831 800, slots := bits x 799 792, codec := bits x 791 788
    engine := bits x 787 784, layout := bits x 783 782, flush := bit x 781, reset := bit x 780
    info := bits x 439 384, state := bits x 375 320, ref := bits x 311 256, out := bits x 247 192, bs := bits x 183 128 }

def mediaReservedOk (x hi : Nat) : Bool := zeroAt x [(hi, 448), (447, 440), (383, 376), (319, 312), (255, 248), (191, 184)]

/-- Checks of R397, the reserved fields first (R480). -/
def mdcIssue (x : Nat) : Plan MdcDesc := do
  let d := mdcDesc x
  Plan.need (mediaReservedOk x 779) 0x0155
  Plan.need (aligned d.pitch 64 && aligned d.chroma 64 && aligned d.slotBytes 4096 && aligned d.refBytes 4096 &&
    aligned d.info 256 && aligned d.state 4096 && aligned d.ref 4096 && aligned d.out 4096) 0x0141
  Plan.need (disjointRegions [(d.out, d.out + d.slots * d.slotBytes), (d.ref, d.ref + d.refBytes), (d.state, d.state + stateBytes),
    (d.info, d.info + 256 * d.slots), (d.bs, d.bs + d.bsBytes)]) 0x0145
  Plan.need (decide (d.bsBytes ≤ 2 ^ 28) && decide (1 ≤ d.slots) && decide (d.slots ≤ 16) && decide (d.codec ≤ 2) &&
    (decide (d.engine ≤ 7) || d.engine == 15) && decide (d.layout ≤ 1) && (d.bsBytes != 0 || d.flush) &&
    planesFit 64 64 d.layout d.pitch d.chroma d.slotBytes && decide (leastPool ≤ d.refBytes)) 0x0610
  pure d

/-- A sample as a layout stores it (R385). -/
def sampleOut (layout depth v : Nat) : List Nat :=
  if layout = 0 then [if depth = 10 then min 255 ((v + 2) / 4) else v % 256]
  else leBytes 2 (if depth = 10 then v * 64 else v * 256)

/-- Rows of a plane. -/
def planeRows (w h : Nat) (l : List Nat) : List (List Nat) := (List.range h).map (fun r => (List.range w).map (fun i => l.getD (r * w + i) 0))

/-- The info record of a picture in slot `n` (R386). -/
def picInfo (n : Nat) (p : Config.Picture) : Nat :=
  p.tag % 2 ^ 64 * 2 ^ 1984 + p.status % 2 ^ 16 * 2 ^ 1968 + p.width % 2 ^ 16 * 2 ^ 1952 + p.height % 2 ^ 16 * 2 ^ 1936 +
  p.matrix % 2 ^ 8 * 2 ^ 1928 + b2n p.fullRange * 2 ^ 1927 + p.depth % 16 * 2 ^ 1923 + n % 16 * 2 ^ 1919 +
  p.fgBits % 2 ^ 16 * 2 ^ 1903 + p.concealed % 2 ^ 32 * 2 ^ 1856 + (p.fgData * 2 ^ (1280 - p.fgBits)) % 2 ^ 1280

/-- The order of completion codes of R390. -/
def mediaOrder : List Nat := [0x0609, 0x0606, 0x0605, 0x0601, 0x0604, 0x0602, 0x0603, 0x0607, 0x0608]

/-- Counts and codes of pictures that a decode puts out (R390, R398). -/
def countPictures (ps : List Config.Picture) : Plan Unit := do
  Plan.count kVdecPictures ps.length
  Plan.count kVdecConcealCount (ps.filter (fun p => p.concealed != 0)).length

/-! ## What the engines support (R379, R380) -/

/-- Profiles and levels of R379 by the numbers that the standards' syntax gives them (log 84): HEVC Main and Main 10 up to level
6.2, AV1 Main up to 6.3, H.264 High, Main and Constrained Baseline up to 6.2. -/
def profileOk (codec : Nat) (h : Config.PicHead) : Bool :=
  match codec with
  | 0 => (h.profile == 1 && !h.ten || h.profile == 2) && decide (h.level ≤ 186)
  | 1 => h.profile == 0 && decide (h.level ≤ 19)
  | _ => (h.profile == 100 || h.profile == 77 || (h.profile == 66 && h.baseline)) && decide (h.level ≤ 62) && !h.ten

/-- Sizes of R379. -/
def sizeOk (w h : Nat) : Bool :=
  decide (64 ≤ w) && decide (w ≤ 8192) && decide (64 ≤ h) && decide (h ≤ 8192) && decide (w * h ≤ 35651584)

def supported (codec : Nat) (h : Config.PicHead) : Bool :=
  profileOk codec h && sizeOk h.width h.height && h.chromaFormat == 1 && !h.fields && decide (h.layers ≤ 1)

/-! ## Jobs (R382) -/

structure Job where
  dataAddr : Nat
  dataBytes : Nat
  firstCtb : Nat
  ctbCount : Nat
  picId : Nat
  paramOff : Nat
  kind : Nat
deriving DecidableEq, Repr, Inhabited

/-- The 64 bytes of a job as a number. -/
def jobWord (j : Job) : Nat :=
  j.dataAddr % 2 ^ 56 * 2 ^ 448 + j.dataBytes % 2 ^ 32 * 2 ^ 416 + j.firstCtb % 2 ^ 16 * 2 ^ 400 + j.ctbCount % 2 ^ 16 * 2 ^ 384 +
  j.picId % 2 ^ 16 * 2 ^ 368 + j.paramOff % 2 ^ 16 * 2 ^ 352 + j.kind % 16 * 2 ^ 348

def jobOf (w : Nat) : Job :=
  { dataAddr := bits w 503 448, dataBytes := bits w 447 416, firstCtb := bits w 415 400, ctbCount := bits w 399 384
    picId := bits w 383 368, paramOff := bits w 367 352, kind := bits w 351 348 }

/-- Whether the hardware accepts a job: its data lies within the bitstream window of `n` bytes from `bs`. -/
def jobInWindow (bs n : Nat) (j : Job) : Bool :=
  j.dataBytes == 0 || (decide (bs ≤ j.dataAddr) && decide (j.dataAddr + j.dataBytes ≤ bs + n))

/-- Jobs that an engine's hardware queue holds. -/
def jobQueueDepth : Nat := 32

/-- The media core writes jobs into its engine's queue, and the hardware carries them out in order: the oldest is completed when
the queue is full. -/
def runQueue {α : Type} (run : α → Nat → α) : List Nat → List Nat → α → α
  | q, [], a => q.foldl run a
  | [], j :: js, a => runQueue run [j] js a
  | o :: q, j :: js, a =>
    if q.length + 1 < jobQueueDepth then runQueue run (o :: q ++ [j]) js a else runQueue run (q ++ [j]) js (run a o)

/-! ## One picture (R381, R385 to R389) -/

/-- Where a unit is decoded: codec, the unit's window, the reference pool, the windows that a write must lie in (R388), the budget
factor, whether a cropped picture fits its output, and the tag of the unit. -/
structure DecodeAt where
  codec : Nat
  bs : Nat
  bytes : Nat
  ref : Nat
  refBytes : Nat
  windows : List (Nat × Nat)
  factor : Nat
  fits : Nat → Nat → Bool
  tag : Nat

/-- A write that the hardware checks against the windows: one outside all of them is dropped and counted (R388). -/
def windowWr (E : Env) (W : DecodeAt) (va : Nat) (bs : List Nat) : Plan Unit := do
  if W.windows.any (fun w => decide (w.1 ≤ va) && decide (va + bs.length ≤ w.2)) then wr E va bs
  else do
    Plan.count kVdecWindowCount 1
    Plan.code 0x0606

/-- Bytes of a picture of coded size in the reference pool, whose layout R383 leaves to the device (log 84). -/
def poolBytes (w h : Nat) (ten : Bool) : Nat := (w * h + 2 * ceilDiv w 2 * ceilDiv h 2) * (if ten then 2 else 1)

def planesBytes (ten : Bool) (p : Config.Planes) : List Nat := (p.luma ++ p.chroma).flatMap (leBytes (if ten then 2 else 1))

def planesOf (w h : Nat) (ten : Bool) (bs : List Nat) : Config.Planes :=
  let n := if ten then 2 else 1
  let at_ := fun (i : Nat) => leNat ((bs.drop (n * i)).take n)
  { luma := (List.range (w * h)).map at_
    chroma := (List.range (2 * ceilDiv w 2 * ceilDiv h 2)).map (fun i => at_ (w * h + i)) }

/-- Samples of pictures decoded in this op, by slot. -/
abbrev Fresh : Type := List (Nat × Config.Planes)

/-- The samples of a decoded picture: those that this op has just made, or what the reference pool holds. -/
def rdRef (E : Env) (ref : Nat) (fresh : Fresh) (r : RefPic) : Plan Config.Planes := do
  match fresh.find? (fun f => f.1 == r.slot) with
  | some f => pure f.2
  | none => do
    let n := poolBytes r.width r.height r.ten
    pure (planesOf r.width r.height r.ten (← rd E (ref + r.slot * n) n))

/-- The lowest slot of the pool that no picture still needed holds. -/
def freeSlot (dpb : List RefPic) (needed : List Nat) : Nat :=
  let used := (dpb.filter (fun r => needed.contains r.name)).map (·.slot)
  ((List.range (used.length + 1)).find? (fun k => !used.contains k)).getD 0

/-- What the hardware has done of a picture: blocks decoded, units of work spent, first bytes and block ranges of rejected jobs,
whether a syntax error or the budget stopped a slice, and blocks that predict from a bad reference. -/
structure PicWork where
  blocks : List Config.Block := []
  used : Nat := 0
  rejected : List (Nat × Nat × Nat) := []
  broken : Bool := false
  ended : Bool := false
  badRef : List Nat := []

/-- Units of R389 that a block takes: four 4 × 4 luma blocks and its bins. -/
def blockUnits (b : Config.Block) : Nat := 4 + b.bins

/-- Takes the blocks of a slice while the budget lasts, which is in sixteenths of a unit. -/
def takeBlocks (budget16 : Nat) (bad : List Nat) (w : PicWork) (b : Config.Block) : PicWork :=
  if w.ended ∨ budget16 < 16 * (w.used + blockUnits b) then { w with ended := true }
  else if b.refs.any bad.contains then { w with used := w.used + blockUnits b, badRef := b.index :: w.badRef }
  else { w with used := w.used + blockUnits b, blocks := b :: w.blocks }

/-- The hardware carries out a job (R382, R387): `bad` names references that are missing or concealed. -/
def runJob (W : DecodeAt) (h : Config.PicHead) (unit : List Nat) (st : List Nat) (refs : List (Nat × Config.Planes)) (bad : List Nat)
    (budget16 : Nat) (w : PicWork) (word : Nat) : PicWork :=
  let j := jobOf word
  if j.kind = 3 then w
  else if !jobInWindow W.bs W.bytes j then { w with rejected := w.rejected ++ [(j.dataAddr, j.firstCtb, j.ctbCount)] }
  else
    let r := Config.decodeSlice W.codec (st.drop (64 * j.paramOff)) (h.width, h.height)
      ((unit.drop (j.dataAddr - W.bs)).take j.dataBytes) (j.firstCtb, j.ctbCount) refs
    let w1 := r.blocks.foldl (takeBlocks budget16 bad) w
    { w1 with broken := w1.broken || r.broken }

/-- The jobs that the media core writes for a picture, the end of the picture last; `KIND` 1 is an AV1 tile. -/
def picJobs (W : DecodeAt) (h : Config.PicHead) (slot : Nat) : List Job :=
  h.slices.map (fun x => { dataAddr := W.bs + x.offset, dataBytes := x.bytes, firstCtb := x.first, ctbCount := x.count
                           picId := slot, paramOff := x.param, kind := if W.codec = 1 then 1 else 0 }) ++
    [{ dataAddr := W.bs, dataBytes := 0, firstCtb := 0, ctbCount := 0, picId := slot, paramOff := 0, kind := 3 }]

/-- The budget of a picture in sixteenths of a unit (R389). -/
def budget16 (W : DecodeAt) (h : Config.PicHead) : Nat :=
  W.factor * (h.width * h.height + 128 * (h.slices.map (·.bytes)).sum)

/-- Whether a block stands in a rejected job. -/
def inRejected (h : Config.PicHead) (w : PicWork) (i : Nat) : Bool :=
  let bw := ceilDiv h.width 8
  let c := max 1 h.ctb
  let n := i / bw * 8 / c * ceilDiv h.width c + i % bw * 8 / c
  w.rejected.any (fun r => decide (r.2.1 ≤ n) && decide (n < r.2.1 + r.2.2))

def decodedBlk (w : PicWork) (i : Nat) : Option Config.Block := w.blocks.find? (fun b => b.index == i)

/-- Blocks that are concealed: those neither decoded nor in a rejected job (R387). -/
def concealedBlks (h : Config.PicHead) (w : PicWork) : List Nat :=
  (List.range (ceilDiv h.width 8 * ceilDiv h.height 8)).filter (fun i => (decodedBlk w i).isNone && !inRejected h w i)

/-- The reference that is nearest in display order, the earlier one of two (R387). -/
def nearest (order : Int) (refs : List (RefPic × Config.Planes)) : Option (RefPic × Config.Planes) :=
  refs.foldl (fun b r => match b with
    | none => some r
    | some x =>
      let d := (r.1.order - order).natAbs
      let e := (x.1.order - order).natAbs
      if d < e ∨ (d = e ∧ r.1.order < x.1.order) then some r else b) none

/-- A picture out of its blocks: a decoded block is filtered; a concealed one is copied from the nearest reference, or mid-grey;
one of a rejected job keeps what the pool held. -/
def assemble (W : DecodeAt) (h : Config.PicHead) (st : List Nat) (w : PicWork) (near : Option Config.Planes) (old : Config.Planes) : Config.Planes :=
  let bw := ceilDiv h.width 8
  let cw := 2 * ceilDiv h.width 2
  let grey := if h.ten then 512 else 128
  let other := fun (i n : Nat) (plane : Config.Planes → List Nat) =>
    if inRejected h w i then (plane old).getD n 0
    else match near with
      | some p => (plane p).getD n grey
      | none => grey
  let luma := fun (done : Option Config.Planes) => (List.range (h.width * h.height)).map (fun n =>
    let x := n % h.width
    let y := n / h.width
    let i := y / 8 * bw + x / 8
    match decodedBlk w i, done with
    | some b, none => b.luma.getD (y % 8 * 8 + x % 8) 0
    | some _, some p => p.luma.getD n 0
    | none, _ => other i n (·.luma))
  let chroma := fun (done : Option Config.Planes) => (List.range (cw * ceilDiv h.height 2)).map (fun n =>
    let x := n % cw
    let y := n / cw
    let i := y / 4 * bw + x / 8
    match decodedBlk w i, done with
    | some b, none => b.chroma.getD (y % 4 * 8 + x % 8) 0
    | some _, some p => p.chroma.getD n 0
    | none, _ => other i n (·.chroma))
  let done := Config.loopFilter W.codec (st.drop (64 * h.params)) h.width h.height ⟨luma none, chroma none⟩
  ⟨luma (some done), chroma (some done)⟩

/-- The codes that a decoded picture carries, in the order of R390; 0 for none. -/
def picStatus (h : Config.PicHead) (w : PicWork) : Nat :=
  let undecoded := (concealedBlks h w).any (fun i => !w.badRef.contains i)
  firstCode mediaOrder ((if w.rejected = [] then [] else [0x0606]) ++ (if w.ended then [0x0604] else []) ++
    (if w.broken ∨ (undecoded ∧ !w.ended) then [0x0602] else []) ++ (if w.badRef = [] then [] else [0x0603]))

/-- The cropped picture that is put out (R385, R386). -/
def picOut (W : DecodeAt) (h : Config.PicHead) (status concealed : Nat) (p : Config.Planes) : Config.Picture :=
  let cw := 2 * ceilDiv h.width 2
  let ow := 2 * ceilDiv h.cropW 2
  { tag := W.tag, status := status, width := h.cropW, height := h.cropH, matrix := h.matrix.getD 2, fullRange := h.fullRange
    depth := if h.ten then 10 else 8, concealed := concealed, fgBits := h.fgBits, fgData := h.fgData
    luma := (List.range (h.cropW * h.cropH)).map (fun n => p.luma.getD ((h.cropY + n / h.cropW) * h.width + h.cropX + n % h.cropW) 0)
    chroma := (List.range (ow * ceilDiv h.cropH 2)).map (fun n =>
      p.chroma.getD ((h.cropY / 2 + n / ow) * cw + h.cropX / 2 * 2 + n % ow) 0) }

/-! ## One unit (R383, R385, R387) -/

/-- The working of a decode: decoded pictures, pictures that wait, pictures put out, and samples made in this op. -/
structure Decode where
  dpb : List RefPic := []
  waiting : List (Int × Config.Picture) := []
  out : List Config.Picture := []
  fresh : Fresh := []

/-- Pictures leave in display order until no more than `hold` wait (R385). -/
def Decode.release (D : Decode) (hold : Nat) : Decode :=
  let l := D.waiting.insertionSort (fun a b => a.1 ≤ b.1)
  { D with waiting := l.drop (l.length - hold), out := D.out ++ (l.take (l.length - hold)).map (·.2) }

/-- A shown picture joins those that wait. -/
def Decode.show (D : Decode) (h : Config.PicHead) (p : Config.Picture) : Decode :=
  ({ D with waiting := D.waiting ++ [(h.order, p)] } : Decode).release h.hold

/-- Decodes one picture (R381, R387 to R389). -/
def decodePicture (E : Env) (W : DecodeAt) (unit st : List Nat) (D : Decode) (h : Config.PicHead) : Plan Decode := do
  let D0 := if h.flushFirst then D.release 0 else D
  match h.again with
  | some name =>
    match D0.dpb.find? (fun r => r.name == name) with
    | none => do
      Plan.code 0x0603
      pure D0
    | some r => do
      let p ← rdRef E W.ref D0.fresh r
      if r.bad then Plan.code 0x0603
      pure (D0.show h (picOut W h (if r.bad then 0x0603 else 0) 0 p))
  | none => do
    let refs := D0.dpb.filter (fun r => h.refs.contains r.name)
    let bad := h.refs.filter (fun n => !refs.any (fun r => r.name == n && !r.bad))
    let planes ← refs.mapM (fun r => do pure (r, ← rdRef E W.ref D0.fresh r))
    let slot := freeSlot D0.dpb (h.refs ++ h.keep)
    let n := poolBytes h.width h.height h.ten
    let w := runQueue (runJob W h unit st (planes.map (fun p => (p.1.name, p.2))) bad (budget16 W h)) []
      ((picJobs W h slot).map jobWord) {}
    let old ← if w.rejected = [] then pure ⟨[], []⟩ else do pure (planesOf h.width h.height h.ten (← rd E (W.ref + slot * n) n))
    let p := assemble W h st w ((nearest h.order planes).map (·.2)) old
    let hidden := concealedBlks h w
    let status := picStatus h w
    windowWr E W (W.ref + slot * n) (planesBytes h.ten p)
    if status ≠ 0 then Plan.code status
    match w.rejected with
    | [] => pure ()
    | r :: _ => do
      Plan.count kVdecWindowCount w.rejected.length
      Plan.event { source := 0x7001, code := 0x0606, sev := 1, ctx := E.ctx, data := dataAt 584 (r.1 % 2 ^ 56) }
    let me : RefPic := { name := h.name, slot := slot, order := h.order, width := h.width, height := h.height, ten := h.ten
                         bad := hidden != [] }
    let D1 : Decode := { D0 with
      dpb := D0.dpb.filter (fun r => h.keep.contains r.name && r.name != h.name) ++ (if h.keep.contains h.name then [me] else [])
      fresh := (slot, p) :: D0.fresh.filter (fun f => f.1 != slot) }
    pure (if h.shown then D1.show h (picOut W h status hidden.length p) else D1)

/-- Whether the pool and the output hold every picture of a unit, decoded one after another (R387, code 0x0605). -/
def unitFits (W : DecodeAt) : List RefPic → List Config.PicHead → Bool
  | _, [] => true
  | dpb, h :: hs =>
    let slot := freeSlot dpb (h.refs ++ h.keep)
    let me : RefPic := { name := h.name, slot := slot, order := h.order, width := h.width, height := h.height, ten := h.ten, bad := false }
    let next := dpb.filter (fun r => h.keep.contains r.name && r.name != h.name) ++ (if h.keep.contains h.name then [me] else [])
    (!h.shown || W.fits h.cropW h.cropH) && (h.again.isSome || decide ((slot + 1) * poolBytes h.width h.height h.ten ≤ W.refBytes)) &&
      unitFits W (if h.again.isSome then dpb else next) hs

/-- Decodes one unit: no picture of it where the stream is unsupported or a picture does not fit (R387). Bytes past its end read
as zero (R388). The second part is the state block's new contents. -/
def decodeUnit (E : Env) (W : DecodeAt) (st unit : List Nat) (D : Decode) : Plan (Decode × List Nat) := do
  let P := Config.parseUnit W.codec st (fun i => unit.getD i 0) unit.length
  if !P.pictures.all (supported W.codec) then do
    Plan.code 0x0601
    Plan.count kVdecUnsupportedCount 1
    pure (D, P.state)
  else if !unitFits W D.dpb P.pictures then do
    Plan.code 0x0605
    pure (D, P.state)
  else do
    let before ← get
    let D1 ← P.pictures.foldlM (decodePicture E W unit P.state) D
    let after ← get
    Plan.count kVdecBudgetCount (b2n ((after.codes.take (after.codes.length - before.codes.length)).contains 0x0604))
    pure (D1, P.state)

/-! ## MDC, as a whole -/

/-- The state block that an op starts from (R383, R384): initialised, or read and checked against its CRC, with what happens
before an op whose block fails ends. -/
def rdState (E : Env) (reset : Bool) (codec : Nat) (enc : Bool) (va : Nat) (blk : Option MediaBlk) (failed : Plan Unit) : Plan (List Nat) := do
  if reset then pure (fit stateBytes (Config.mediaInit codec enc))
  else
    let bs ← rd E va stateBytes
    if blk.any (fun b => b.crc == crc64 bs) then pure bs
    else do
      Plan.count kMediaStateFailCount 1
      failed
      Plan.stop 0x0609

def mdcAt (E : Env) (d : MdcDesc) : DecodeAt :=
  { codec := d.codec, bs := d.bs, bytes := d.bsBytes, ref := d.ref, refBytes := d.refBytes
    windows := [(d.out, d.out + d.slots * d.slotBytes), (d.ref, d.ref + d.refBytes), (d.state, d.state + stateBytes),
      (d.info, d.info + 256 * d.slots)]
    factor := objGet E.d kVdecBudgetFactor, fits := fun w h => planesFit w h d.layout d.pitch d.chroma d.slotBytes, tag := d.tag }

/-- Writes a picture into a slot. -/
def wrPicture (E : Env) (W : DecodeAt) (d : MdcDesc) (n : Nat) (p : Config.Picture) : Plan Unit := do
  let base := d.out + n * d.slotBytes
  let put := fun (a : Nat) (rows : List (List Nat)) =>
    ((List.range rows.length).zip rows).forM (fun r => windowWr E W (a + r.1 * d.pitch) (r.2.flatMap (sampleOut d.layout p.depth)))
  put base (planeRows p.width p.height p.luma)
  put (base + d.chroma) (planeRows (2 * ceilDiv p.width 2) (ceilDiv p.height 2) p.chroma)

/-- The working of an MDC (R383 to R390): what the stream keeps afterwards. A held picture that no longer fits its slot is lost
with 0x0605. -/
def mdcPlan (E : Env) (x : Nat) (blk : Option MediaBlk) : Plan MediaBlk := do
  let d ← mdcIssue x
  let W := mdcAt E d
  let st ← rdState E d.reset d.codec false d.state blk (pure ())
  let old : MediaBlk := if d.reset then {} else blk.getD {}
  let start : Decode := { dpb := old.dpb, waiting := old.waiting }
  let r ← (if d.bsBytes = 0 then pure (start, st) else do
    let unit ← rd E d.bs d.bsBytes
    decodeUnit E W st unit start)
  let D := if d.flush then r.1.release 0 else r.1
  let ps := (old.held ++ D.out).filter (fun p => W.fits p.width p.height)
  if ps.length < (old.held ++ D.out).length then Plan.code 0x0605
  let out := ps.take d.slots
  ((List.range out.length).zip out).forM (fun p => do
    wrPicture E W d p.1 p.2
    windowWr E W (d.info + 256 * p.1) (leBytes 256 (picInfo p.1 p.2)))
  countPictures out
  Plan.setInfo out.length
  let new := fit stateBytes r.2
  allOrNone (windowWr E W d.state new)
  pure { crc := crc64 new, dpb := D.dpb, waiting := D.waiting, held := ps.drop d.slots }

/-! ## MEN -/

structure MenDesc where
  tag : Nat
  pitch : Nat
  chroma : Nat
  bsCap : Nat
  frameCap : Nat
  winCap : Nat
  vbv : Nat
  fill : Nat
  width : Nat
  height : Nat
  qp : Nat
  qpMax : Nat
  winFrames : Nat
  codec : Nat
  engine : Nat
  layout : Nat
  gop : Nat
  forceKey : Bool
  reset : Bool
  flush : Bool
  keyInt : Nat
  refBytes : Nat
  info : Nat
  state : Nat
  ref : Nat
  bs : Nat
  inp : Nat
deriving DecidableEq, Repr, Inhabited

def menDesc (x : Nat) : MenDesc :=
  { tag := bits x 1023 960, pitch := bits x 959 928, chroma := bits x 927 896, bsCap := bits x 895 864
    frameCap := bits x 863 832, winCap := bits x 831 800, vbv := bits x 799 768, fill := bits x 767 736
    width := bits x 735 720, height := bits x 719 704, qp := bits x 703 696, qpMax := bits x 695 688
    winFrames := bits x 687 680, codec := bits x 679 676, engine := bits x 675 672, layout := bits x 671 670
    gop := bits x 669 668, forceKey := bit x 667, reset := bit x 666, flush := bit x 665, keyInt := bits x 664 649
    refBytes := bits x 648 617, info := bits x 439 384, state := bits x 375 320, ref := bits x 311 256
    bs := bits x 247 192, inp := bits x 183 128 }

/-- Bytes from `IN_ADDR` to the end of the input frame's last row. -/
def inputBytes (d : MenDesc) : Nat :=
  max ((d.height - 1) * d.pitch) (d.chroma + (d.height / 2 - 1) * d.pitch) + d.width * layoutBytes d.layout

/-- Checks of R397. -/
def menIssue (x : Nat) : Plan MenDesc := do
  let d := menDesc x
  let qTop := if d.codec = 0 then 51 else 255
  let dim (n : Nat) : Bool := decide (64 ≤ n) && decide (n ≤ 8192) && n % 8 == 0
  Plan.need (mediaReservedOk x 616) 0x0155
  Plan.need (aligned d.pitch 64 && aligned d.chroma 64 && aligned d.refBytes 4096 && aligned d.info 128 &&
    aligned d.state 4096 && aligned d.ref 4096) 0x0141
  Plan.need (disjointRegions ([(d.bs, d.bs + d.bsCap), (d.ref, d.ref + d.refBytes), (d.state, d.state + stateBytes),
    (d.info, d.info + 128)] ++ if d.flush then [] else [(d.inp, d.inp + inputBytes d)])) 0x0145
  Plan.need (dim d.width && dim d.height && decide (d.width * d.height ≤ 35651584) && decide (d.qp ≤ qTop) &&
    decide (d.qp ≤ d.qpMax) && decide (d.qpMax ≤ qTop) && (d.winCap == 0 || d.winFrames != 0) && decide (d.codec ≤ 1) && (decide (d.engine ≤ 3) || d.engine == 15) &&
    decide (d.layout ≤ 1) && d.gop != 3 && decide (leastPool ≤ d.refBytes)) 0x0610
  pure d

/-- What the encoder carries from frame to frame: the state block's contents, bits of the latest frames, buffer fullness, the
decoded frames that serve as references, and their samples. -/
structure EncState where
  state : List Nat
  prev : List Nat
  vbv : Int
  dpb : List RefPic
  fresh : Fresh

/-- A coded frame: tag, bytes, q, re-encodes, forced. -/
structure Coded where
  tag : Nat
  bytes : List Nat
  q : Nat
  again : Nat
  forced : Bool
deriving DecidableEq, Repr, Inhabited

/-- A frame to code: tag, place in display order, samples, whether it is a key frame, and its level in a group of B frames. -/
structure EncFrame where
  tag : Nat
  order : Nat
  samples : Config.Planes
  key : Bool
  level : Nat
deriving DecidableEq, Repr, Inhabited

def fullness (d : MenDesc) (vbv : Int) : Int := min (d.vbv : Int) (vbv + d.fill)

/-- The allowance of R392; none where nothing caps the frame. -/
def allowance (d : MenDesc) (e : EncState) : Option Int :=
  let caps : List Int := (if d.frameCap = 0 then [] else [(d.frameCap : Int)]) ++
    (if d.winCap = 0 then [] else [(d.winCap : Int) - (e.prev.take (d.winFrames - 1)).sum]) ++
    (if d.vbv = 0 then [] else [fullness d e.vbv])
  match caps with
  | [] => none
  | a :: l => some (l.foldl min a)

def overCap (a : Option Int) (n : Nat) : Bool := match a with | some v => decide (v < n) | none => false

/-- The next q of R393 step 2: min(`QP_MAX`, q + ceil(k·log2(bits/A))). -/
def nextQ (d : MenDesc) (q n : Nat) (a : Option Int) : Nat :=
  let k := if d.codec = 0 then 6 else 24
  let step := match a with
    | none => 0
    | some v => if v ≤ 0 then Config.encodeStep n v else clog2 (ceilDiv (n ^ k) (v.toNat ^ k))
  min d.qpMax (q + step)

/-- How a frame is coded: 0 intra, 1 P, 2 B (R391). -/
def frameKind (d : MenDesc) (f : EncFrame) : Nat := if f.key ∨ d.gop = 0 then 0 else if f.level = 0 then 1 else 2

/-- The references of a frame's two lists, nearest first: up to two frames before it and, for a B frame, up to two after it in
HEVC; up to three in all in AV1 (R391, log 85). -/
def frameRefs (d : MenDesc) (e : EncState) (f : EncFrame) : List RefPic × List RefPic :=
  let before := (e.dpb.filter (fun r => decide (r.order < (f.order : Int)))).insertionSort (fun a b => b.order ≤ a.order)
  let after := (e.dpb.filter (fun r => decide ((f.order : Int) < r.order))).insertionSort (fun a b => a.order ≤ b.order)
  match frameKind d f with
  | 0 => ([], [])
  | 1 => (before.take (if d.codec = 0 then 2 else 3), [])
  | _ => (before.take 2, after.take (if d.codec = 0 then 2 else 1))

def samplesOf (e : EncState) (r : RefPic) : Config.Planes := ((e.fresh.find? (fun p => p.1 == r.slot)).map (·.2)).getD ⟨[], []⟩

/-- 64 × 64 blocks of a frame. -/
def frameBlocks (d : MenDesc) : Nat := ceilDiv d.width 64 * ceilDiv d.height 64

/-- One pass of a frame at a q: its blocks and its access unit. A forced frame's blocks are all skipped, or in an intra frame all
DC predicted with no residual (R393). What the encoder sees is named here: no engine, tag or cap among it (R394). -/
def encodePass (d : MenDesc) (e : EncState) (f : EncFrame) (q : Nat) (forced : Bool) : Config.EncHead × List Config.EncBlock × List Nat :=
  let refs := frameRefs d e f
  let dist := fun (l : List RefPic) => l.map (fun r => r.order - (f.order : Int))
  let h : Config.EncHead := { codec := d.codec, kind := frameKind d f, q := q, width := d.width, height := d.height, ten := d.layout == 1
                              refs0 := dist refs.1, refs1 := dist refs.2 }
  let bs := if forced then List.replicate (frameBlocks d) (if frameKind d f = 0 then Config.EncBlock.dc else .skip)
    else (fit0 (frameBlocks d) (Config.encodeBlocks h e.state f.samples (refs.1.map (samplesOf e)) (refs.2.map (samplesOf e)))).map .coded
  (h, bs, Config.writeUnit h e.state bs)
where
  /-- The choices for the frame's blocks, nothing for one that has none. -/
  fit0 (n : Nat) (l : List (List Nat)) : List (List Nat) := (List.range n).map (fun i => l.getD i [])

/-- Frames that the reference pool holds, four at most (log 85). -/
def encSlots (d : MenDesc) : Nat := min 4 (d.refBytes / poolBytes d.width d.height (d.layout == 1))

/-- The references after a frame: a key frame starts afresh, a frame of the lowest level is none itself, and the oldest leaves
first. -/
def keepFrame (d : MenDesc) (e : EncState) (f : EncFrame) (p : Config.Planes) : List RefPic × Fresh :=
  let dpb := if f.key then [] else e.dpb
  if f.level = 2 ∨ encSlots d = 0 then (dpb, e.fresh)
  else
    let kept := (dpb.insertionSort (fun a b => b.order ≤ a.order)).take (encSlots d - 1)
    let slot := freeSlot kept (kept.map (·.name))
    (kept ++ [{ name := f.order, slot := slot, order := f.order, width := d.width, height := d.height, ten := d.layout == 1, bad := false }],
     (slot, p) :: e.fresh.filter (fun x => x.1 != slot))

/-- Codes one frame (R393). -/
def encodeOne (d : MenDesc) (e : EncState) (f : EncFrame) : Coded × EncState :=
  let a := allowance d e
  let q1 := d.qp + (if d.codec = 0 then f.level else 8 * f.level)
  let p1 := encodePass d e f q1 false
  let r : Coded × Config.EncHead × List Config.EncBlock :=
    if !overCap a (8 * p1.2.2.length) then (⟨f.tag, p1.2.2, q1, 0, false⟩, p1.1, p1.2.1)
    else
      let q2 := nextQ d q1 (8 * p1.2.2.length) a
      let p2 := encodePass d e f q2 false
      if !overCap a (8 * p2.2.2.length) then (⟨f.tag, p2.2.2, q2, 1, false⟩, p2.1, p2.2.1)
      else
        let q3 := nextQ d q2 (8 * p2.2.2.length) a
        let p3 := encodePass d e f q3 false
        if !overCap a (8 * p3.2.2.length) then (⟨f.tag, p3.2.2, q3, 2, false⟩, p3.1, p3.2.1)
        else
          let q4 := if frameKind d f = 0 then d.qpMax else q3
          let p4 := encodePass d e f q4 true
          (⟨f.tag, p4.2.2, q4, 2, true⟩, p4.1, p4.2.1)
  let refs := frameRefs d e f
  let made := Config.reconFrame r.2.1 r.2.2 (refs.1.map (samplesOf e)) (refs.2.map (samplesOf e))
  let k := keepFrame d e f made
  (r.1, { state := Config.encodeState d.codec e.state r.1.bytes, prev := ((8 * r.1.bytes.length) :: e.prev).take 255
          vbv := if d.vbv = 0 then e.vbv else fullness d e.vbv - (8 * r.1.bytes.length : Nat), dpb := k.1, fresh := k.2 })

/-- The frames that an op codes, in decode order, and the frames it holds (R391, log 37). -/
def frameOrder (gop : Nat) (held : List EncFrame) (new : Option EncFrame) : List EncFrame × List EncFrame :=
  match new with
  | none => (held, [])
  | some f =>
    if f.key then (held ++ [f], [])
    else if gop = 2 then
      match held with
      | [a, b, c] => ([f, { b with level := 1 }, { a with level := 2 }, { c with level := 2 }], [])
      | _ => ([], held ++ [f])
    else (held ++ [f], [])

/-- An entry of the info record (R396). -/
def auEntry (i : Nat) (c : Coded) : Nat :=
  (c.tag % 2 ^ 64 + c.bytes.length % 2 ^ 32 * 2 ^ 64 + c.q % 256 * 2 ^ 96 + c.again % 4 * 2 ^ 104 + b2n c.forced * 2 ^ 106) * 2 ^ (192 * i)

def menInfo (status : Nat) (cs : List Coded) (vbv : Int) : Nat :=
  status % 2 ^ 16 * 2 ^ 1008 + cs.length % 8 * 2 ^ 1005 + ofSigned 32 vbv * 2 ^ 960 +
    (((List.range cs.length).zip cs).map (fun p => auEntry p.1 p.2)).sum

/-- The samples of rows as a layout stores them (R385). -/
def inputSamples (layout : Nat) (bs : List Nat) : List Nat :=
  if layout = 0 then bs else (List.range (bs.length / 2)).map (fun i => leNat ((bs.drop (2 * i)).take 2) / 64)

/-- The frame that an MEN reads. -/
def rdFrame (E : Env) (d : MenDesc) : Plan Config.Planes := do
  let eb := layoutBytes d.layout
  let ys ← (List.range d.height).mapM (fun r => rd E (d.inp + r * d.pitch) (d.width * eb))
  let cs ← (List.range (d.height / 2)).mapM (fun r => rd E (d.inp + d.chroma + r * d.pitch) (d.width * eb))
  pure ⟨inputSamples d.layout ys.flatten, inputSamples d.layout cs.flatten⟩

/-- A held frame, as a frame to code: the held ones are the latest that were taken in. -/
def heldFrames (b : MediaBlk) : List EncFrame :=
  ((List.range b.frames.length).zip b.frames).map (fun p =>
    { tag := p.2.1, order := b.taken - b.frames.length + p.1, samples := p.2.2, key := false, level := 0 })

/-- F_prev that a stream has kept (R392, R396). -/
def keptVbv (d : MenDesc) (blk : Option MediaBlk) : Int := ((blk.getD {}).vbv).getD d.vbv

/-- The working of an MEN (R391 to R396): what the stream keeps afterwards. -/
def menPlan (E : Env) (x : Nat) (blk : Option MediaBlk) : Plan MediaBlk := do
  let d ← menIssue x
  let st ← rdState E d.reset d.codec true d.state blk (wr E d.info (leBytes 128 (menInfo 0x0609 [] (keptVbv d blk))))
  let old : MediaBlk := if d.reset then {} else blk.getD {}
  let key := !d.flush && (d.forceKey || (match old.sinceKey with
    | none => true
    | some k => d.keyInt != 0 && decide (d.keyInt ≤ k + 1)))
  let new ← if d.flush then pure none else do
    pure (some ({ tag := d.tag, order := old.taken, samples := ← rdFrame E d, key := key, level := 0 } : EncFrame))
  let refs ← old.dpb.mapM (fun r => do pure (r.slot, ← rdRef E d.ref [] r))
  let o := frameOrder d.gop (heldFrames old) new
  let run := o.1.foldl (fun (p : List Coded × EncState) f =>
      let r := encodeOne d p.2 f
      (p.1 ++ [r.1], r.2)) ([], ⟨st, old.prev, old.vbv.getD d.vbv, old.dpb, refs⟩)
  if d.bsCap < (run.1.map (fun c => c.bytes.length)).sum then do
    Plan.count kVencOverrunCount 1
    Plan.code 0x0608
    wr E d.info (leBytes 128 (menInfo 0x0608 [] (keptVbv d blk)))
    pure (blk.getD {})
  else do
    let forced := (run.1.filter (·.forced)).length
    Plan.count kVencFrames run.1.length
    Plan.count kVencReencodeCount ((run.1.map (·.again)).sum)
    Plan.count kVencForcedCount forced
    if forced ≠ 0 then Plan.code 0x0607
    wr E d.bs (run.1.flatMap (·.bytes))
    (run.2.dpb.filter (fun r => !old.dpb.contains r)).forM (fun r =>
      wr E (d.ref + r.slot * poolBytes d.width d.height r.ten) (planesBytes r.ten (samplesOf run.2 r)))
    wr E d.info (leBytes 128 (menInfo (if forced = 0 then 0 else 0x0607) run.1 run.2.vbv))
    Plan.setInfo run.1.length
    let bytes := fit stateBytes run.2.state
    allOrNone (wr E d.state bytes)
    pure { crc := crc64 bytes, dpb := run.2.dpb, taken := old.taken + b2n new.isSome, frames := o.2.map (fun f => (f.tag, f.samples))
           prev := run.2.prev, vbv := some run.2.vbv
           sinceKey := if key then some 0 else if new.isSome then old.sinceKey.map (· + 1) else old.sinceKey }

/-! ## What the device keeps -/

/-- The stream of an MDC or MEN in a context. -/
def mediaKey (c x : Nat) : Nat := c * 2 ^ 56 + bits x 375 320

def mediaBlk (s : State) (o : Op) : Option MediaBlk := (s.media.find? (fun p => p.1 == mediaKey o.ctx o.desc)).map (·.2)

def setMedia (s : State) (o : Op) (b : MediaBlk) : State :=
  { s with media := (mediaKey o.ctx o.desc, b) :: s.media.filter (fun p => p.1 != mediaKey o.ctx o.desc) }

def isMedia (opc : Nat) : Bool := opc == opMDC || opc == opMEN

/-- Whether every earlier op of the stream has completed (R383, R391). -/
def mediaTurn (s : State) (o : Op) : Bool :=
  !isMedia o.opc || (s.ops.filter (fun e => isMedia e.opc && e.ctx == o.ctx && decide (e.id < o.id) && e.phase != .done &&
    bits e.desc 375 320 == bits o.desc 375 320)).isEmpty

end Sys2Proof.Machine
end

