-- ==== Sys2Proof/Machine/Ingest.lean ====
section
/-! DEFINITION. ING (R399 to R426): sources of samples, colour and patches, packing, the hatbox, the manifest and live
streams. -/

namespace Sys2Proof.Machine

/-! ## Descriptor, list, auxiliary block, stream entries (R421 to R423, R417) -/

structure IngDesc where
  epoch : Nat
  prep : Nat
  rowTokens : Nat
  rows : Nat
  samples : Nat
  pt : Nat
  ph : Nat
  pw : Nat
  fmt : Nat
  rnd : Nat
  ovf : Nat
  fixed : Bool
  strict : Bool
  split : Nat
  fill : Bool
  live : Nat
  matrix : Nat
  range : Nat
  clamp : Bool
  elems : Nat
  group : Nat
  aux : Nat
  man : Nat
  pos : Nat
  wt : Nat
  seg : Nat
  out : Nat
  list : Nat
deriving DecidableEq, Repr, Inhabited

def ingDesc (x : Nat) : IngDesc :=
  { epoch := bits x 1023 960, prep := bits x 959 928, rowTokens := bits x 927 904, rows := bits x 903 888
    samples := bits x 887 872, pt := bits x 871 867, ph := bits x 866 862, pw := bits x 861 857, fmt := bits x 856 852
    rnd := bits x 851 849, ovf := bits x 848 848, fixed := bit x 847, strict := bit x 846, split := bits x 845 844
    fill := bit x 843, live := bits x 842 841, matrix := bits x 840 839, range := bits x 838 837, clamp := bit x 836
    elems := bits x 835 820, group := bits x 819 804, aux := bits x 567 512, man := bits x 503 448, pos := bits x 439 384
    wt := bits x 375 320, seg := bits x 311 256, out := bits x 247 192, list := bits x 183 128 }

def ingReservedOk (x : Nat) : Bool :=
  zeroAt x [(803, 568), (511, 504), (447, 440), (383, 376), (319, 312), (255, 248), (191, 184)]

structure IngEntry where
  key : Nat
  src : Nat
  srcBytes : Nat
  weight : Nat
  frames : Nat
  skip : Nat
  width : Nat
  height : Nat
  fixRow : Nat
  fixToken : Nat
  codec : Nat
deriving DecidableEq, Repr, Inhabited

def ingEntry (w : Nat) : IngEntry :=
  { key := bits w 511 448, src := bits w 439 384, srcBytes := bits w 383 352, weight := bits w 351 320
    frames := bits w 319 304, skip := bits w 303 288, width := bits w 287 272, height := bits w 271 256
    fixRow := bits w 255 240, fixToken := bits w 239 216, codec := bits w 215 212 }

structure IngAux where
  mean : List Nat
  scale : List Nat
  hbEntries : Nat
  stageBytes : Nat
  scratchBytes : Nat
  hostLog2 : Nat
  liveStreams : Nat
  live : Nat
  hostq : Nat
  scratch : Nat
  stage : Nat
  hbIndex : Nat
deriving DecidableEq, Repr, Inhabited

def ingAux (x : Nat) : IngAux :=
  { mean := [bits x 1023 992, bits x 991 960, bits x 959 928], scale := [bits x 927 896, bits x 895 864, bits x 863 832]
    hbEntries := bits x 831 800, stageBytes := bits x 799 768, scratchBytes := bits x 767 736, hostLog2 := bits x 735 728
    liveStreams := bits x 727 720, live := bits x 695 640, hostq := bits x 631 576, scratch := bits x 567 512
    stage := bits x 503 448, hbIndex := bits x 439 384 }

def ingAuxReservedOk (x : Nat) : Bool :=
  zeroAt x [(719, 696), (639, 632), (575, 568), (511, 504), (447, 440), (383, 0)]

structure LiveEntry where
  ring : Nat
  log2 : Nat
  control : Bool
  layout : Nat
  matrix : Nat
  range : Nat
  width : Nat
  height : Nat
  pitch : Nat
  chroma : Nat
  producer : Nat
  consumer : Nat
deriving DecidableEq, Repr, Inhabited

def liveEntry (w : Nat) : LiveEntry :=
  { ring := bits w 511 456, log2 := bits w 455 448, control := bit w 447, layout := bits w 446 446, matrix := bits w 445 444
    range := bits w 443 442, width := bits w 431 416, height := bits w 415 400, pitch := bits w 399 368
    chroma := bits w 367 336, producer := bits w 255 224, consumer := bits w 223 192 }

def liveReservedOk (w : Nat) : Bool := zeroAt w [(441, 432), (335, 320), (191, 0)]

/-- Tokens of a frame sample (R408). -/
def tokensOf (d : IngDesc) (f h w : Nat) : Nat := f / max 1 d.pt * (h / max 1 d.ph) * (w / max 1 d.pw)

/-- Tokens that entry `e`'s listed size gives. -/
def listedTokens (d : IngDesc) (e : IngEntry) : Nat := tokensOf d e.frames e.height e.width

/-- Luma samples of an entry (R400). -/
def lumaOf (e : IngEntry) : Nat := e.width * e.height * (e.skip + e.frames)

/-- What an ING works with. -/
structure IngEnv where
  d : IngDesc
  A : IngAux
  list : List Nat
deriving DecidableEq, Repr, Inhabited

def outBytes (d : IngDesc) : Nat := fmtBits d.fmt / 8

/-- The regions of R424's overlap check; one of no bytes overlaps nothing. -/
def ingRegions (d : IngDesc) (A : IngAux) (n : Nat) : List (Nat × Nat) :=
  let t := d.rows * d.rowTokens
  [(d.out, d.out + t * d.elems * outBytes d), (d.seg, d.seg + 2 * t), (d.wt, d.wt + 4 * t), (d.pos, d.pos + 24 * t),
   (d.man, d.man + 64 + 16 * n), (A.scratch, A.scratch + A.scratchBytes), (A.stage, A.stage + A.stageBytes)]

/-- Fixed-layout slots: each within its row, and none overlapping another (R424). -/
def fixedOk (d : IngDesc) (es : List IngEntry) : Bool :=
  es.all (fun e => decide (e.fixRow < d.rows) && decide (e.fixToken + listedTokens d e ≤ d.rowTokens)) &&
    disjointRegions (es.map (fun e => (e.fixRow * 2 ^ 25 + e.fixToken, e.fixRow * 2 ^ 25 + e.fixToken + listedTokens d e)))

/-- Checks at start (R424), reserved fields first (R480); `groupOk` says whether group `g` lives here with at most 64
members. -/
def ingIssue (E : Env) (x : Nat) (groupOk : Nat → Bool) : Plan IngEnv := do
  let d := ingDesc x
  Plan.need (ingReservedOk x) 0x0155
  Plan.need (aligned d.aux 128 && aligned d.man 64 && aligned d.pos 8 && aligned d.wt 4 && aligned d.seg 2 && aligned d.out 16 &&
    aligned d.list 64) 0x0141
  let ax ← rdRec E d.aux 128
  let A := ingAux ax
  Plan.need (ingAuxReservedOk ax) 0x0155
  let n := if d.live = 0 then d.samples else A.liveStreams
  Plan.need (disjointRegions (ingRegions d A n)) 0x0145
  Plan.need (if d.live = 0 then decide (1 ≤ n) && decide (n ≤ 4096) else decide (1 ≤ n) && decide (n ≤ 16)) 0x0620
  let list ← (List.range n).mapM (fun i => rdRec E ((if d.live = 0 then d.list else A.live) + 64 * i) 64)
  Plan.need (list.all (fun w => if d.live = 0 then zeroAt w [(447, 440), (211, 0)] else liveReservedOk w)) 0x0155
  let patch (p : Nat) : Bool := decide (1 ≤ p) && decide (p ≤ 16)
  let es := list.map ingEntry
  let ls := list.map liveEntry
  Plan.need (d.rowTokens != 0 && decide (1 ≤ d.rows) && decide (d.rows ≤ 65534) && patch d.pt && patch d.ph && patch d.pw &&
    decide (d.fmt ≤ 4) && decide (d.rnd ≤ 4) && d.split != 3 && d.live != 3 && d.range != 3 && d.elems == d.pt * d.ph * d.pw * 3 &&
    (d.split != 2 || A.hostq != 0) && (d.group == 0 || d.live == 1) && (A.mean ++ A.scale).all (fun c => (decodeNum fFP32 c).isFinite) &&
    (A.hostq == 0 || (decide (4 ≤ A.hostLog2) && decide (A.hostLog2 ≤ 12))) &&
    (if d.live = 0 then
      es.all (fun e => e.key != 0 && e.srcBytes != 0 && e.frames != 0 &&
        decide (64 ≤ e.width) && decide (e.width ≤ 8192) && decide (64 ≤ e.height) && decide (e.height ≤ 8192) && decide (e.codec ≤ 2)) &&
      (!d.fixed || fixedOk d es)
    else
      d.list == 0 && d.samples == 0 &&
      ls.all (fun e => decide (4 ≤ e.log2) && decide (e.log2 ≤ 12) && e.matrix != 0 && (e.range == 1 || e.range == 2)))) 0x0620
  Plan.need (d.live != 1 || groupOk d.group) 0x0622
  pure ⟨d, A, list⟩

/-! ## Colour (R406, R407) -/

/-- A constant p / 10^4 in the extended form. -/
def tenThou (p : Nat) : Val := toExt (Val.div (.ofNat p) (.ofNat 10000))

/-- K_R and K_B of a matrix in ten-thousandths: 1 BT.601, 2 BT.709, 3 BT.2020. -/
def lumaConst (m : Nat) : Nat × Nat :=
  match m with
  | 1 => (2990, 1140)
  | 2 => (2126, 722)
  | _ => (2627, 593)

/-- A constant p / 10^8 in the extended form. -/
def tenThou2 (p : Nat) : Val := toExt (Val.div (.ofNat p) (.ofNat 100000000))

/-- R, G and B of one pixel. -/
def pixelRgb (matrix : Nat) (full : Bool) (depth y cb cr : Nat) (clamp : Bool) : List Val :=
  let k := 2 ^ (depth - 8)
  let norm := fun (v off den : Nat) => toExt (Val.div (Val.sub 0 (.ofNat v) (.ofNat off)) (.ofNat den))
  let top := 2 ^ depth - 1
  let Y := if full then norm y 0 top else norm y (16 * k) (219 * k)
  let B := if full then norm cb (2 ^ (depth - 1)) top else norm cb (128 * k) (224 * k)
  let R := if full then norm cr (2 ^ (depth - 1)) top else norm cr (128 * k) (224 * k)
  let c := lumaConst matrix
  let mul := fun (a b : Val) => toExt (Val.mul a b)
  let r := extAdd Y (mul (tenThou (2 * (10000 - c.1))) R)
  let b := extAdd Y (mul (tenThou (2 * (10000 - c.2))) B)
  let s := extAdd (mul (tenThou2 (2 * c.1 * (10000 - c.1))) R) (mul (tenThou2 (2 * c.2 * (10000 - c.2))) B)
  let g := toExt (Val.sub 0 Y (toExt (Val.div s (tenThou (10000 - c.1 - c.2)))))
  let lim := fun (v : Val) => if Val.lt v .zero then .zero else if Val.lt .one v then .one else v
  if clamp then [lim r, lim g, lim b] else [r, g, b]

/-- The matrix of a picture under the op's `MATRIX` (R407). -/
def matrixOf (E : Env) (sel coded : Nat) : Nat :=
  if sel ≠ 0 then sel
  else match coded with
    | 1 => 2
    | 5 => 1
    | 6 => 1
    | 9 => 3
    | _ => objGet E.d kIngDefaultMatrix

/-- The value of `SCALE`, where 0 stands for 1. -/
def scaleOf (c : Nat) : Val := if c = 0 then .one else decodeNum fFP32 c

/-- The output value of channel `c`, before its rounding to `OUT_FMT`. -/
def channelOut (A : IngAux) (c : Nat) (v : Val) : Val :=
  Val.mul (toExt (Val.sub 0 v (decodeNum fFP32 (A.mean.getD c 0)))) (scaleOf (A.scale.getD c 0))

def ingRnd (d : IngDesc) : Rnd := { rnd := d.rnd, ovf := d.ovf, keepNeg := true }

/-- Pictures that form a sample, with matrix and range chosen. -/
structure Clip where
  pics : List Config.Picture
  matrix : Nat
  full : Bool
deriving DecidableEq, Repr, Inhabited

/-- The elements of the token at patch (t, h, w) (R406, R408). -/
def tokenVals (I : IngEnv) (c : Config.Picture → Nat × Bool) (pics : List Config.Picture) (t h w : Nat) : List Val :=
  let d := I.d
  (List.range d.pt).flatMap (fun dt =>
    let p := pics.getD (t * d.pt + dt) default
    let m := c p
    (List.range d.ph).flatMap (fun dh => (List.range d.pw).flatMap (fun dw =>
      let y := h * d.ph + dh
      let x := w * d.pw + dw
      let cw := 2 * ceilDiv p.width 2
      let rgb := pixelRgb m.1 m.2 p.depth (p.luma.getD (y * p.width + x) 0)
        (p.chroma.getD (y / 2 * cw + x / 2 * 2) 0) (p.chroma.getD (y / 2 * cw + x / 2 * 2 + 1) 0) d.clamp
      ((List.range 3).zip rgb).map (fun q => channelOut I.A q.1 q.2))))

/-- A token: its packed elements and its coordinates. -/
structure Token where
  bytes : List Nat
  t : Nat
  h : Nat
  w : Nat
deriving DecidableEq, Repr, Inhabited

/-- The tokens of a frame sample, patch index t outermost (R408). -/
def frameTokens (I : IngEnv) (c : Config.Picture → Nat × Bool) (pics : List Config.Picture) (hh ww : Nat) : Plan (List Token) := do
  let d := I.d
  let spots := (List.range (pics.length / max 1 d.pt)).flatMap (fun t => (List.range (hh / max 1 d.ph)).flatMap (fun h =>
    (List.range (ww / max 1 d.pw)).map (fun w => (t, h, w))))
  spots.mapM (fun s => do
    let vs := tokenVals I c pics s.1 s.2.1 s.2.2
    let cs ← ((List.range vs.length).zip vs).mapM (fun p => emit (encodeNum d.fmt (ingRnd d) p.1 p.2))
    pure (⟨packRow d.fmt cs, s.1, s.2.1, s.2.2⟩ : Token))

/-! ## The hatbox (R413 to R415) -/

/-- Probes the index for a key: the object's address, if the key is there. -/
def hbProbe (E : Env) (A : IngAux) (key : Nat) : Nat → Nat → Plan (Option Nat)
  | 0, _ => pure none
  | f + 1, p => do
    let w ← rdRec E (A.hbIndex + 16 * ((mix64 key + p) % max 1 A.hbEntries)) 16
    if w % 2 ^ 64 = key then pure (some (w / 2 ^ 64 % 2 ^ 56))
    else if w % 2 ^ 64 = 0 then pure none
    else hbProbe E A key f (p + 1)

/-- A hit's token count and payload, or none for an object that fails a check (R414). -/
def hbObject (E : Env) (I : IngEnv) (key va : Nat) : Plan (Option (Nat × List Nat)) := do
  let h ← rdRec E va 64
  let n := bits h 127 96
  if h % 2 ^ 64 ≠ key ∨ bits h 95 64 ≠ I.d.prep ∨ bits h 143 128 ≠ I.d.elems ∨ bits h 151 144 ≠ I.d.fmt then pure none
  else do
    let bs ← rd E (va + 64) (n * (I.d.elems * outBytes I.d + 24))
    pure (if crc64 bs = bits h 255 192 then some (n, bs) else none)

/-- The tokens of a payload. -/
def hbTokens (d : IngDesc) (n : Nat) (bs : List Nat) : List Token :=
  let tb := d.elems * outBytes d
  (List.range n).map (fun i =>
    let at_ := fun (k : Nat) => leNat ((bs.drop (n * tb + 24 * i + 8 * k)).take 8)
    ⟨(bs.drop (i * tb)).take tb, at_ 0, at_ 1, at_ 2⟩)

/-- A hatbox object (R414). -/
def hbBytes (d : IngDesc) (key : Nat) (ts : List Token) : List Nat :=
  let payload := ts.flatMap (·.bytes) ++ ts.flatMap (fun t => leBytes 8 t.t ++ leBytes 8 t.h ++ leBytes 8 t.w)
  leBytes 8 key ++ leBytes 4 d.prep ++ leBytes 4 ts.length ++ leBytes 2 d.elems ++ [d.fmt, 0, 0, 0, 0, 0] ++
    leBytes 8 (crc64 payload) ++ List.replicate 32 0 ++ payload

/-! ## Packing (R409 to R411) -/

/-- A sample as packing sees it: its tokens where it stays in the batch, the tokens its listed size gives, weight, mark, and
what the manifest says of it. -/
structure Packed where
  tokens : Option (List Token)
  listed : Nat
  fixRow : Nat
  fixToken : Nat
  weight : Nat
  source : Nat
  event : Nat
  status : Nat
  row : Nat := 0xFFFF
  token : Nat := 0
  stage : Nat := 0xFFFFFF
deriving DecidableEq, Repr, Inhabited

/-- Compact placement from the next free token on. -/
def packCompact (d : IngDesc) : Nat → Nat → List Packed → List Packed
  | _, _, [] => []
  | row, next, p :: ps =>
    match p.tokens with
    | none => p :: packCompact d row next ps
    | some ts =>
      if d.rowTokens < ts.length then { p with tokens := none, event := 3 } :: packCompact d row next ps
      else
        let fits := decide (next + ts.length ≤ d.rowTokens)
        let r := if fits then row else row + 1
        let k := if fits then next else 0
        if d.rows ≤ r then { p with tokens := none, event := 4 } :: packCompact d row next ps
        else { p with row := r, token := k } :: packCompact d r (k + ts.length) ps

/-- Fixed placement, for the tokens that the listed size gives (R411). -/
def packFixed (p : Packed) : Packed :=
  match p.tokens with
  | none => p
  | some ts => { p with tokens := some (ts.take p.listed), row := p.fixRow, token := p.fixToken }

/-- What token `j` of row `r` holds: elements, mark, weight and coordinates; a pad token holds zeros (R409). -/
def tokenAt (d : IngDesc) (ps : List Packed) (r j : Nat) : Token × Nat × Nat :=
  let hit := ((List.range ps.length).zip ps).find? (fun p => p.2.row == r && decide (p.2.token ≤ j) &&
    decide (j < p.2.token + (p.2.tokens.getD []).length) && p.2.tokens.isSome)
  match hit with
  | some p => ((p.2.tokens.getD []).getD (j - p.2.token) default, p.1 + 1, p.2.weight)
  | none => (⟨List.replicate (d.elems * outBytes d) 0, 0, 0, 0⟩, 0, 0)

/-- Writes the tensors of the batch (R409). -/
def wrTokens (E : Env) (d : IngDesc) (ps : List Packed) : Plan Unit :=
  (List.range d.rows).forM (fun r => (List.range d.rowTokens).forM (fun j => do
    let n := r * d.rowTokens + j
    let x := tokenAt d ps r j
    wr E (d.out + n * d.elems * outBytes d) x.1.bytes
    wr E (d.seg + 2 * n) (leBytes 2 x.2.1)
    wr E (d.wt + 4 * n) (leBytes 4 x.2.2)
    wr E (d.pos + 24 * n) (leBytes 8 x.1.t ++ leBytes 8 x.1.h ++ leBytes 8 x.1.w)))

/-- A record of the manifest (R416). -/
def manRecord (p : Packed) (n : Nat) : Nat :=
  p.status % 2 ^ 16 * 2 ^ 104 + n % 2 ^ 24 * 2 ^ 80 + (if p.row = 0xFFFF then 0 else p.token) % 2 ^ 24 * 2 ^ 56 +
    p.row % 2 ^ 16 * 2 ^ 40 + p.source % 256 * 2 ^ 32 + p.event % 256 * 2 ^ 24 + p.stage % 2 ^ 24

/-- Header and records of the manifest. -/
def manifest (d : IngDesc) (ps : List Packed) : List Nat :=
  let n (f : Packed → Bool) : Nat := (ps.filter f).length
  leBytes 8 d.epoch ++
  [n (fun p => p.row != 0xFFFF), n (fun p => p.event == 1), n (fun p => p.event == 2), n (fun p => p.event == 4),
   n (fun p => p.source == 2), n (fun p => p.source == 1), n (fun p => p.stage != 0xFFFFFF),
   ((ps.filter (fun p => p.row != 0xFFFF && p.tokens != some [])).map (·.row)).dedup.length].flatMap (leBytes 4) ++
  List.replicate 24 0 ++
  ps.flatMap (fun p => leBytes 16 (manRecord p (match p.tokens with | some ts => ts.length | none => p.listed)))

/-! ## Samples -/

/-- The median of a list: the lower of the middle two where there are two (log 38). -/
def median (l : List Nat) : Nat := ((l.insertionSort (· ≤ ·))[(l.length - 1) / 2]?).getD 0

def timesOf (s : State) (c : Nat) : List Nat := kvGet [] s.ingTimes c

/-- Notes the time per luma sample of a completed decode (R403). -/
def noteTime (s : State) (c ps : Nat) : State :=
  let l := (ps :: timesOf s c).take 256
  ({ s with ingTimes := kvSet [] s.ingTimes c l }).setObj kIngMedianPs (median l % 2 ^ 32)

def ingJob? (s : State) (op : Nat) : Option IngJob := s.ing.find? (fun j => j.op == op)

def putIng (s : State) (j : IngJob) : State := { s with ing := s.ing.map (fun x => if x.op = j.op then j else x) }

def dropIng (s : State) (op : Nat) : State := { s with ing := s.ing.filter (fun j => j.op ≠ op) }

/-- Samples in work on a side, over the device: list samples and carry entries (R400). -/
def sideLoad (s : State) (side : Nat) : Nat :=
  let mine := fun (x : IngSample) =>
    if side = 1 then x.ring != 0 && x.st == 1 else x.ring == 0 && (x.source == 0 || x.source == 3) && decide (x.st ≤ 1)
  (s.ing.map (fun j => ((j.samples.filter mine).map (fun x => lumaOf (ingEntry x.entry))).sum)).sum +
    ((s.carries.filter (fun c => mine c.sample)).map (fun c => lumaOf (ingEntry c.sample.entry))).sum

/-- Whether the next sample goes to the host under `SPLIT` 0 (R400). -/
def hostSide (s : State) (more : Nat → Nat) (e : IngEntry) : Bool :=
  let rate := s.obj kIngHostRateMps
  rate != 0 && decide ((sideLoad s 1 + more 1 + lumaOf e) * 16000 < (sideLoad s 0 + more 0 + lumaOf e) * rate)

/-- The host ring's indices: producer and consumer. -/
def ringIndices (E : Env) (A : IngAux) : Plan (Nat × Nat) := do
  let w ← rdRec E A.hostq 8
  pure (w % 2 ^ 32, w / 2 ^ 32)

def ringFull (A : IngAux) (pc : Nat × Nat) : Bool := decide (2 ^ A.hostLog2 ≤ (pc.1 + 2 ^ 32 - pc.2) % 2 ^ 32)

/-- Writes a host request and increments the producer (R402). -/
def hostRequest (E : Env) (A : IngAux) (e : IngEntry) (prod frame : Nat) : Plan Unit := do
  let w := e.key * 2 ^ 448 + e.src * 2 ^ 384 + e.srcBytes * 2 ^ 352 + e.skip * 2 ^ 336 + e.frames * 2 ^ 320 +
    e.width * 2 ^ 304 + e.height * 2 ^ 288 + e.codec * 2 ^ 284 + frame % 2 ^ 56 * 2 ^ 224
  wr E (A.hostq + 64 + 64 * (prod % 2 ^ A.hostLog2)) (leBytes 64 w)
  wr E A.hostq (leBytes 4 ((prod + 1) % 2 ^ 32))

/-- Bytes of scratch that a device decode holds (R401). -/
def decodeScratch (s : State) : Nat := s.obj kIngDecodeScratchMib * 2 ^ 20

/-- Parts of the scratch areas of a context that are held: by decodes that run, and by carry entries until a later ING claims
them (R403). -/
def scratchHeld (s : State) (c : Nat) : List Nat :=
  let mine := s.ing.filter (fun j => (s.op? j.op).any (fun o => o.ctx == c))
  ((mine.flatMap (·.samples)).filter (·.onDevice)).map (·.scratch) ++
    ((s.carries.filter (fun x => x.ctx == c && x.sample.ring == 0)).map (·.sample.scratch))

/-- The decoder and the part of the scratch area that a device decode of a job takes next, if both are free (R401). -/
def decodePlace (s : State) (c : Nat) (j : IngJob) : Option (Nat × Nat) :=
  let n := decodeScratch s
  let held := scratchHeld s c
  let busy := busyUnits s 0x80
  match (List.range 8).find? (fun k => !bit busy k),
    (List.range (min 8 (j.scratchBytes / n))).find? (fun k => !held.contains (j.scratch + k * n)) with
  | some k, some i => some (k, j.scratch + i * n)
  | _, _ => none

/-- Whether an ING that has started holds a sample whose decode could start now: it comes before an MDC that starts later
(R401). -/
def ingAhead (s : State) : Bool :=
  s.ing.any (fun j => j.samples.any (fun x => x.st == 0 && x.source == 0 && !x.carried) &&
    (s.op? j.op).any (fun o => (decodePlace s o.ctx j).isSome))

/-- A job of an op as it stands. -/
def jobNow (op : Nat) (I : IngEnv) (xs : List IngSample) : IngJob :=
  { op := op, samples := xs, scratch := I.A.scratch, scratchBytes := I.A.scratchBytes }

/-- Starts waiting decodes in list order: device decodes within the decoders and the scratch, host decodes within the ring; `k`
requests have been written before. -/
def startWaiting (s : State) (E : Env) (op : Nat) (I : IngEnv) : List IngSample → List IngSample → Nat → Plan (List IngSample)
  | [], done, _ => pure done
  | x :: xs, done, k => do
    if x.st ≠ 0 ∨ x.carried then startWaiting s E op I xs (done ++ [x]) k
    else if x.source = 0 then
      let j := jobNow op I (done ++ x :: xs)
      let y : IngSample := match decodePlace (putIng s j) E.ctx j with
        | some p => { x with st := 1, since := s.time, decoder := p.1, scratch := p.2 }
        | none => x
      startWaiting s E op I xs (done ++ [y]) k
    else do
      let pc ← ringIndices E I.A
      let prod := (pc.1 + k) % 2 ^ 32
      if ringFull I.A (prod, pc.2) then startWaiting s E op I xs (done ++ [x]) k
      else do
        let frame := I.A.scratch + Config.framePlace (s.dp.freeCtr + x.origin.2) % max 1 I.A.scratchBytes
        hostRequest E I.A (ingEntry x.entry) prod frame
        startWaiting s E op I xs (done ++ [{ x with st := 1, since := s.time, slot := prod, frameAddr := frame }]) (k + 1)

/-- The source of one sample (R399, R400, R413): `more` is the load that earlier samples of this op added to a side. -/
def chooseSource (s : State) (E : Env) (o : Op) (I : IngEnv) (i w : Nat) (more : Nat → Nat) : Plan IngSample := do
  let e := ingEntry w
  let base : IngSample := { entry := w, begun := w, origin := (o.id, i) }
  match s.carries.find? (fun c => c.ctx == o.ctx && (ingEntry c.sample.entry).key == e.key) with
  | some c => pure { c.sample with carried := true, source := 3, entry := w }
  | none => do
    let hit ← (if I.A.hbEntries = 0 then pure none
      else do
        match ← hbProbe E I.A e.key 8 0 with
        | none => pure none
        | some va => do
          match ← hbObject E I e.key va with
          | some r => pure (some r)
          | none => do Plan.count kIngHbBad 1; pure none)
    match hit with
    | some r => do
      Plan.count kIngHbHits 1
      pure { base with source := 2, st := 2, tokens := r.1, payload := r.2 }
    | none => do
      if I.A.hbEntries ≠ 0 then Plan.count kIngHbMisses 1
      let pc ← (if I.A.hostq = 0 then pure (0, 0) else ringIndices E I.A)
      let host := decide (I.d.split = 2) ||
        (I.d.split == 0 && I.A.hostq != 0 && hostSide s more e && !ringFull I.A (pc.1 + more 2, pc.2))
      if host then Plan.count kIngHostDecodes 1
      pure (if host then { base with source := 1, ring := I.A.hostq, ringLog2 := I.A.hostLog2 } else base)

def chooseAll (s : State) (E : Env) (o : Op) (I : IngEnv) : List (Nat × Nat) → List IngSample → Plan (List IngSample)
  | [], got => pure got
  | p :: ps, got => do
    let load := fun (k : Nat) =>
      let mine := got.filter (fun x => x.source == (if k = 2 then 1 else k) && !x.carried && x.st == 0)
      if k = 2 then mine.length else (mine.map (fun x => lumaOf (ingEntry x.entry))).sum
    let x ← chooseSource s E o I p.1 p.2 load
    chooseAll s E o I ps (got ++ [x])

/-! ## Device decodes (R401) -/

/-- Start codes of an Annex B stream: the place of each. -/
def startCodes : List Nat → Nat → List Nat
  | 0 :: 0 :: 1 :: rest, i => i :: startCodes rest (i + 3)
  | _ :: rest, i => startCodes rest (i + 1)
  | [], _ => []

/-- What a NAL unit is to the finding of access units: whether it holds coded picture data, and whether it begins an access unit
when such data has come before it. The types are those of the standards (log 84). -/
def nalRole (codec : Nat) (bs : List Nat) (i : Nat) : Bool × Bool :=
  let b := fun (k : Nat) => bs.getD (i + 3 + k) 0
  if codec = 0 then
    let t := b 0 / 2 % 64
    let vcl := decide (t ≤ 31)
    (vcl, (vcl && decide (128 ≤ b 2)) || (decide (32 ≤ t) && decide (t ≤ 35)) || t == 39 || (decide (41 ≤ t) && decide (t ≤ 44)) ||
      (decide (48 ≤ t) && decide (t ≤ 55)))
  else
    let t := b 0 % 32
    let vcl := decide (1 ≤ t) && decide (t ≤ 5)
    (vcl, (vcl && decide (128 ≤ b 1)) || (decide (6 ≤ t) && decide (t ≤ 9)) || (decide (14 ≤ t) && decide (t ≤ 18)))

/-- The places at which access units begin. -/
def accessStarts (codec : Nat) (bs : List Nat) : List Nat → Bool → Bool → List Nat
  | [], _, _ => []
  | i :: rest, first, data =>
    let r := nalRole codec bs i
    if first then i :: accessStarts codec bs rest false r.1
    else if data && r.2 then i :: accessStarts codec bs rest false r.1
    else accessStarts codec bs rest false (data || r.1)

/-- A leb128 number: its value and its bytes. -/
def leb128 : Nat → List Nat → Nat × Nat
  | 0, _ => (0, 0)
  | _ + 1, [] => (0, 0)
  | f + 1, b :: bs =>
    if b < 128 then (b, 1)
    else
      let r := leb128 f bs
      (b % 128 + 128 * r.1, r.2 + 1)

/-- The places of the temporal delimiters of an AV1 stream. -/
def delimiters : Nat → List Nat → Nat → List Nat
  | 0, _, _ => []
  | _ + 1, [], _ => []
  | f + 1, b :: bs, i =>
    let ext := b2n (bit b 2)
    let size := leb128 8 (bs.drop ext)
    let n := if bit b 1 then 1 + ext + size.2 + size.1 else 1 + bs.length
    let rest := delimiters f ((b :: bs).drop n) (i + n)
    if bits b 6 3 = 2 then i :: rest else rest

/-- The units of a bitstream: offset and bytes of each. -/
def unitsOf (codec : Nat) (bs : List Nat) : List (Nat × Nat) :=
  let starts := if codec = 1 then delimiters (bs.length + 1) bs 0 else accessStarts codec bs (startCodes bs 0) true false
  (starts.zip (starts.drop 1 ++ [bs.length])).map (fun p => (p.1, p.2 - p.1))

/-- The working of a device decode (R401): its units one after another under the rules of MDC, with the state block at the start
of its scratch and the reference pool after it; every picture that it puts out. -/
def clipPlan (E : Env) (x : IngSample) : Plan (List Config.Picture) := do
  let e := ingEntry x.begun
  let bs ← rd E e.src e.srcBytes
  let size := objGet E.d kIngDecodeScratchMib * 2 ^ 20
  let pool := x.scratch + stateBytes
  let windows := [(x.scratch, x.scratch + stateBytes), (pool, x.scratch + size)]
  let r ← (unitsOf e.codec bs).foldlM (fun (a : Decode × List Nat) u => do
    let W : DecodeAt := { codec := e.codec, bs := e.src + u.1, bytes := u.2, ref := pool, refBytes := size - stateBytes, windows := windows
                          factor := objGet E.d kVdecBudgetFactor, fits := fun _ _ => true, tag := 0 }
    let n ← decodeUnit E W a.2 ((bs.drop u.1).take u.2) a.1
    windowWr E W x.scratch (fit stateBytes n.2)
    pure (n.1, fit stateBytes n.2)) ({}, fit stateBytes (Config.mediaInit e.codec false))
  let out := (r.1.release 0).out
  countPictures out
  pure out

/-! ## Finishing a batch -/

/-- The pictures that a sample keeps (R401). -/
def kept (e : IngEntry) (ps : List Config.Picture) : List Config.Picture := (ps.drop e.skip).take e.frames

/-- Whether a decoded sample is corrupt (R412). -/
def isCorrupt (mask : Nat) (e : IngEntry) (ps : List Config.Picture) : Bool :=
  ps.any (fun p => decide (0x0600 ≤ p.status) && bit mask (p.status - 0x0600)) || decide (ps.length < e.frames) ||
    ps.any (fun p => p.width != e.width || p.height != e.height)

/-- Matrix and range of a picture under the op's selections. -/
def colourOf (E : Env) (d : IngDesc) (p : Config.Picture) : Nat × Bool :=
  (matrixOf E d.matrix p.matrix, if d.range = 0 then p.fullRange else d.range == 2)

/-- A sample as packing takes it. -/
def packSample (E : Env) (I : IngEnv) (x : IngSample) : Plan Packed := do
  let e := ingEntry x.entry
  let p : Packed := { tokens := none, listed := listedTokens I.d e, fixRow := e.fixRow, fixToken := e.fixToken
                      weight := if e.weight = 0 then 0x3F800000 else e.weight, source := x.source, event := x.event
                      status := ((x.pics.find? (fun q => q.status != 0)).map (·.status)).getD 0 }
  if x.st = 3 then pure p
  else if x.source = 2 then pure { p with tokens := some (hbTokens I.d x.tokens x.payload) }
  else if isCorrupt (objGet E.d kIngCorruptMask) e x.pics then pure { p with event := 1 }
  else do
    let ts ← frameTokens I (colourOf E I.d) x.pics e.height e.width
    pure { p with tokens := some ts }

/-- Stages the decoded samples that `HB_FILL` keeps (R415), each at the next 4 KiB boundary: a sample, its tokens before
placement, and what packing made of it. -/
def stageAll (E : Env) (I : IngEnv) : List (IngSample × Option (List Token) × Packed) → Nat → Plan (List Packed)
  | [], _ => pure []
  | (x, toks, p) :: rest, off => do
    let want := I.d.fill && x.source != 2 && x.pics.all (fun q => q.concealed == 0)
    match if want then toks else none with
    | none => do pure (p :: (← stageAll E I rest off))
    | some ts => do
      let bs := hbBytes I.d (ingEntry x.entry).key ts
      if I.A.stageBytes < off + bs.length then do
        Plan.count kIngHbStageFull 1
        pure (p :: (← stageAll E I rest off))
      else do
        wr E (I.A.stage + off) bs
        Plan.count kIngHbStaged 1
        pure ({ p with stage := off / 4096 } :: (← stageAll E I rest (roundUp (off + bs.length) 4096)))

/-- Writes the batch and its manifest, with counts and codes (R408 to R416, R425). -/
def finishBatch (E : Env) (d : IngDesc) (ps : List Packed) : Plan Unit := do
  wrTokens E d ps
  let n (k : Nat) : Nat := (ps.filter (fun p => p.event == k)).length
  let placed := (ps.filter (fun p => p.row != 0xFFFF)).length
  Plan.count kIngSamples placed
  Plan.count kIngCorrupt (n 1)
  Plan.count kIngOverflow (n 4)
  Plan.count kLiveMissing (n 5)
  wr E d.man (manifest d ps)
  Plan.setInfo placed
  if n 4 ≠ 0 then Plan.code 0x0623
  if n 1 + n 2 + n 3 ≠ 0 then Plan.code 0x0621
  if n 5 ≠ 0 then Plan.code 0x0624

def ingOrder : List Nat := [0x0623, 0x0621, 0x0624]

/-- The end of a batch whose samples are all settled. -/
def batchPlan (E : Env) (I : IngEnv) (xs : List IngSample) : Plan Unit := do
  let ps ← xs.mapM (packSample E I)
  let placed := if I.d.fixed then ps.map packFixed else packCompact I.d 0 0 ps
  let staged ← stageAll E I (xs.zip ((ps.map (·.tokens)).zip placed)) 0
  finishBatch E I.d staged

/-! ## Live streams (R417 to R420) -/

/-- Entries of a stream's ring from `CONSUMER` up to `PRODUCER`: index, stamp and data address. -/
def ringEntries (E : Env) (e : LiveEntry) : Plan (List (Nat × Nat × Nat)) :=
  (List.range (min ((e.producer + 2 ^ 32 - e.consumer) % 2 ^ 32) (2 ^ e.log2))).mapM (fun i => do
    let k := (e.consumer + i) % 2 ^ 32
    let w ← rdRec E (e.ring + 32 * (k % 2 ^ e.log2)) 32
    pure (k, w % 2 ^ 64, w / 2 ^ 64 % 2 ^ 56))

/-- T of R418. -/
def liveT (d : Dp) (I : IngDesc) : Nat := objGet d kLiveEpochBaseNs + I.epoch * objGet d kLiveEpochNs

/-- A live frame's picture, read from its planes. -/
def rdLive (E : Env) (e : LiveEntry) (va : Nat) : Plan Config.Picture := do
  let eb := layoutBytes e.layout
  let sample := fun (bs : List Nat) (i : Nat) => if e.layout = 0 then bs.getD i 0 else leNat ((bs.drop (2 * i)).take 2) / 64
  let cw := 2 * ceilDiv e.width 2
  let ys ← (List.range e.height).mapM (fun r => do
    let bs ← rd E (va + r * e.pitch) (e.width * eb)
    pure ((List.range e.width).map (sample bs)))
  let cs ← (List.range (ceilDiv e.height 2)).mapM (fun r => do
    let bs ← rd E (va + e.chroma + r * e.pitch) (cw * eb)
    pure ((List.range cw).map (sample bs)))
  pure { tag := 0, status := 0, width := e.width, height := e.height, matrix := 2, fullRange := e.range == 2
         depth := if e.layout = 0 then 8 else 10, concealed := 0, fgBits := 0, fgData := 0, luma := ys.flatten, chroma := cs.flatten }

/-- The tokens of a live entry: one control record, or a frame repeated `PATCH_T` times. -/
def liveTokens (E : Env) (I : IngEnv) (e : LiveEntry) (va : Nat) : Plan (List Token) := do
  if e.control then
    let vs ← rdVals E va fFP32 0 I.d.elems
    let cs ← ((List.range vs.length).zip vs).mapM (fun p => emit (encodeNum I.d.fmt (ingRnd I.d) p.1 p.2))
    pure [⟨packRow I.d.fmt cs, 0, 0, 0⟩]
  else
    let p ← rdLive E e va
    let colour := fun (_ : Config.Picture) => (if I.d.matrix = 0 then e.matrix else I.d.matrix,
      if I.d.range = 0 then e.range == 2 else I.d.range == 2)
    frameTokens I colour (List.replicate I.d.pt p) e.height e.width

/-- Takes one entry of stream `k`: the latest entry stamped at or before `upto`, used where its stamp lies above `above`;
every entry up to it is consumed (R418, R419). `aligned` tells the two forms apart. -/
def takeStream (E : Env) (I : IngEnv) (aligned : Bool) (upto : Nat) (k w : Nat) : Plan Packed := do
  let e := liveEntry w
  let all ← ringEntries E e
  let old := all.filter (fun x => decide (x.2.1 ≤ upto))
  let base : Packed := { tokens := none, listed := 0, fixRow := 0, fixToken := 0, weight := Config.liveWeight.toNat
                         source := 4, event := 5, status := 0 }
  match old.getLast? with
  | none => pure base
  | some last => do
    let at_ := I.A.live + 64 * k
    wr E (at_ + 24) (leBytes 4 ((last.1 + 1) % 2 ^ 32))
    let before := (last.1 + 2 ^ 32 - e.consumer) % 2 ^ 32
    if aligned then
      if upto < last.2.1 + objGet E.d kLiveEpochNs then do
        wr E (at_ + 32) (leBytes 8 last.2.1)
        pure { base with tokens := some (← liveTokens E I e last.2.2), event := 0 }
      else pure base
    else do
      Plan.count kLiveSkipped before
      if objGet E.d kLiveStaleNs < upto - last.2.1 then do
        Plan.count kLiveStale 1
        pure base
      else do
        wr E (at_ + 32) (leBytes 8 last.2.1)
        pure { base with tokens := some (← liveTokens E I e last.2.2), event := 0 }

/-- The batch of a live op. -/
def livePlan (E : Env) (I : IngEnv) (aligned : Bool) (upto : Nat) : Plan Unit := do
  let ps ← ((List.range I.list.length).zip I.list).mapM (fun p => takeStream E I aligned upto p.1 p.2)
  finishBatch E I.d (packCompact I.d 0 0 ps)

/-- Streams that hold an entry stamped after T. -/
def streamsMet (E : Env) (I : IngEnv) : Plan (List Nat) := do
  let l ← ((List.range I.list.length).zip I.list).mapM (fun p => do
    let es ← ringEntries E (liveEntry p.2)
    pure (p.1, es.any (fun x => decide (liveT E.d I.d < x.2.1))))
  pure ((l.filter (·.2)).map (·.1))

end Sys2Proof.Machine
end

