-- ==== Sys2Proof/Machine/Mov.lean ====
section
/-! DEFINITION. MOV: copy, fill and conversion of exact-scatter slots (R330 to R334, R341). -/

namespace Sys2Proof.Machine

/-- The MOV descriptor (R333). -/
structure MovDesc where
  mode : Nat
  clear : Bool
  ovf : Nat
  rnd : Nat
  fmt : Nat
  slotExp : Int
  tag : Nat
  seed : Nat
  pattern : Nat
  dstPitch : Nat
  srcPitch : Nat
  rowBytes : Nat
  rows : Nat
  dst : Nat
  src : Nat
deriving DecidableEq, Repr, Inhabited

def movDesc (x : Nat) : MovDesc :=
  { mode := fld x 571 570, clear := bit x 569, ovf := fld x 568 568, rnd := fld x 567 565, fmt := fld x 564 560
    slotExp := toSigned 16 (fld x 559 544), tag := fld x 543 512, seed := fld x 511 448, pattern := fld x 447 384
    dstPitch := fld x 383 352, srcPitch := fld x 351 320, rowBytes := fld x 319 288, rows := fld x 287 256
    dst := fld x 247 192, src := fld x 183 128 }

def movReservedOk (x : Nat) : Bool := zeroAt x [(1023, 572), (255, 248), (191, 184)]

/-- Bytes of a destination row. -/
def MovDesc.dstRow (d : MovDesc) : Nat := if d.mode = 2 then d.rowBytes / 8 * (fmtBits d.fmt / 8) else d.rowBytes

def MovDesc.dstRegion (d : MovDesc) : Nat × Nat := rowRegion d.dst d.dstPitch d.rows d.dstRow
def MovDesc.srcRegion (d : MovDesc) : Nat × Nat := if d.mode = 1 then (0, 0) else rowRegion d.src d.srcPitch d.rows d.rowBytes

/-- Whether the destination has a page in flash. -/
def dstFlash (E : Env) (d : MovDesc) : Bool :=
  (runsOf d.dstRegion.1 (d.dstRegion.2 - d.dstRegion.1)).any (fun r => tierAt E r.1 == some 3)

/-- Whole flash units (R332). -/
def wholeUnits (d : MovDesc) : Bool :=
  d.dst % Config.pageBytes == 0 && d.dstPitch == d.dstRow && d.rows * d.dstRow % Config.pageBytes == 0

/-- Checks at start (R334), in the table's order; the whole-unit rule holds for every MOV that writes flash. -/
def movIssue (E : Env) (x : Nat) : Plan MovDesc := do
  let d := movDesc x
  let pitch (p w : Nat) : Bool := p % 16 == 0 && decide (w ≤ p)
  Plan.need (movReservedOk x) 0x0104
  Plan.need (d.mode != 3 && (d.mode != 2 || decide (d.fmt ≤ 2)) && decide (d.rnd ≤ 5)) 0x0131
  Plan.need (d.dst % 16 == 0 && d.src % 16 == 0 && pitch d.dstPitch d.dstRow && (d.mode == 1 || pitch d.srcPitch d.rowBytes) &&
    (d.mode == 0 || d.rowBytes % 8 == 0)) 0x0141
  Plan.need (d.mode == 1 || !overlaps d.srcRegion d.dstRegion) 0x0145
  Plan.need (d.mode != 2 || allHbm E d.srcRegion) 0x0146
  Plan.need (!dstFlash E d || wholeUnits d) 0x01A6
  Plan.need (d.mode != 1 || (d.src == 0 && d.srcPitch == 0)) 0x0155
  Plan.need (d.rows != 0 && d.rowBytes != 0) 0x0310
  Plan.need (!dstFlash E d || decide (10 ≤ E.d.ftl.spareNow)) 0x01A7
  pure d

/-- COPY (R330). -/
def copyPlan (E : Env) (x : Nat) : Plan Unit := do
  let d ← movIssue E x
  if dstFlash E d then
    let bs ← (List.range d.rows).mapM (fun r => rd E (d.src + r * d.srcPitch) d.rowBytes)
    wr E d.dst bs.flatten
  else
    (List.range d.rows).forM (fun r => do
      let bs ← rd E (d.src + r * d.srcPitch) d.rowBytes
      allOrNone (wr E (d.dst + r * d.dstPitch) bs))

/-- A pattern of 8 bytes repeated over `n` bytes. -/
def patternBytes (p n : Nat) : List Nat := (List.replicate (n / 8) (leBytes 8 p)).flatten

/-- FILL (R330). -/
def fillPlan (E : Env) (x : Nat) : Plan Unit := do
  let d ← movIssue E x
  (List.range d.rows).forM (fun r => allOrNone (wr E (d.dst + r * d.dstPitch) (patternBytes d.pattern d.rowBytes)))

/-- SLOT_OUT (R289, R331). -/
def slotOutPlan (E : Env) (x : Nat) : Plan Unit := do
  let d ← movIssue E x
  let n := d.rowBytes / 8
  (List.range d.rows).forM (fun r => do
    let ss ← rdCodes E (d.src + r * d.srcPitch) fINT64 0 n
    let vs := ss.map (fun s => Val.scale (decodeNum fINT64 s) d.slotExp)
    allOrNone (do
      wrVals E (d.dst + r * d.dstPitch) d.fmt { rnd := d.rnd, ovf := d.ovf, seed := d.seed, tag := d.tag, keepNeg := true } (r * n) 0 vs
      if d.clear then wr E (d.src + r * d.srcPitch) (List.replicate d.rowBytes 0) else pure ()))

end Sys2Proof.Machine
end

