-- ==== Sys2Proof/Machine/Seq.lean ====
section
/-! DEFINITION. The sequence engine (R345 to R375): entries and handles, the serving record, pools and page maps, commands,
builds, the deadline monitor, commits and aborts, and the mirroring of entries and rows (R526 to R531). -/

namespace Sys2Proof.Machine

/-- Why the engine's work ends early: an access met a fault at an address (R664), or pages that it must move are still read by a
started op (R152). -/
inductive DevStop where
  | fault (va : Nat)
  | wait
deriving DecidableEq, Repr, Inhabited

/-- Work of the engine for a context. -/
abbrev Dev (α : Type) := ExceptT DevStop (StateM State) α

namespace Dev

def upd (f : State → State) : Dev Unit := modify f

def rdD (c va n : Nat) (narrow : Bool := false) : Dev Nat := do
  let r := devRead (← get) c va n narrow
  set r.2
  match r.1 with
  | some x => pure x
  | none => throw (.fault va)

def wrD (c va : Nat) (bs : List Nat) (narrow : Bool := false) : Dev Unit := do
  match devWrite (← get) c va bs narrow with
  | some s => set s
  | none => throw (.fault va)

end Dev

/-! ## Entries (R346, R348) -/

def State.stream (s : State) (slot : Nat) : Stream := kvGet {} s.seq slot

def State.setStream (s : State) (slot : Nat) (x : Stream) : State := { s with seq := kvSet {} s.seq slot x }

def State.gen (s : State) (slot : Nat) : Nat := kvGet 0 s.gens slot

/-- The value of a field, whose width wraps it (log 82). -/
def field (w n : Nat) : Nat := n % 2 ^ w

def handleOf (s : State) (slot : Nat) : Nat := slot * 4096 + s.gen slot

def stWait : Nat := 1
def stReady : Nat := 2
def stPreempted : Nat := 3
def stDone : Nat := 4

/-- The 128 bytes of an entry as a number (R348); `st` is the `STATE` shown. -/
def streamWord (s : State) (slot st : Nat) : Nat :=
  let x := s.stream slot
  let g := x.cfg
  g.deadline * 2 ^ 960 + g.period * 2 ^ 928 + field 32 x.kvLen * 2 ^ 896 + g.target * 2 ^ 864 + g.mapOff * 2 ^ 832 + g.mapCap * 2 ^ 800 +
  g.chunk * 2 ^ 776 + field 8 x.pass * 2 ^ 768 + g.passes * 2 ^ 760 + g.dPasses * 2 ^ 752 + g.model * 2 ^ 744 + g.dModel * 2 ^ 736 +
  g.prio * 2 ^ 728 + x.ctx * 2 ^ 720 + g.dKind * 2 ^ 718 + g.modePin * 2 ^ 716 + x.mode * 2 ^ 715 + b2n g.pin * 2 ^ 714 +
  b2n g.mirror * 2 ^ 713 + field 3 st * 2 ^ 709 + s.gen slot * 2 ^ 697 + slot * 2 ^ 677 + x.note * 2 ^ 656 + field 32 x.alloc * 2 ^ 624 +
  x.preemptSeq * 2 ^ 592 + field 64 x.ticksRun * 2 ^ 528 + field 32 x.dChunks * 2 ^ 496 + field 32 x.lateChunks * 2 ^ 464 +
  field 64 x.lastTick * 2 ^ 400 + g.user * 2 ^ 336

/-- The entry of a slot as the table in HBM3E holds it (R345): a slot that was never written back is FREE. -/
def State.tableEntry (s : State) (slot : Nat) : Nat :=
  match kvGet 0 s.seqTable slot with
  | 0 => slot * 2 ^ 677
  | w + 1 => w + 1

/-- Writes the entry of a slot back to the table. -/
def writeBackEntry (s : State) (slot : Nat) : State :=
  { s with seqTable := kvSet 0 s.seqTable slot (streamWord s slot (s.stream slot).st) }

/-- Writes back the entries of a context, and those that have become FREE, at the end of a build or commit (R345, R347). -/
def writeBackEntries (s : State) (c : Nat) : State :=
  let slots := s.seq.map (·.1) ++ s.gens.map (·.1) ++ s.seqTable.map (·.1)
  (slots.filter (fun k => (s.stream k).ctx == c || (s.stream k).st == 0)).foldl writeBackEntry s

/-- An entry out of its 128 bytes. -/
def streamOf (w : Nat) : Stream :=
  { cfg := { deadline := bits w 1023 960, period := bits w 959 928, target := bits w 895 864, mapOff := bits w 863 832
             mapCap := bits w 831 800, chunk := bits w 799 776, passes := bits w 767 760, dPasses := bits w 759 752
             model := bits w 751 744, dModel := bits w 743 736, prio := bits w 735 728, dKind := bits w 719 718
             modePin := bits w 717 716, pin := bit w 714, mirror := bit w 713, user := bits w 399 336 }
    ctx := bits w 727 720, st := bits w 711 709, kvLen := bits w 927 896, pass := bits w 775 768, mode := bits w 715 715
    note := bits w 671 656, alloc := bits w 655 624, preemptSeq := bits w 623 592, ticksRun := bits w 591 528
    dChunks := bits w 527 496, lateChunks := bits w 495 464, lastTick := bits w 463 400 }

/-! ## The serving record and model records (R349 to R351) -/

def State.srv (s : State) (c : Nat) : Serve := kvGet {} s.serve c

def State.setSrv (s : State) (c : Nat) (x : Serve) : State := { s with serve := kvSet {} s.serve c x }

def srRing (r : Nat) : Nat := bits r 1023 968
def srLog2 (r : Nat) : Nat := bits r 967 960
def srTickBuf (r : Nat) : Nat := bits r 959 904
def srMapBase (r : Nat) : Nat := bits r 903 848
def srMapStride (r : Nat) : Nat := bits r 847 816
def srLayers (r : Nat) : Nat := bits r 815 808
def srHbmPool (r : Nat) : Nat := bits r 807 752
def srHbmCap (r : Nat) : Nat := bits r 751 720
def srHostPool (r : Nat) : Nat := bits r 719 664
def srHostCap (r : Nat) : Nat := bits r 663 632
def srModels (r : Nat) : Nat := bits r 631 576
def srModelCount (r : Nat) : Nat := bits r 575 568
def srMaxSeqs (r : Nat) : Nat := bits r 567 560
def srMaxRows (r : Nat) : Nat := bits r 559 536
def srMarginUs (r : Nat) : Nat := bits r 535 504
def srReturnUs (r : Nat) : Nat := bits r 503 472
def srEstInit (r : Nat) : Nat := bits r 471 440
def srBucketTicks (r : Nat) : Nat := bits r 439 432
def srSwapIn (r : Nat) : Nat := bits r 431 416

/-- Ranges and alignments of R349, R350. -/
def serveRecOk (r : Nat) : Bool :=
  srRing r % 64 == 0 && decide (4 ≤ srLog2 r) && decide (srLog2 r ≤ 16) && srTickBuf r % 4096 == 0 && srMapBase r % 8 == 0 &&
  srLayers r != 0 && srHbmPool r % 8 == 0 && srHostPool r % 8 == 0 && srModels r % 32 == 0 && srModelCount r != 0 &&
  decide (1 ≤ srMaxSeqs r) && decide (srMaxSeqs r ≤ 128) && srMaxRows r != 0 && decide (srMarginUs r ≤ srReturnUs r) &&
  srEstInit r != 0 && bits r 415 0 == 0

def mHeads (m : Nat) : Nat := bits m 255 248
def mHeadDim (m : Nat) : Nat := bits m 247 238
def mVDim (m : Nat) : Nat := bits m 237 228
def mKFmt (m : Nat) : Nat := bits m 227 223
def mVFmt (m : Nat) : Nat := bits m 222 218
def mByPos (m : Nat) : Bool := bit m 217
def mCost (m : Nat) : Nat := bits m 207 192
def mSpan (m : Nat) : Nat := bits m 191 160
def mRank (m : Nat) : Nat := bits m 159 152
def mMembers (m : Nat) : Nat := bits m 151 144

/-- Bytes of a K row and of a V row. -/
def mKRow (m : Nat) : Nat := mHeadDim m * (fmtBits (mKFmt m) / 8)
def mVRow (m : Nat) : Nat := mVDim m * (fmtBits (mVFmt m) / 8)

/-- Positions per page (R150). -/
def mPP (m : Nat) : Nat := 65536 / (mKRow m + mVRow m)

def modelOk (m : Nat) : Bool :=
  let dim (x : Nat) : Bool := x % 16 == 0 && decide (16 ≤ x) && decide (x ≤ 512)
  let fmt (f : Nat) : Bool := [fBF16, fFP16, fE4M3, fE5M2].contains f
  decide (1 ≤ mHeads m) && decide (mHeads m ≤ 64) && dim (mHeadDim m) && dim (mVDim m) && fmt (mKFmt m) && fmt (mVFmt m) &&
  65536 % (mKRow m + mVRow m) == 0 && mPP m == 2 ^ Nat.log2 (mPP m) && decide (16 ≤ mPP m) && decide (mPP m ≤ 4096) &&
  mCost m != 0 && bits m 216 208 == 0 && bits m 143 0 == 0 &&
  (if mByPos m then mSpan m != 0 && mSpan m % 128 == 0 && mSpan m % mPP m == 0 && decide (2 ≤ mMembers m) && decide (mRank m < mMembers m)
   else mSpan m == 0 && mRank m == 0 && mMembers m == 0)

/-- The model record of a stream. -/
def modelOf (v : Serve) (x : Stream) : Nat := v.models.getD x.cfg.model 0

/-- Keys that this member holds of a global length (R359). -/
def localKeys (m n : Nat) : Nat :=
  if !mByPos m then n
  else
    let k := n - mRank m * mSpan m
    if mRank m + 1 < mMembers m then min k (mSpan m) else k

/-! ## Pools and page maps (R354, R355) -/

inductive Pool where
  | hbm | host | mirror
deriving DecidableEq, Repr, Inhabited

def poolOf (s : State) (c : Nat) : Pool → FreeList
  | .hbm => (s.srv c).hbm
  | .host => (s.srv c).host
  | .mirror => kvGet {} s.mpools c

/-- Free pages of a pool. -/
def FreeList.free (l : FreeList) : Nat := l.count + l.extra.length

def setPool (s : State) (c : Nat) (p : Pool) (l : FreeList) : State :=
  match p with
  | .hbm => s.setSrv c { s.srv c with hbm := l }
  | .host => s.setSrv c { s.srv c with host := l }
  | .mirror => { s with mpools := kvSet {} s.mpools c l }

/-- Puts a page into a pool: into the pool's array, where that has room (R350, log 64). -/
def givePage (c : Nat) (p : Pool) (va : Nat) : Dev Unit := do
  let l := poolOf (← get) c p
  if l.count < l.cap then do
    Dev.wrD c (l.base + 8 * l.count) (leBytes 8 va)
    Dev.upd (fun s => setPool s c p { l with count := l.count + 1 })
  else Dev.upd (fun s => setPool s c p { l with extra := va :: l.extra })

/-- Takes the next page out of a pool, none where it is empty. -/
def nextPage (c : Nat) (p : Pool) : Dev (Option Nat) := do
  let l := poolOf (← get) c p
  match l.extra, l.count with
  | va :: rest, _ => do
    Dev.upd (fun s => setPool s c p { l with extra := rest })
    pure (some va)
  | [], 0 => pure none
  | [], n + 1 => do
    let va ← Dev.rdD c (l.base + 8 * n) 8
    Dev.upd (fun s => setPool s c p { l with count := n })
    pure (some va)

/-- Whether a page may be used (R354). -/
def pageGood (s : State) (c : Nat) (p : Pool) (va : Nat) : Bool :=
  match translate (s.env c) va 1 true with
  | .ok pl => pl.tier == (if p = .host then 2 else 1)
  | .error _ => false

def poolCode (p : Pool) : Nat := match p with | .hbm => 0 | .host => 1 | .mirror => 2

/-- A page that may not be used is dropped from its pool (R354). -/
def rejectPage (c : Nat) (p : Pool) (va : Nat) (s : State) : State :=
  (s.bump kPoolRejectCount 1).log
    { source := 0x4112, code := 0x4112, sev := 1, ctx := c, data := dataAt 584 va + dataAt 576 (poolCode p) }

/-- Takes `n` usable pages, dropping unusable ones, from a pool of at most the given number; none where the pool runs out, with
the usable ones given back. -/
def takePages (c : Nat) (p : Pool) : Nat → Nat → List Nat → Dev (Option (List Nat))
  | _, 0, got => pure (some got.reverse)
  | 0, _ + 1, got => do
    got.forM (givePage c p)
    pure none
  | f + 1, n + 1, got => do
    match ← nextPage c p with
    | none => do
      got.forM (givePage c p)
      pure none
    | some va =>
      if pageGood (← get) c p va then takePages c p f n (va :: got)
      else do
        Dev.upd (rejectPage c p va)
        takePages c p f (n + 1) got

/-- Takes `n` pages, all or none (R354, R366). -/
def takeN (c : Nat) (p : Pool) (n : Nat) : Dev (Option (List Nat)) := do
  takePages c p (poolOf (← get) c p).free n []

/-- The address of a map entry (R355). -/
def mapAddr (v : Serve) (x : Stream) (layer b g : Nat) : Nat :=
  srMapBase v.record + 8 * (layer * srMapStride v.record + x.cfg.mapOff + b * mHeads (modelOf v x) + g)

/-- The map entries of a stream's blocks `b0` to `b1 - 1`, layer by layer. -/
def mapEntries (v : Serve) (x : Stream) (b0 b1 : Nat) : List Nat :=
  (List.range (srLayers v.record)).flatMap (fun l =>
    (List.range (b1 - b0)).flatMap (fun b => (List.range (mHeads (modelOf v x))).map (fun g => mapAddr v x l (b0 + b) g)))

/-- The pages of a stream: map entry and page, entries of 0 left out. -/
def pagesOf (c : Nat) (v : Serve) (x : Stream) (blocks : Nat) : Dev (List (Nat × Nat)) := do
  let l ← (mapEntries v x 0 blocks).mapM (fun a => do pure (a, ← Dev.rdD c a 8 true))
  pure (l.filter (fun p => p.2 != 0))

/-- Returns a stream's pages to a pool and clears its map entries (R363). -/
def freePages (c : Nat) (v : Serve) (x : Stream) (blocks : Nat) (pool : Pool) : Dev Unit := do
  let ps ← pagesOf c v x blocks
  ps.forM (fun p => do
    givePage c pool p.2
    Dev.wrD c p.1 (leBytes 8 0) true)

/-- The page-map entries that a started op reads: those of the keys of a paged ATT or ATG (R150, R152). -/
def entriesRead (s : State) (o : Op) : List Nat :=
  let d := attDesc o.desc
  if (hOpc o.desc = 0x03 ∨ hOpc o.desc = 0x04) ∧ d.paged then
    match peek s o.ctx d.aux 128, peek s o.ctx d.len (32 * d.seqs) with
    | some a, some t =>
      (List.range d.seqs).flatMap (fun i =>
        let e := seqEnt (bits t (256 * i + 255) (256 * i))
        (List.range (ceilDiv e.kvLen d.pp * d.kvHeads)).map (fun k => (attAux a).page + 8 * (e.kvStart + k)))
    | _, _ => []
  else []

/-- Whether a started op of the context reads a page by one of these map entries (R152). -/
def pagesBusy (s : State) (c : Nat) (entries : List Nat) : Bool :=
  s.ops.any (fun o => o.ctx == c && o.phase == .started && (entriesRead s o).any entries.contains)

/-- Copies pages to new ones, rewrites their map entries, and returns the old pages to their pool (R366, R367); the engine waits
while a started op reads one (R152, log 83). -/
def movePages (c : Nat) (old : List (Nat × Nat)) (new : List Nat) (oldPool : Pool) : Dev Unit := do
  if pagesBusy (← get) c (old.map (·.1)) then throw .wait
  (old.zip new).forM (fun p => do
    let x ← Dev.rdD c p.1.2 65536
    Dev.wrD c p.2 (leBytes 65536 x)
    Dev.wrD c p.1.1 (leBytes 8 p.2) true
    givePage c oldPool p.1.2)

/-- Pre-empts a stream (R366 step 1); false where the host pool cannot take its pages. -/
def swapOut (c slot : Nat) : Dev Bool := do
  let s ← get
  let v := s.srv c
  let x := s.stream slot
  let ps ← pagesOf c v x x.alloc
  match ← takeN c .host ps.length with
  | none => pure false
  | some new => do
    movePages c ps new .hbm
    Dev.upd (fun s =>
      let n := ((s.srv c).preemptSeq + 1) % 2 ^ 32
      let s1 := s.setSrv c { s.srv c with preemptSeq := n }
      ((s1.setStream slot { x with st := stPreempted, resume := x.st, note := 0x0501, preemptSeq := n }).bump kPreemptCount 1).bump
        kSwapOutPages ps.length)
    pure true

/-! ## Commands (R362 to R364) -/

def cmdCfg (w : Nat) : StreamCfg :=
  { deadline := bits w 471 408, period := bits w 407 376, target := bits w 375 344, mapOff := bits w 343 312
    mapCap := bits w 311 280, chunk := bits w 279 256, passes := bits w 255 248, dPasses := bits w 247 240
    model := bits w 239 232, dModel := bits w 231 224, prio := bits w 223 216, dKind := bits w 215 214
    modePin := bits w 213 212, pin := bit w 211, mirror := bit w 210, user := bits w 207 144 }

/-- Ranges of the stream fields and R352. -/
def cfgOk (v : Serve) (g : StreamCfg) : Bool :=
  let m := v.models.getD g.model 0
  let d := v.models.getD g.dModel 0
  g.chunk != 0 && g.passes != 0 && g.dPasses != 0 && g.dKind != 3 && g.modePin != 3 && decide (g.model < v.models.length) &&
  (g.dKind != 2 || (decide (g.dModel < v.models.length) && bits m 255 217 == bits d 255 217 && bits m 191 144 == bits d 191 144))

/-- Reserved and unused fields of a command are zero (R362). -/
def cmdFormOk (w : Nat) : Bool :=
  let opc := bits w 511 504
  decide (1 ≤ opc) && decide (opc ≤ 7) && bits w 209 208 == 0 && bits w 143 0 == 0 &&
  (if opc ≤ 2 then true else if opc = 7 then bits w 375 144 == 0 else bits w 471 144 == 0)

def ignoreSeq (s : State) : State := s.bump kSeqIgnoredCount 1

/-- One command of the ring (R363, R364); format faults come before the generation. -/
def runCommand (c w : Nat) : Dev Unit := do
  let s ← get
  let v := s.srv c
  let opc := bits w 511 504
  let slot := bits w 503 484
  let x := s.stream slot
  let g := cmdCfg w
  if !cmdFormOk w then Dev.upd ignoreSeq
  else if bits w 483 472 ≠ s.gen slot then Dev.upd (fun s => s.bump kSeqStaleCount 1)
  else if x.st ≠ 0 ∧ (x.ctx ≠ c ∨ 5 ≤ x.st) then Dev.upd ignoreSeq
  else match opc with
    | 1 => if x.st = 0 ∧ cfgOk v g then Dev.upd (fun s => s.setStream slot { cfg := g, ctx := c, st := stWait }) else Dev.upd ignoreSeq
    | 2 => if x.st = stWait ∧ cfgOk v g then Dev.upd (fun s => s.setStream slot { x with cfg := g }) else Dev.upd ignoreSeq
    | 3 => if x.st = stWait then Dev.upd (fun s => s.setStream slot { x with st := stReady })
           else if x.st = stPreempted then Dev.upd (fun s => s.setStream slot { x with resume := stReady })
           else Dev.upd ignoreSeq
    | 4 => if x.st = stReady then Dev.upd (fun s => s.setStream slot { x with st := stWait })
           else if x.st = stPreempted then Dev.upd (fun s => s.setStream slot { x with resume := stWait })
           else Dev.upd ignoreSeq
    | 5 =>
      if x.st = 0 then Dev.upd ignoreSeq
      else do
        freePages c v x x.alloc (if x.st = stPreempted then .host else .hbm)
        Dev.upd (fun s => { s.setStream slot {} with gens := kvSet 0 s.gens slot ((s.gen slot + 1) % 4096) })
    | 6 =>
      if (x.st = stWait ∨ x.st = stReady) ∧ !x.cfg.pin then do
        if !(← swapOut c slot) then Dev.upd ignoreSeq
      else Dev.upd ignoreSeq
    | _ => if x.st = 0 then Dev.upd ignoreSeq
           else Dev.upd (fun s => s.setStream slot { x with cfg := { x.cfg with deadline := g.deadline, period := g.period } })

/-- The commands from the consumer index up to the producer (R360). -/
def runCommands (c : Nat) : Nat → Dev Unit
  | 0 => pure ()
  | n + 1 => do
    let v := (← get).srv c
    let w ← Dev.rdD c (srRing v.record + 64 * (v.cons % 2 ^ srLog2 v.record)) 64
    runCommand c w
    Dev.upd (fun s => s.setSrv c { s.srv c with cons := ((s.srv c).cons + 1) % 2 ^ 32 })
    runCommands c n

/-! ## The deadline monitor (R370, R371) -/

/-- Query rows of the next tick (R365). -/
def rowsOf (x : Stream) : Nat := if x.cfg.target = 0 then x.cfg.chunk else min x.cfg.chunk (x.cfg.target - x.kvLen)

/-- 256 × the predicted finish under a mode. -/
def finish256 (v : Serve) (x : Stream) (now mode : Nat) : Int :=
  let p := if mode = 1 then x.cfg.dPasses else x.cfg.passes
  let m := if mode = 1 ∧ x.cfg.dKind = 2 then v.models.getD x.cfg.dModel 0 else modelOf v x
  let n := if x.cfg.period ≠ 0 ∨ x.cfg.target = 0 then 1 else ceilDiv (x.cfg.target - x.kvLen) x.cfg.chunk
  256 * (now : Int) + ((n * p : Nat) - (x.pass : Int)) * (v.est * mCost m : Nat)

/-- 256 × the slack; none stands for +∞. -/
def slack256 (v : Serve) (x : Stream) (now : Nat) : Option Int :=
  if x.cfg.deadline = 0 then none else some (256 * (x.cfg.deadline : Int) - finish256 v x now 0)

def slackLt : Option Int → Option Int → Bool
  | some a, some b => decide (a < b)
  | some _, none => true
  | none, _ => false

/-- The mode of a chunk (R369, R371). -/
def modeFor (v : Serve) (x : Stream) (now : Nat) (bucket : Bool) : Nat :=
  if x.cfg.modePin = 1 then 0
  else if x.cfg.modePin = 2 then 1
  else if bucket then x.mode
  else if x.cfg.dKind = 0 ∨ x.cfg.deadline = 0 then 0
  else
    let f := finish256 v x now 0
    let D : Int := 256 * x.cfg.deadline
    if x.mode = 0 then b2n (decide (D - 256000 * srMarginUs v.record < f)) else b2n (!decide (f ≤ D - 256000 * srReturnUs v.record))

/-- Step 5 of R365 for one stream. -/
def setMode (c slot now : Nat) (bucket : Bool) (s : State) : State :=
  let v := s.srv c
  let x := s.stream slot
  if x.pass ≠ 0 then s
  else
    let m := modeFor v x now bucket
    let s1 := if m = x.mode then s else s.bump (if m = 1 then kDrogueSwitchCount else kPrimaryReturnCount) 1
    let s2 := s1.setStream slot { x with mode := m }
    if m = 1 ∧ x.cfg.deadline ≠ 0 ∧ 256 * (x.cfg.deadline : Int) < finish256 v x now 1 then s2.bump kDlAtRiskCount 1 else s2

/-! ## Building (R365 to R369) -/

/-- The bucket of a key length (R369). -/
def bucketNo (n : Nat) : Nat := clog2 n - 8

/-- Streams of a context in a state, by slot. -/
def streamsIn (s : State) (c : Nat) (p : Stream → Bool) : List (Nat × Stream) :=
  s.seq.filter (fun q => q.2.ctx == c && decide (1 ≤ q.2.st) && decide (q.2.st ≤ 4) && p q.2)

/-- Order of resumption: descending `PRIO`, then ascending `PREEMPT_SEQ` (R367). -/
def resumeOrder (s : State) (c : Nat) : List Nat :=
  ((streamsIn s c (fun x => x.st == stPreempted)).insertionSort (fun a b =>
    b.2.cfg.prio < a.2.cfg.prio ∨ (a.2.cfg.prio = b.2.cfg.prio ∧ a.2.preemptSeq ≤ b.2.preemptSeq))).map (·.1)

/-- Step 1: resumes streams in order, stopping at the first that does not fit. -/
def resumeAll (c : Nat) : List Nat → Nat → Dev Unit
  | [], _ => pure ()
  | slot :: rest, left => do
    let s ← get
    let v := s.srv c
    let x := s.stream slot
    let ps ← pagesOf c v x x.alloc
    let keep := srLayers v.record * mHeads (modelOf v x)
    if v.hbm.free < ps.length + keep ∨ left < ps.length then pure ()
    else match ← takeN c .hbm ps.length with
      | none => pure ()
      | some new => do
        movePages c ps new .host
        Dev.upd (fun s => (s.setStream slot { x with st := x.resume }).bump kSwapInPagesDone ps.length)
        resumeAll c rest (left - ps.length)

/-- Step 4: takes streams in order within `MAX_SEQS` and `MAX_Q_ROWS`. -/
def takeStreams (maxSeqs maxRows : Nat) : List (Nat × Nat) → List (Nat × Nat) → Nat → List (Nat × Nat)
  | [], got, _ => got
  | p :: rest, got, rows =>
    if maxSeqs ≤ got.length then got
    else if maxRows < rows + p.2 then takeStreams maxSeqs maxRows rest got rows
    else takeStreams maxSeqs maxRows rest (got ++ [p]) (rows + p.2)

/-- The victim of R366 step 1: lowest `PRIO`, then largest slack, then highest slot. -/
def victimOf (s : State) (c now slot : Nat) (taken : List Nat) : Option Nat :=
  let v := s.srv c
  let prio := (s.stream slot).cfg.prio
  let cands := (streamsIn s c (fun x => (x.st == stWait || x.st == stReady) && !x.cfg.pin && decide (x.cfg.prio ≤ prio) && !x.orphan)).filter
    (fun q => q.1 != slot && !taken.contains q.1)
  (cands.foldl (fun (b : Option (Nat × Stream)) q =>
    match b with
    | none => some q
    | some y =>
      let worse := decide (q.2.cfg.prio < y.2.cfg.prio) ||
        (q.2.cfg.prio == y.2.cfg.prio && (slackLt (slack256 v y.2 now) (slack256 v q.2 now) ||
          (slack256 v y.2 now == slack256 v q.2 now && decide (y.1 < q.1))))
      if worse then some q else b) none).map (·.1)

/-- Pages for a stream, pre-empting victims while the pool holds too few (R366 steps 1 and 2). -/
def growPages (c now slot need : Nat) (taken : List Nat) : Nat → Dev (Option (List Nat))
  | 0 => takeN c .hbm need
  | f + 1 => do
    let s ← get
    match ← (if need ≤ (s.srv c).hbm.free then takeN c .hbm need else pure none) with
    | some ps => pure (some ps)
    | none => do
      match victimOf (← get) c now slot taken with
      | none => pure none
      | some v => do
        if ← swapOut c v then growPages c now slot need taken f else pure none

/-- Step 6 for one stream: whether it stays in the tick. -/
def allocFor (c now : Nat) (taken : List Nat) (slot q : Nat) : Dev Bool := do
  let s ← get
  let v := s.srv c
  let x := s.stream slot
  let m := modelOf v x
  let blocks := ceilDiv (localKeys m (x.kvLen + q)) (mPP m)
  if x.pass ≠ 0 ∨ blocks ≤ x.alloc then pure true
  else if x.cfg.mapCap < blocks * mHeads m then do
    Dev.upd (fun s => (s.setStream slot { x with note := 0x0502, st := stWait }).bump kMapFullCount 1)
    pure false
  else
    match ← growPages c now slot ((blocks - x.alloc) * (srLayers v.record * mHeads m)) taken (s.seq.length + 1) with
    | some ps => do
      let es := mapEntries v x x.alloc blocks
      Dev.upd (fun s => s.setSrv c { s.srv c with tick := (s.srv c).tick.map (fun t =>
        { t with pages := t.pages ++ (es.zip ps).map (fun p => (slot, p.1, p.2)) }) })
      (es.zip ps).forM (fun p => Dev.wrD c p.1 (leBytes 8 p.2) true)
      Dev.upd (fun s => s.setStream slot { s.stream slot with alloc := blocks })
      pure true
    | none => do
      Dev.upd (fun s => s.bump kKvHeldCount 1)
      let gone ← (if x.cfg.pin then pure false else swapOut c slot)
      if !gone then Dev.upd (fun s => s.setStream slot { s.stream slot with note := 0x0503 })
      pure false

def leAt (w k v : Nat) : Nat := v % 2 ^ (8 * w) * 2 ^ (8 * k)

/-- The tick buffer as a number (R368), without `BUILD_NO`. -/
def tickBuffer (s : State) (c : Nat) (work : List (Nat × Nat)) (bucket : Bool) : Nat :=
  let v := s.srv c
  let starts := work.foldl (fun (a : List Nat × Nat) p => (a.1 ++ [a.2], a.2 + p.2)) ([], 0)
  let rows := (List.range work.length).map (fun i => (i, (work.getD i (0, 0)).1, (work.getD i (0, 0)).2, starts.1.getD i 0))
  let keyLen := fun (slot q : Nat) => (s.stream slot).kvLen + q
  let table := (List.range 25).map (fun b =>
    let mine := rows.filter (fun r => bucketNo (keyLen r.2.1 r.2.2.1) == b)
    (((mine.head?).map (·.1)).getD 0, mine.length))
  let entry := fun (r : Nat × Nat × Nat × Nat) =>
    let x := s.stream r.2.1
    let m := modelOf v x
    let n := keyLen r.2.1 r.2.2.1
    let used := if x.mode = 1 ∧ x.cfg.dKind = 2 then x.cfg.dModel else x.cfg.model
    let passes := if x.mode = 1 then x.cfg.dPasses else x.cfg.passes
    let flags := x.mode + 2 * b2n (x.pass == 0) + 4 * b2n (x.pass + 1 == passes)
    leAt 4 (256 + 16 * r.1) (handleOf s r.2.1) + leAt 1 (260 + 16 * r.1) used + leAt 1 (261 + 16 * r.1) x.pass +
    leAt 1 (262 + 16 * r.1) flags + leAt 4 (264 + 16 * r.1) n +
    leAt 4 (2304 + 32 * r.1) r.2.2.2 + leAt 4 (2308 + 32 * r.1) r.2.2.1 + leAt 4 (2312 + 32 * r.1) x.cfg.mapOff +
    leAt 4 (2316 + 32 * r.1) (localKeys m n) + leAt 4 (2320 + 32 * r.1) (n - r.2.2.1) +
    leAt 4 (2324 + 32 * r.1) (if mByPos m then mRank m * mSpan m else 0)
  leAt 4 8 starts.2 + leAt 2 12 work.length + leAt 2 14 (b2n bucket) +
  ((List.range 25).map (fun b => leAt 2 (64 + 4 * b) (table.getD b (0, 0)).1 + leAt 2 (66 + 4 * b) (table.getD b (0, 0)).2)).sum +
  (rows.map entry).sum

/-- Filters the taken streams by step 6, in the order taken. -/
def allocAll (c now : Nat) (taken : List Nat) : List (Nat × Nat) → Dev (List (Nat × Nat))
  | [] => pure []
  | p :: rest => do
    let ok ← allocFor c now taken p.1 p.2
    let more ← allocAll c now taken rest
    pure (if ok then p :: more else more)

/-- The order of step 3. -/
def buildOrder (v : Serve) (l : List (Nat × Stream)) (now : Nat) (bucket : Bool) : List (Nat × Stream) :=
  l.insertionSort (fun a b =>
    if bucket then
      let x := bucketNo (a.2.kvLen + rowsOf a.2)
      let y := bucketNo (b.2.kvLen + rowsOf b.2)
      x < y ∨ (x = y ∧ a.1 ≤ b.1)
    else
      let p := slack256 v a.2 now
      let q := slack256 v b.2 now
      slackLt p q = true ∨ (p = q ∧ (b.2.cfg.prio < a.2.cfg.prio ∨ (b.2.cfg.prio = a.2.cfg.prio ∧ a.1 ≤ b.1))))

/-- A BUILD whose doorbell has been accepted: commands, then the seven steps (R360, R365). -/
def buildTick (c producer : Nat) : Dev Unit := do
  let s0 ← get
  let now := s0.time
  runCommands c ((producer + 2 ^ 32 - (s0.srv c).cons) % 2 ^ 32)
  Dev.upd (fun s => s.setSrv c { s.srv c with tick := some { builtAt := now } })
  let s1 ← get
  resumeAll c (resumeOrder s1 c) (srSwapIn (s1.srv c).record)
  let s2 ← get
  let v := s2.srv c
  let bucket := s2.obj (objKey c kBucketMode) == 1
  let ready := streamsIn s2 c (fun x => x.st == stReady && !x.orphan)
  let taken := takeStreams (srMaxSeqs v.record) (srMaxRows v.record)
    ((buildOrder v ready now bucket).map (fun p => (p.1, rowsOf p.2))) [] 0
  Dev.upd (fun s => s.setSrv c { s.srv c with tick := (s.srv c).tick.map (fun t => { t with saved := taken.map (fun p => (p.1, s2.stream p.1)) }) })
  taken.forM (fun p => Dev.upd (setMode c p.1 now bucket))
  let work ← allocAll c now (taken.map (·.1)) taken
  Dev.upd (fun s => s.setSrv c { s.srv c with tick := (s.srv c).tick.map (fun t => { t with work := work }) })
  let s3 ← get
  Dev.wrD c (srTickBuf v.record + 8) (leBytes 8184 (tickBuffer s3 c work bucket / 2 ^ 64))
  let no := (s3.srv c).buildNo + 1
  Dev.wrD c (srTickBuf v.record) (leBytes 8 no)
  Dev.upd (fun s => s.setSrv c { s.srv c with buildNo := no })
  Dev.upd (fun s => writeBackEntries s c)

/-! ## Commit and abort (R370, R373, R374) -/

/-- Whether a commit completes the chunk of a stream. -/
def completes (x : Stream) : Bool := x.pass + 1 == (if x.mode = 1 then x.cfg.dPasses else x.cfg.passes)

/-- R373 for one stream of the tick; `at_` is the commit's arrival and `no` its tick number. -/
def commitStream (at_ no : Nat) (s : State) (p : Nat × Nat) : State :=
  let x := s.stream p.1
  let s1 :=
    if completes x then
      let late := x.cfg.deadline != 0 && decide (x.cfg.deadline < at_)
      let kv := x.kvLen + p.2
      let y : Stream := { x with
        kvLen := kv, pass := 0, dChunks := x.dChunks + x.mode, lateChunks := x.lateChunks + b2n late
        note := if late then 0x0504 else x.note
        cfg := { x.cfg with deadline := (x.cfg.deadline + x.cfg.period) % 2 ^ 64 }
        st := if x.cfg.target ≠ 0 ∧ x.cfg.target ≤ kv then stDone else x.st }
      (s.setStream p.1 y).bump kDlLateCount (b2n late)
    else s.setStream p.1 { x with pass := x.pass + 1 }
  s1.setStream p.1 { s1.stream p.1 with ticksRun := x.ticksRun + 1, lastTick := no }

/-- The commit takes effect (R229, R369, R370, R373); the second part is the address of an access that met a fault. -/
def commitTick (c at_ : Nat) (s : State) : State × Option Nat :=
  let v := s.srv c
  match v.tick with
  | none => (s, none)
  | some t =>
    let no := v.tickNo + 1
    let s1 := t.work.foldl (commitStream at_ no) s
    let d : Int := (at_ : Int) - t.builtAt
    let est := ((v.est : Int) + (d - v.est) / 8).toNat
    let left := v.bucketLeft - 1
    let s2 := s1.setSrv c { s1.srv c with tick := none, tickNo := no, est := est, bucketLeft := left, commitAt := none, acks := [], dropped := [] }
    let s3 := if v.bucketLeft = 1 then s2.setObj (objKey c kBucketMode) 0 else s2
    stepBoundary (writeBackEntries (s3.bump (objKey c kAcctTicks) 1) c) c

/-- ABORT (R374): pages taken in the build return to the HBM pool, and streams keep what they had before it. -/
def abortTick (c : Nat) : Dev Unit := do
  let s ← get
  match (s.srv c).tick with
  | none => pure ()
  | some t => do
    Dev.upd (fun s =>
      let s1 := s.setSrv c { s.srv c with tick := none, commitAt := none, acks := [], dropped := [] }
      t.saved.foldl (fun s p =>
        let y := s.stream p.1
        let x := p.2
        let taken := (t.pages.filter (fun q => q.1 == p.1)).length
        s.setStream p.1 { y with kvLen := x.kvLen, pass := x.pass, mode := x.mode
                                 cfg := { y.cfg with deadline := x.cfg.deadline }
                                 alloc := if taken = 0 then y.alloc else x.alloc }) s1)
    t.pages.forM (fun p => do
      givePage c .hbm p.2.2
      Dev.wrD c p.2.1 (leBytes 8 0) true)

/-! ## Mirroring (R528 to R530) -/

/-- The `STATE` that a mirrored entry has for its partner's (R528), and the one it takes up at a takeover. -/
def mirrorState (st : Nat) : Nat := if st = stDone then 7 else st + 4

def adoptedState (st : Nat) : Nat := if st = 7 then stDone else st - 4

/-- The `STATE` under which an entry is sent: a PREEMPTED stream counts as the state it resumes into. -/
def sentState (x : Stream) : Nat := if x.st = stPreempted then x.resume else x.st

/-- Sends one MIRROR packet of a kind and returns its number (R529; kinds: 0 entry, 1 rows, 2 ticket). -/
def sendMirror (s : State) (c kind : Nat) (bs : List Nat) : State :=
  let s1 := sendTether s 11 kind s.twin.seq false bs
  (({ s1 with twin := { s1.twin with seq := s1.twin.seq + 1 } }).bump kMirrorBytes bs.length).bump (objKey c kAcctBytesFabric) bs.length

/-- Sends every entry of a serving context that differs from what it was, while paired (R529, R538). -/
def mirrorEntries (c : Nat) (before : State) (s : State) : State :=
  if s.twin.st ≠ 2 then s
  else
    let slots := ((before.seq ++ s.seq).filter (fun p => p.2.ctx == c && decide (p.2.st ≤ 4))).map (·.1)
    (slots.dedup.filter (fun k => before.stream k != s.stream k)).foldl
      (fun s k => sendMirror s c 0 (leBytes 4 k ++ leBytes 128 (streamWord s k (sentState (s.stream k))))) s

/-- The MIRROR contents for a completed chunk of `q` positions: for each layer, block and head the slot, layer, block, head,
first row, rows, the K rows and the V rows (R353, R530; layout log 40). -/
def mirrorPieces (c slot : Nat) (v : Serve) (x : Stream) (q : Nat) : Dev (List (List Nat)) := do
  let m := modelOf v x
  let lo := localKeys m x.kvLen
  let hi := localKeys m (x.kvLen + q)
  let first := lo / mPP m
  let spots := (List.range (srLayers v.record)).flatMap (fun l => (List.range (ceilDiv hi (mPP m) - first)).flatMap (fun i =>
    (List.range (mHeads m)).map (fun g => (l, first + i, g))))
  if hi ≤ lo then pure []
  else spots.mapM (fun p => do
    let page ← Dev.rdD c (mapAddr v x p.1 p.2.1 p.2.2) 8 true
    let a := max lo (p.2.1 * mPP m) % mPP m
    let n := min hi ((p.2.1 + 1) * mPP m) - max lo (p.2.1 * mPP m)
    let k ← Dev.rdD c (page + a * mKRow m) (n * mKRow m)
    let w ← Dev.rdD c (page + mPP m * mKRow m + a * mVRow m) (n * mVRow m)
    pure (leBytes 4 slot ++ leBytes 1 p.1 ++ leBytes 4 p.2.1 ++ leBytes 1 p.2.2 ++ leBytes 2 a ++ leBytes 2 n ++
      leBytes (n * mKRow m) k ++ leBytes (n * mVRow m) w))

end Sys2Proof.Machine
end

