-- ==== Sys2Proof/Machine/OpPlan.lean ====
section
/-! DEFINITION. The form of an op, the working of its form, and the region that it writes (R480). -/

namespace Sys2Proof.Machine

/-- The forms of ops, one for each op command. -/
inductive Form where
  | mma | mmg | mmgIndex | att | atgStat | atgGrad | cnv | cnt | vec | eval | mul | sincos | rope | load | rms | rmsBack | smx
  | upd | psh | pop | mrkOpen | mrkClose | mrkDrop | copy | fill | slotOut | pftRun | pftCancel | fnc | bcs | rdo | rdoAll
  | mdc | men | ing | ingAligned | ingStamped
deriving DecidableEq, Repr, Inhabited

/-- The form that a descriptor selects; none where a selector names no form. -/
def formOf (x : Nat) : Option Form :=
  match hOpc x with
  | 0x01 => some .mma
  | 0x02 => some (if (mmgDesc x).xFmt = fINT32 then .mmgIndex else .mmg)
  | 0x03 => some .att
  | 0x04 => some (if bit x 591 then .atgGrad else .atgStat)
  | 0x05 => some .cnv
  | 0x06 => some .cnt
  | 0x07 => some .vec
  | 0x08 => match (rowDesc x).fn with
    | 0 => some .eval
    | 1 => some .mul
    | 2 => some .sincos
    | 3 => some .rope
    | 4 => some .load
    | _ => none
  | 0x09 => some (if (rowDesc x).aux1 = 0 then .rms else .rmsBack)
  | 0x0A => some .smx
  | 0x10 => some .upd
  | 0x11 => some .psh
  | 0x12 => some .pop
  | 0x13 => match (reelDesc x).act with
    | 0 => some .mrkOpen
    | 1 => some .mrkClose
    | 2 => some .mrkDrop
    | _ => none
  | 0x14 => match (movDesc x).mode with
    | 0 => some .copy
    | 1 => some .fill
    | 2 => some .slotOut
    | _ => none
  | 0x15 => some (if bit x 228 then .pftCancel else .pftRun)
  | 0x16 => some .fnc
  | 0x20 => some .bcs
  | 0x21 => some (if bit x 716 then .rdoAll else .rdo)
  | 0x30 => some .mdc
  | 0x31 => some .men
  | 0x32 => match (ingDesc x).live with
    | 0 => some .ing
    | 1 => some .ingAligned
    | 2 => some .ingStamped
    | _ => none
  | _ => none

/-- What the layer of an op was when it started (R226, R228, R230). -/
def layerStart (o : Op) : LayerStart := ⟨hLayer o.desc, o.layerWide, o.stepWide, o.stormy⟩

/-- The array that an op of one array took (R58). -/
def arrayOf (o : Op) : Nat := if bit o.arrays 1 then 1 else 0

/-- The working of a form whose effect is all on memories, counts and records. -/
def opPlan (s : State) (o : Op) (f : Form) : Option (Plan Unit) :=
  let E := s.opEnv o
  let x := o.desc
  let T := o.banks
  match f with
  | .mma => some (mmaPlan E x (layerStart o) o.queue (arrayOf o))
  | .mmg => some (mmgPlan E x o.queue)
  | .mmgIndex => some (mmgIndexPlan E x)
  | .att => some (attPlan E T x o.queue)
  | .atgStat => some (atgStatPlan E T x o.queue)
  | .atgGrad => some (atgGradPlan E T x o.queue)
  | .cnv => some (convPlan E false x o.queue (arrayOf o))
  | .cnt => some (convPlan E true x o.queue (arrayOf o))
  | .eval => some (evalPlan E T x)
  | .mul => some (mulPlan E T x)
  | .sincos => some (sincosPlan E T x)
  | .rope => some (ropePlan E T x)
  | .rms => some (rmsPlan E T x)
  | .rmsBack => some (rmsBackwardPlan E T x)
  | .smx => some (smxPlan E T x)
  | .upd => some (updPlan E x)
  | .copy => some (copyPlan E x)
  | .fill => some (fillPlan E x)
  | .slotOut => some (slotOutPlan E x)
  | .pop =>
    let d := reelDesc x
    some (match ((findReel s.dp o.ctx d.bay).bind (fun r => r.frame d.tag)).bind (fun g => g.entries.head?) with
      | some e => popPlan E d e (List.replicate e.len 0)
      | none => pure ())
  | .mdc => some (do let _ ← mdcPlan E x (mediaBlk s o); pure ())
  | .men => some (do let _ ← menPlan E x (mediaBlk s o); pure ())
  | .bcs => some (let d := collDesc x; wr E d.dst (List.replicate (rowBytes d.dstFmt d.count) 0))
  | .rdo => some (let d := collDesc x; wr E d.dst (List.replicate (rowBytes d.dstFmt d.count) 0))
  | .rdoAll => some (let d := collDesc x; wr E d.dst (List.replicate (rowBytes d.dstFmt d.count) 0))
  | .ing => some (ingOutput E x)
  | .ingAligned => some (ingOutput E x)
  | .ingStamped => some (ingOutput E x)
  | _ => none
where
  /-- The tensors and the manifest of an ING. -/
  ingOutput (E : Env) (x : Nat) : Plan Unit := do
    let d := ingDesc x
    let t := d.rows * d.rowTokens
    wr E d.out (List.replicate (t * d.elems * outBytes d) 0)
    wr E d.seg (List.replicate (2 * t) 0)
    wr E d.wt (List.replicate (4 * t) 0)
    wr E d.pos (List.replicate (24 * t) 0)
    wr E d.man (List.replicate (64 + 16 * d.samples) 0)

/-- The bytes of an op's output region, by tier and key: those that its working would store to. -/
def outputKeys (s : State) (o : Op) : List (Nat × Nat) :=
  match (formOf o.desc).bind (opPlan s o) with
  | none => []
  | some p => (runPlan p codeOrder).1.acts.reverse.flatMap (actKeys s.dp)

/-- The output region of an op that ends early is undefined (R454, R537). -/
def spoil (s : State) (o : Op) : State := s.setDp (freeBytes s.dp (outputKeys s o))

end Sys2Proof.Machine
end

