-- ==== Sys2Proof/Machine/Pft.lean ====
section
/-! DEFINITION. Prefetch schedules (R306 to R312). -/

namespace Sys2Proof.Machine

structure PftDesc where
  id : Nat
  cancel : Bool
  window : Nat
  rep : Nat
  entries : Nat
  addr : Nat
deriving DecidableEq, Repr, Inhabited

def pftDesc (x : Nat) : PftDesc :=
  { id := bits x 239 232, cancel := bit x 228, window := bits x 227 224, rep := bits x 223 208, entries := bits x 207 192
    addr := bits x 183 128 }

/-- Reserved fields of R311, and `SCHED_ADDR` of a CANCEL (log 44). -/
def pftReservedOk (x : Nat) : Bool :=
  zeroAt x [(1023, 240), (231, 229), (191, 184)] && (!bit x 228 || bits x 183 128 == 0)

/-- An entry of a schedule (R307). -/
def schedEntry (w : Nat) : SchedEntry :=
  { src := bits w 247 192, dst := bits w 183 128, bytes := bits w 127 96, after := bits w 95 84, done := bits w 83 72
    forLayer := bits w 71 60, bay := bits w 59 53 }

/-- R307 and R312. -/
def schedEntryOk (w : Nat) : Bool :=
  let e := schedEntry w
  zeroAt w [(255, 248), (191, 184), (52, 0)] && aligned e.src 16 && aligned e.dst 16 && e.bytes != 0 && aligned e.bytes 16 &&
    (e.forLayer == 0 || e.after != e.forLayer)

def State.sched? (s : State) (c id : Nat) : Option Sched := s.scheds.find? (fun x => x.ctx == c && x.id == id)

def putSched (s : State) (x : Sched) : State := { s with scheds := s.scheds.map (fun y => if y.op = x.op then x else y) }

/-- Ops of a layer that a bay holds and that have not completed (R308). -/
def layerOps (s : State) (c bay layer : Nat) : List Nat :=
  (s.ops.filter (fun p => p.ctx == c && p.queue == bay && p.phase != .done && layer != 0 && hLayer p.desc == layer)).map (·.id)

/-- An entry becomes current; one with no start gate starts its wait for `DONE_LAYER` at once. -/
def becomeCurrent (s : State) (x : Sched) (pos : Nat) (e : SchedEntry) : Sched :=
  { x with pos := pos, cur := some e, started := e.after == 0
           waitOps := if e.after = 0 then layerOps s x.ctx e.bay e.done else [] }

/-- Who a schedule's accesses are made for. -/
def schedEnv (s : State) (x : Sched) : Env := s.env x.ctx

/-- The copy of an entry; its status. -/
def schedCopy (s : State) (x : Sched) (e : SchedEntry) : State × Nat :=
  let E := schedEnv s x
  let r := runPlan (do let bs ← rd E e.src e.bytes; allOrNone (wr E e.dst bs)) []
  (s.effect E r.1, r.2)

/-- Cancels a schedule (R310): copies in flight complete, and the ops that an entry without a complete copy still holds and the
RUN complete (log 44). -/
def cancelSched (s : State) (x : Sched) (status : Nat) : State :=
  let r := x.inflight.foldl (fun (p : State × List (Nat × SchedEntry)) q =>
    let c := schedCopy p.1 x q.2
    (c.1, if c.2 = 0 then p.2 else p.2 ++ [q])) (s, [])
  let s1 := r.1.bump kPftEntriesDone (x.inflight.length - r.2.length)
  let held := (s1.ops.filter (fun o => o.heldSince.isSome && o.phase == .placed && heldBy { x with inflight := r.2 } o)).map (·.id)
  let s2 : State := { s1 with scheds := s1.scheds.filter (fun y => y.op ≠ x.op) }
  let s3 := held.foldl (fun s id => finishOp s id 0x01A2 0) s2
  (finishOp s3 x.op status 0).bump kPftCancelCount 1

/-- Makes entry `pos` current, or ends the schedule's entries; a bad entry cancels the schedule, and one that cannot be read
ends it with the access's status. -/
def nextEntry (s : State) (x : Sched) (pos : Nat) : State :=
  if x.rep ≠ 0 ∧ x.entries * x.rep ≤ pos then putSched s { x with pos := pos, cur := none }
  else
    let E := schedEnv s x
    match ((rdRec E (x.addr + 32 * (pos % x.entries)) 32).run {} : Except Nat Nat × Eff) with
    | (.error c, e) => cancelSched (s.effect E e) x c
    | (.ok w, e) =>
      let s1 := s.effect E e
      if schedEntryOk w then putSched s1 (becomeCurrent s1 x pos (schedEntry w)) else cancelSched s1 x 0x01A1

/-- Starts copies of ready entries while the window has room (R308). -/
def fillWindow (x : Sched) : Sched :=
  let n := x.window - x.inflight.length
  { x with inflight := x.inflight ++ x.ready.take n, ready := x.ready.drop n }

/-- The reads of host memory that an entry's copy makes, as parts of the RUN. -/
def copyReads (s : State) (x : Sched) (p : Nat × SchedEntry) : List (Nat × Nat × Nat) :=
  let r : Except Nat (List Nat) × Eff := (rd (schedEnv s x) p.2.src p.2.bytes).run {}
  (hostReads r.2.acts.reverse).map (fun t => (p.1, t))

/-- Fills a schedule's window: the copies that start send their reads of host memory (R462, R466, log 45). -/
def startCopies (s : State) (x : Sched) : State :=
  let y := fillWindow x
  let ts := (y.inflight.drop x.inflight.length).flatMap (copyReads s y)
  match s.op? x.op with
  | some o => if ts.isEmpty then putSched s y else issueRead (putSched s y) o (o.hostTodo ++ ts)
  | none => putSched s y

/-- Whether reads of host memory for an entry's copy have not come. -/
def copyWaits (s : State) (x : Sched) (entry : Nat) : Bool :=
  s.zlReads.any (fun r => r.op == x.op && r.part == entry) ||
    (s.op? x.op).any (fun o => o.hostTodo.any (fun t => t.1 == entry))

/-- The gate of a current entry is met (R308). -/
def gateMet (s : State) (x : Sched) : Bool :=
  x.started && x.waitOps.all (fun id => (s.op? id).all (fun o => o.phase == .done))

/-- Earlier RUNs of a context that have reached the engine and have not completed (R306, R310). -/
def earlierRuns (s : State) (o : Op) : List Op :=
  s.ops.filter (fun p => p.opc == opPFT && p.ctx == o.ctx && decide (p.id < o.id) && p.phase == .started && !(pftDesc p.desc).cancel)

/-- A RUN at the engine (R306, R312): rejected, waiting, or started with entry 0. -/
def startRun (s : State) (o : Op) : State :=
  let d := pftDesc o.desc
  if !pftReservedOk o.desc then finishOp s o.id 0x0104 0
  else if !aligned d.addr 32 ∨ d.window = 0 ∨ d.entries = 0 ∨
      (earlierRuns s o).any (fun p => (pftDesc p.desc).id == d.id) then finishOp s o.id 0x01A0 0
  else if 16 ≤ s.scheds.length ∨
      (earlierRuns s o).any (fun p => !s.scheds.any (fun x => x.op == p.id)) then s
  else
    let x : Sched := { op := o.id, ctx := o.ctx, id := d.id, addr := d.addr, entries := d.entries, rep := d.rep, window := d.window }
    let E := schedEnv s x
    match ((rdRec E x.addr 32).run {} : Except Nat Nat × Eff) with
    | (.error c, e) => finishOp (s.effect E e) o.id c 0
    | (.ok w, e) =>
      let s1 := s.effect E e
      if schedEntryOk w then { s1 with scheds := s1.scheds ++ [becomeCurrent s1 x 0 (schedEntry w)] }
      else finishOp s1 o.id 0x01A0 0

/-- A CANCEL (R310, R320): of a schedule that an earlier RUN runs, or of an earlier RUN that waits at the engine. -/
def runCancel (s : State) (o : Op) : State :=
  let d := pftDesc o.desc
  if !pftReservedOk o.desc then finishOp s o.id 0x0104 0
  else match (earlierRuns s o).find? (fun p => (pftDesc p.desc).id == d.id) with
    | none => finishOp (s.bump kReelIgnoredCount 1) o.id 0 0
    | some p =>
      match s.scheds.find? (fun x => x.op == p.id) with
      | some x => finishOp (cancelSched s x 0x01A1) o.id 0 0
      | none => finishOp ((finishOp s p.id 0x01A1 0).bump kPftCancelCount 1) o.id 0 0

/-- PFT_GATE_MET (R308): the entry's copy starts or waits for the window, and the next entry becomes current. -/
def onPftGateMet (ctx sched : Nat) (s : State) : State :=
  match s.sched? ctx sched with
  | none => s
  | some x =>
    match x.cur with
    | none => s
    | some e =>
      if gateMet s x then
        let y : Sched := { x with ready := x.ready ++ [(x.pos, e)], cur := none }
        nextEntry (startCopies s y) (fillWindow y) (x.pos + 1)
      else s

/-- PFT_COPY_COMPLETE (R308, R309): the copy's bytes stand, and the ops that it held may start; a copy whose reads of host
memory have not all come is not complete. -/
def onPftCopyComplete (ctx sched entry : Nat) (s : State) : State :=
  match s.sched? ctx sched with
  | none => s
  | some x =>
    match x.inflight.find? (fun p => p.1 == entry) with
    | none => s
    | some p =>
      if copyWaits s x entry then
        match s.op? x.op with
        | some o => if o.hostTodo.isEmpty then s else issueRead s o o.hostTodo
        | none => s
      else
      let r := schedCopy s x p.2
      if r.2 ≠ 0 then (cancelSched s x r.2)
      else
        let z : Sched := { x with inflight := x.inflight.filter (fun q => q.1 ≠ entry) }
        let y := fillWindow z
        let s1 := (startCopies r.1 z).bump kPftEntriesDone 1
        if y.cur = none ∧ y.ready.isEmpty ∧ y.inflight.isEmpty then
          (finishOp { s1 with scheds := s1.scheds.filter (fun z => z.op ≠ x.op) } x.op 0 0)
        else s1

/-- PFT_HOLD_LIMIT (R310): the schedules that hold the op are cancelled. -/
def onPftHoldLimit (op : Nat) (s : State) : State :=
  match s.op? op with
  | none => s
  | some o =>
    match o.heldSince with
    | none => s
    | some t =>
      if o.phase = .placed ∧ s.expired t (s.obj kPftHoldLimitUs * 1000) then
        ((s.scheds.filter (fun x => heldBy x o)).foldl (fun s x => cancelSched s x 0x01A1) s)
      else s

/-! ## The commands; a device in reset takes none of them (log 2) -/

/-- PFT_GATE_MET (R308). -/
def execPftGateMet (ctx sched : Nat) (s : State) : Host.Outcome State Fault Refusal := live s (onPftGateMet ctx sched)

/-- PFT_COPY_COMPLETE (R308, R309). -/
def execPftCopyComplete (ctx sched entry : Nat) (s : State) : Host.Outcome State Fault Refusal := live s (onPftCopyComplete ctx sched entry)

/-- PFT_HOLD_LIMIT (R310). -/
def execPftHoldLimit (op : Nat) (s : State) : Host.Outcome State Fault Refusal := live s (onPftHoldLimit op)

end Sys2Proof.Machine
end

