-- ==== Sys2Proof/Machine/Fault.lean ====
section
/-! DEFINITION. Job faults and teardown (R453 to R455), and the device's hardware faults (R536, R537). -/

namespace Sys2Proof.Machine

/-! ## Teardown -/

/-- An op ends with a discard code: the output region of one that had started, or of every op of a fenced device, is
undefined. -/
def discardOp (code : Nat) (s : State) (o : Op) : State :=
  if o.phase = .done then s
  else
    let s1 := if o.phase = .started ∨ code = 0x0701 then spoil s o else s
    finishOp s1 o.id code 0

/-- The collectives of a context end for this member, and their groups are told (R508, R512). -/
def discardColls (code : Nat) (s : State) (c : Nat) : State :=
  (s.colls.filter (fun x => x.ctx == c && decide (x.phase ≤ 2))).foldl (fun s x =>
    let s1 := match findGroup s (collDesc x.desc).group with
      | some g => if x.ticket.isSome then abortGroup s x g.roster 0x0402 else s
      | none => s
    match s1.op? x.op with
    | some o => endColl (spoil s1 o) x code
    | none => endColl s1 x code) s

/-- Runs work of the sequence engine; the second part is the address of an access that met a fault. Work that must wait is as if
its command had not come (log 83). -/
def runDev (p : Dev Unit) (s : State) : State × Option Nat :=
  match (p.run s : Except DevStop Unit × State) with
  | (.ok _, s1) => (s1, none)
  | (.error (.fault a), s1) => (s1, some a)
  | (.error .wait, _) => (s, none)

/-- Whether work of the engine must wait (R152). -/
def devWaits (p : Dev Unit) (s : State) : Bool :=
  match (p.run s : Except DevStop Unit × State) with
  | (.error .wait, _) => true
  | _ => false

/-- A job fault of a context (R454): cause, and for cause 5 the address of the access. -/
def jobFault (s : State) (c cause va : Nat) : State :=
  if (s.ctx c).st ≠ .active then s
  else
    let s1 := ((s.setObj (objKey c kCtxFaultCause) cause).bump kJobFaultCount 1).log
      { source := 0x6000, code := 0x0702, sev := 2, ctx := c, data := dataAt 632 cause + dataAt 576 (if cause = 5 then va else 0) }
    let s2 := s1.setCtx c { s1.ctx c with st := .teardown }
    let s3 := discardColls 0x0702 s2 c
    let s4 := (s3.inflight c).foldl (discardOp 0x0702) s3
    let s5 := (s4.scheds.filter (fun x => x.ctx == c)).foldl (fun s x => cancelSched s x 0x0702) s4
    let s6 := s5.setDp (dropReels s5.dp c)
    let s7 := (runDev (abortTick c) s6).1
    let s8 : State := { s7 with ing := s7.ing.filter (fun j => s7.ops.any (fun o => o.id == j.op && o.phase != .done)) }
    if (s8.inflight c).isEmpty then s8.setCtx c { s8.ctx c with st := .faulted } else s8

/-! ## Hardware faults -/

/-- A hardware fault (R536, R537, R662): the device enters FENCED. -/
def hwFault (s : State) (cause source detail : Nat) : State :=
  let s1 := s.log { source := source, code := 0x0701, sev := 3, data := dataAt 632 cause + dataAt 568 (detail % 2 ^ 64) }
  if s1.twin.st = 5 then s1
  else
    let s2 : State := { s1 with twin := { s1.twin with st := 5 }, fault := cause }
    let s3 := s2.ops.foldl (discardOp 0x0701) s2
    let s4 : State := { s3 with colls := [], scheds := [], ing := [] }
    let s5 := sendTether s4 13 0 0 true [cause]
    s5.send .leafReport 0 [1, cause]

/-- The hardware fault that the memory system has met is raised (R291, R293, log 78). -/
def raiseDue (s : State) : State :=
  match s.dp.hwDue with
  | none => s
  | some h => hwFault (s.setDp { s.dp with hwDue := none }) h.1 h.2.1 h.2.2

/-- The end of an access that the device made on a context's behalf (R664). -/
def afterAccess (c : Nat) (r : State × Option Nat) : State :=
  raiseDue (match r.2 with
    | none => r.1
    | some va => jobFault r.1 c 5 va)

end Sys2Proof.Machine
end

