-- ==== Sys2Proof/Machine/Group.lean ====
section
/-! DEFINITION. Groups and their re-formation (R545 to R551): rosters, stand-ins, PREPARE and COMMIT. Messages of the
management network leave as `OutKind.mgr` with their kind first: 1 PREPARE, 2 acknowledgement, 3 COMMIT, 4 lease, 5 report of a
confirmed fence (log 18). -/

namespace Sys2Proof.Machine

def putGroup (s : State) (g : Group) : State :=
  { s with groups := s.groups.map (fun x => if x.roster.group = g.roster.group then g else x) }

/-- The roster of the next epoch in which a faulted member's twin stands in for it (R547 step 3, R549). -/
def standInRoster (r : Roster) (member epoch : Nat) : Roster :=
  let own := fun (l : RosterLine) => !l.incoming && (l.member == member || l.member + 1 == member)
  { r with
    epoch := epoch
    standin := if r.member ≠ member ∧ r.lines.any (fun l => own l && (l.member == r.member || l.member + 1 == r.member)) then member
               else r.standin
    lines := r.lines.map (fun l =>
      if own l then (if l.member = member then { l with addr0 := l.addr1 } else { l with addr1 := l.addr0 }) else l) }

/-- The roster in which a spare pair that was INCOMING takes a damaged pair's member numbers (R551). -/
def spareRoster (r : Roster) (member epoch : Nat) : Roster :=
  let mine := fun (l : RosterLine) => l.member == member || l.member + 1 == member
  match r.lines.find? (fun l => l.incoming && mine l) with
  | none => { r with epoch := epoch }
  | some spare =>
    { r with
      epoch := epoch
      standin := if r.standin = spare.member ∨ r.standin = spare.member + 1 then 2 ^ 32 - 1 else r.standin
      lines := (r.lines.filter (fun l => !mine l)) ++ [{ spare with incoming := false }] }

/-- A primary manager sends PREPARE with a roster to every device of it, and prepares itself (R547 steps 3 and 4). -/
def startForming (s : State) (g : Group) (r : Roster) : State :=
  let s1 := putGroup s { g with st := 2, forming := some r, acks := [], sentAt := s.time }
  ((((List.range r.size).filterMap (memberAddr r)).filter (· ≠ s.self)).dedup).foldl
    (fun s a => s.send .mgr a [1, r.group, r.epoch]) s1

/-- At a step boundary, or at a commit of a context that runs ticks, a primary manager starts the re-formation that moves a
damaged pair's numbers to the spare pair that has reported SYNCED (R551). -/
def plannedReform (s : State) : State :=
  s.groups.foldl (fun s g =>
    match g.synced with
    | some m => if g.roster.role = 4 ∧ g.forming.isNone then startForming s { g with synced := none } (spareRoster g.roster m (g.roster.epoch + 1)) else s
    | none => s) s

/-- The collectives of a group that run on this member stop with 0x0403 (R509, R511). -/
def endGroupColls (s : State) (group : Nat) : State :=
  (s.colls.filter (fun c => (collDesc c.desc).group == group && (decide (1 ≤ c.phase)))).foldl (fun s c =>
    match s.op? c.op with
    | some o => endColl (if o.phase = .started then spoil s o else s) c 0x0403
    | none => endColl s c 0x0403) s

/-- Sends an INT with `TWIN_VECTOR`, unless there is none. -/
def twinInt (s : State) : State := if s.obj kTwinVector = 0xFFFF then s else sendInt s 0 (s.obj kTwinVector)

/-- A manager's role in a group goes to its twin (R546); `CHUNK` 3 of a MIRROR (log 40). -/
def mirrorRole (s : State) (r : Roster) : State :=
  if s.twin.st = 2 then
    sendTether { s with twin := { s.twin with seq := s.twin.seq + 1 } } 11 3 s.twin.seq false (leBytes 2 r.group ++ [r.role])
  else s

/-- The primary manager's lease of a group whose roster changes: one of the primary manager of the new epoch stands (R552). -/
def keptLease (g : Group) (r : Roster) : Option Nat :=
  if memberAddr g.roster g.roster.primary = memberAddr r r.primary then g.leaseAt else none

/-- COMMIT (R547 step 5): the roster and epoch stand, collectives of the old epoch end, and the group is ACTIVE, or INCOMING
for a pair that is to take a damaged pair's place; a device that the roster does not hold leaves the group. A manager's twin hears of the
role first (R546). -/
def installRoster (s : State) (r : Roster) : State :=
  let manages := decide (1 ≤ r.role) || (findGroup s r.group).any (fun g => decide (1 ≤ g.roster.role))
  let s1 := endGroupColls (if manages then mirrorRole s r else s) r.group
  let s2 : State :=
    if r.size ≤ r.member then { s1 with groups := s1.groups.filter (fun g => g.roster.group ≠ r.group) }
    else
      let n : Group := { roster := r, st := if r.incoming then 4 else 1, beaconAt := s.time }
      { s1 with groups := s1.groups.map (fun g => if g.roster.group = r.group then { n with leaseAt := keptLease g r, synced := g.synced } else g) }
  let data := dataAt 624 r.group + dataAt 592 r.epoch + dataAt 560 r.standin
  twinInt ((s2.bump kReformCount 1).log { source := 0x5200, code := 0x5200, sev := 1, data := data })

end Sys2Proof.Machine
end

