-- ==== Sys2Proof/Machine/OpRun.lean ====
section
/-! DEFINITION. The commands that advance a started op: what its form does, and its completion. -/

namespace Sys2Proof.Machine

/-! ## Host reads (R469) -/

/-- The accesses of an op before its first read of host memory. -/
def beforeHostRead : List Act → List Act
  | [] => []
  | .rd p n w :: as => if p.tier = 2 then [] else .rd p n w :: beforeHostRead as
  | a :: as => a :: beforeHostRead as

/-! ## Running an op -/

/-- Registers that an op's notes set: 1 disarms the injection (R96), 2 the latest miss (R95), 3 the latest rejected table
(R134). -/
def applyNote (s : State) (n : Nat × Nat) : State :=
  match n.1 with
  | 1 => s.setObj kCksInject (s.obj kCksInject % 2 ^ 31)
  | 2 => s.setObj kCksLastLoc n.2
  | 3 => s.setObj kTblLastReject n.2
  | _ => s

/-- Carries out what an op has worked out. -/
def carryOut (s : State) (o : Op) (e : Eff) : State :=
  e.notes.reverse.foldl applyNote (s.effect (s.opEnv o) e)

/-- Carries out what an op has worked out, and completes it with a status. -/
def settle (s : State) (o : Op) (e : Eff) (status : Nat) : State :=
  let s2 := carryOut s o e
  match e.hw with
  | some h => hwFault s2 h.1 h.2.1 h.2.2
  | none =>
    match s2.dp.hwDue with
    | some _ => raiseDue s2
    | none =>
      let w := widDecisions s2 o.ctx (e.notes.reverse.filter (fun n => decide (10 ≤ n.1)))
      afterAccess o.ctx (finishOp w.1 o.id status e.info, w.2)

/-- Runs an op's working to its completion, unless a read of host memory is outstanding. -/
def runOp (s : State) (o : Op) (p : Plan Unit) (order : List Nat) : State :=
  let r := runPlan p order
  match waitsForHost o r.1 with
  | some ts => readOn s o ts
  | none => settle s o r.1 r.2

/-- Runs `k` on a started op of a form. -/
def onForm (f : Form) (op : Nat) (k : State → Op → State) (s : State) : State :=
  match s.op? op with
  | some o => if o.phase = .started ∧ formOf o.desc = some f then k s o else s
  | none => s

/-- Work of an op. One that needs tokens of a bucket which holds too few and never gains any waits, as if its command had not come
(R282, log 79). -/
def admitted (k : State → Op → State) (s : State) (o : Op) : State :=
  if starves s.dp (k s o).dp (cPartition (s.ctx o.ctx).record) then s else k s o

/-- Runs work `k` of a started op of a form. -/
def onWork (f : Form) (op : Nat) (k : State → Op → State) : State → State := onForm f op (admitted k)

/-- An op whose effect is its working. -/
def runForm (f : Form) (s : State) (o : Op) : State :=
  match opPlan s o f with
  | some p => runOp s o p codeOrder
  | none => s

/-- MMA (R74). -/
def execMma (op : Nat) (s : State) : Host.Outcome State Fault Refusal := live s (onWork .mma op (runForm .mma))
/-- MMG (R167). -/
def execMmg (op : Nat) (s : State) : Host.Outcome State Fault Refusal := live s (onWork .mmg op (runForm .mmg))
/-- MMG with INT32 X (R184). -/
def execMmgIndexForm (op : Nat) (s : State) : Host.Outcome State Fault Refusal := live s (onWork .mmgIndex op (runForm .mmgIndex))
/-- ATT (R136). -/
def execAtt (op : Nat) (s : State) : Host.Outcome State Fault Refusal := live s (onWork .att op (runForm .att))
/-- ATG, statistics phase (R190). -/
def execAtgStatistics (op : Nat) (s : State) : Host.Outcome State Fault Refusal := live s (onWork .atgStat op (runForm .atgStat))
/-- ATG, gradient phase (R193). -/
def execAtgGradient (op : Nat) (s : State) : Host.Outcome State Fault Refusal := live s (onWork .atgGrad op (runForm .atgGrad))
/-- CNV (R247). -/
def execCnv (op : Nat) (s : State) : Host.Outcome State Fault Refusal := live s (onWork .cnv op (runForm .cnv))
/-- CNT (R251). -/
def execCnt (op : Nat) (s : State) : Host.Outcome State Fault Refusal := live s (onWork .cnt op (runForm .cnt))
/-- VEC (R117), with its fields (log 14). -/
def execVec (op : Nat) (v : VecFields) (s : State) : Host.Outcome State Fault Refusal :=
  live s (onWork .vec op (fun s o => runOp s o (vecPlan (s.opEnv o) v) codeOrder))
/-- FUN EVAL (R129). -/
def execEval (op : Nat) (s : State) : Host.Outcome State Fault Refusal := live s (onWork .eval op (runForm .eval))
/-- FUN MUL (R100). -/
def execMul (op : Nat) (s : State) : Host.Outcome State Fault Refusal := live s (onWork .mul op (runForm .mul))
/-- FUN SINCOS (R115). -/
def execSincos (op : Nat) (s : State) : Host.Outcome State Fault Refusal := live s (onWork .sincos op (runForm .sincos))
/-- FUN ROPE (R116). -/
def execRope (op : Nat) (s : State) : Host.Outcome State Fault Refusal := live s (onWork .rope op (runForm .rope))
/-- RMS (R118). -/
def execRms (op : Nat) (s : State) : Host.Outcome State Fault Refusal := live s (onWork .rms op (runForm .rms))
/-- RMS backward (R187). -/
def execRmsBackward (op : Nat) (s : State) : Host.Outcome State Fault Refusal := live s (onWork .rmsBack op (runForm .rmsBack))
/-- SMX (R121). -/
def execSmx (op : Nat) (s : State) : Host.Outcome State Fault Refusal := live s (onWork .smx op (runForm .smx))
/-- UPD (R201). -/
def execUpd (op : Nat) (s : State) : Host.Outcome State Fault Refusal := live s (onWork .upd op (runForm .upd))
/-- MOV COPY (R330). -/
def execCopy (op : Nat) (s : State) : Host.Outcome State Fault Refusal := live s (onWork .copy op (runForm .copy))
/-- MOV FILL (R330). -/
def execFill (op : Nat) (s : State) : Host.Outcome State Fault Refusal := live s (onWork .fill op (runForm .fill))
/-- MOV SLOT_OUT (R331). -/
def execSlotOut (op : Nat) (s : State) : Host.Outcome State Fault Refusal := live s (onWork .slotOut op (runForm .slotOut))

/-! ## FUN LOAD (R109 to R111) -/

/-- The table slot of a LOAD. -/
def loadSlot (o : Op) : Nat := (rowDesc o.desc).slot

/-- Whether a load of the slot that started earlier has not completed (R111). -/
def earlierLoad (s : State) (o : Op) : Bool :=
  s.ops.any (fun e => e.id != o.id && e.phase == .started && formOf e.desc = some .load && loadSlot e == loadSlot o &&
    decide (e.startNo < o.startNo))

/-- Whether a started op holds the bank that a LOAD will write, the slot's shadow bank (R109 step 2). -/
def shadowHeld (s : State) (o : Op) : Bool :=
  let k := loadSlot o
  let t := kvGet {} s.dp.tables k
  s.ops.any (fun e => e.id != o.id && e.phase == .started && e.banks.any (fun b => b.slot == k && b.bank != t.bank))

/-- Writes the shadow bank and exchanges the banks (R109 steps 3 and 4). -/
def exchangeBanks (s : State) (k image : Nat) : State :=
  let t := kvGet {} s.dp.tables k
  let n : TableSlot := { active := some image, shadow := t.active, gen := (t.gen + 1) % 2 ^ 32, bank := !t.bank }
  s.setDp { s.dp with tables := kvSet {} s.dp.tables k n }

/-- The bank of a LOAD is written and becomes the active one, once nothing holds it. -/
def bankIn (s : State) (o : Op) (image : Nat) : State :=
  if shadowHeld s o then s else finishOp (exchangeBanks s (loadSlot o) image) o.id 0 0

/-- A LOAD reads and checks its image once, then waits for its bank (R109). -/
def runLoad (s : State) (o : Op) : State :=
  if earlierLoad s o then s
  else match o.image with
    | some image => bankIn s o image
    | none =>
      let r : Except Nat Nat × Eff := (loadPlan (s.opEnv o) o.banks o.desc).run {}
      match waitsForHost o r.2 with
      | some ts => readOn s o ts
      | none =>
        match r.1 with
        | .error c => settle s o r.2 c
        | .ok image => bankIn ((carryOut s o r.2).putOp { o with image := some image }) { o with image := some image } image

/-- FUN LOAD (R109). -/
def execTblLoad (op : Nat) (s : State) : Host.Outcome State Fault Refusal := live s (onWork .load op runLoad)

/-! ## Media -/

/-- Carries out the working of an MDC or MEN; `pool` is the reference pool, whose contents afterwards are the engine's own
(log 9). -/
def runMedia (s : State) (o : Op) (p : Plan MediaBlk) : State :=
  let r : Except Nat MediaBlk × Eff := p.run {}
  match waitsForHost o r.2 with
  | some ts => readOn s o ts
  | none =>
    match r.1 with
    | .error c => settle s o r.2 c
    | .ok b =>
      let st := firstCode mediaOrder r.2.codes
      let s1 := settle s o r.2 st
      if st = 0x0608 then s1 else setMedia s1 o b

/-- MDC (R383). -/
def execMdc (op : Nat) (s : State) : Host.Outcome State Fault Refusal :=
  live s (onWork .mdc op (fun s o => runMedia s o (mdcPlan (s.opEnv o) o.desc (mediaBlk s o))))

/-- MEN (R391). -/
def execMen (op : Nat) (s : State) : Host.Outcome State Fault Refusal :=
  live s (onWork .men op (fun s o => runMedia s o (menPlan (s.opEnv o) o.desc (mediaBlk s o))))

/-- MDC_PARSE_LIMIT (R389): the unit outputs no picture, the state block keeps its contents, and the op reports 0x0604. -/
def execMdcParseLimit (op : Nat) (s : State) : Host.Outcome State Fault Refusal :=
  live s (onForm .mdc op (fun s o =>
    if s.time < o.startedAt + 2000000 then s else finishOp (s.bump kVdecBudgetCount 1) o.id 0x0604 0))

/-! ## The reel (R316 to R324) -/

/-- An ignored reel op (R320). -/
def reelIgnored (s : State) (o : Op) : State := finishOp (s.bump kReelIgnoredCount 1) o.id 0 0

/-- The code of an op on a frame that is BROKEN or LOST (R324). -/
def frameCode (f : ReelFrame) : Nat := if f.st = .broken then 0x01A3 else if f.st = .lost then 0x01A5 else 0

/-- Checks a reel op, then finds its reel and frame. -/
def onReel (kind : Nat) (k : State → Op → ReelDesc → Option (Reel × ReelFrame) → State) (s : State) (o : Op) : State :=
  match ((reelIssue kind o.desc).run {} : Except Nat ReelDesc × Eff) with
  | (.error c, _) => finishOp s o.id c 0
  | (.ok d, _) => k s o d ((findReel s.dp o.ctx d.bay).bind (fun r => (r.frame d.tag).map (fun f => (r, f))))

/-- The time that a push or pop waited ends (R344). -/
def endWait (s : State) (o : Op) : State :=
  match o.waitSince with
  | some t => s.bump kReelWaitNs (s.time - t)
  | none => s

def beginWait (s : State) (o : Op) : State := if o.waitSince.isSome then s else s.putOp { o with waitSince := some s.time }

/-- Runs work of a reel engine: how it ended, and what it leaves. -/
def reelWork {α : Type} (d : Dp) (r : Reel) (w : ReelWork α) : Except Nat α × ReelSt := w.run { dp := d, reel := r }

/-- The state after a reel engine's work: the data path with the reel in its place, and what went to host memory sent (R468). -/
def State.afterReel (s : State) (c : Nat) (w : ReelSt) : State := hostWrites (s.setDp (putReel w.dp w.reel)) c w.acts.reverse

def runPsh (s : State) (o : Op) (d : ReelDesc) (rf : Option (Reel × ReelFrame)) : State :=
  match rf with
  | none => reelIgnored s o
  | some (r, f) =>
    if frameCode f ≠ 0 then finishOp (endWait s o) o.id (frameCode f) 0
    else if f.st ≠ .opened then reelIgnored (endWait s o) o
    else
      let e : Except Nat (ReelEntry × List Nat) × Eff := (pshPlan (s.opEnv o) d).run {}
      match waitsForHost o e.2 with
      | some ts => readOn s o ts
      | none =>
        match e.1 with
        | .error c => settle (endWait s o) o e.2 c
        | .ok x =>
          let w := reelWork s.dp r (pushEntry (s.opEnv o) d.tag x.1 x.2)
          match w.1 with
          | .error 0 => beginWait (s.afterReel o.ctx w.2) o
          | .error c => settle (endWait (s.afterReel o.ctx w.2) o) o e.2 c
          | .ok _ => settle (endWait (s.afterReel o.ctx w.2) o) o e.2 0

/-- PSH (R317). -/
def execPsh (op : Nat) (s : State) : Host.Outcome State Fault Refusal := live s (onWork .psh op (onReel 0 runPsh))

def runPop (s : State) (o : Op) (d : ReelDesc) (rf : Option (Reel × ReelFrame)) : State :=
  match rf with
  | none => reelIgnored s o
  | some (r, f) =>
    if frameCode f ≠ 0 then finishOp s o.id (frameCode f) 0
    else match f.entries.head? with
      | none => reelIgnored s o
      | some e =>
        if !popAgrees d e then finishOp s o.id 0x01A4 0
        else
          let w := reelWork s.dp r (topData (s.opEnv o) f e)
          let s1 := s.afterReel o.ctx w.2
          match w.1 with
          | .error 0 => s1
          | .error c => finishOp s1 o.id c 0
          | .ok data =>
            match ((popPlan (s1.opEnv o) d e data).run {} : Except Nat Unit × Eff) with
            | (.error c, x) => settle s1 o x c
            | (.ok _, x) =>
              settle (match findReel s1.dp o.ctx d.bay with
                | some q => s1.setDp (putReel s1.dp (popEntry q d.tag))
                | none => s1) o x (firstCode codeOrder x.codes)

/-- POP (R319). -/
def execPop (op : Nat) (s : State) : Host.Outcome State Fault Refusal := live s (onWork .pop op (onReel 1 runPop))

def runOpen (s : State) (o : Op) (d : ReelDesc) (rf : Option (Reel × ReelFrame)) : State :=
  if rf.isSome then reelIgnored s o
  else match findReel s.dp o.ctx d.bay with
    | some r =>
      if (reelRec r.record).maxFrames ≤ r.frames.length then reelIgnored s o
      else finishOp (s.setDp (putReel s.dp { r with frames := r.frames ++ [{ tag := d.tag, rank := d.rank }] })) o.id 0 0
    | none =>
      let r : Except Nat Nat × Eff := (reelRecord (s.opEnv o) d.bay).run {}
      match waitsForHost o r.2 with
      | some ts => readOn s o ts
      | none =>
        match r.1 with
        | .error c => settle s o r.2 c
        | .ok x => settle (s.setDp (putReel s.dp { ctx := o.ctx, bay := d.bay, record := x, frames := [{ tag := d.tag, rank := d.rank }] })) o r.2 0

/-- MRK OPEN (R313, R316). -/
def execMrkOpen (op : Nat) (s : State) : Host.Outcome State Fault Refusal := live s (onWork .mrkOpen op (onReel 2 runOpen))

def runClose (s : State) (o : Op) (_ : ReelDesc) (rf : Option (Reel × ReelFrame)) : State :=
  match rf with
  | none => reelIgnored s o
  | some (r, f) =>
    finishOp (if f.st = .opened then s.setDp (putReel s.dp (r.putFrame { f with st := .closed })) else s) o.id 0 0

/-- MRK CLOSE (R316). -/
def execMrkClose (op : Nat) (s : State) : Host.Outcome State Fault Refusal := live s (onWork .mrkClose op (onReel 2 runClose))

def runDrop (s : State) (o : Op) (d : ReelDesc) (rf : Option (Reel × ReelFrame)) : State :=
  match rf with
  | none => reelIgnored s o
  | some (r, _) => finishOp (s.setDp (putReel s.dp (r.dropFrame d.tag))) o.id 0 0

/-- MRK DROP (R316). -/
def execMrkDrop (op : Nat) (s : State) : Host.Outcome State Fault Refusal := live s (onWork .mrkDrop op (onReel 2 runDrop))

/-- REEL_WAIT_LIMIT (R324): the push fails and its frame becomes BROKEN. -/
def execReelWaitLimit (op : Nat) (s : State) : Host.Outcome State Fault Refusal :=
  live s (onForm .psh op (fun s o =>
    match o.waitSince with
    | none => s
    | some t =>
      if s.expired t (s.obj kReelWaitLimitUs * 1000) then
        let d := reelDesc o.desc
        let s1 := match (findReel s.dp o.ctx d.bay).bind (fun r => (r.frame d.tag).map (fun f => (r, f))) with
          | some (r, f) =>
            if f.st = .broken ∨ f.st = .lost then s
            else (s.setDp (putReel s.dp (r.putFrame { f with st := .broken }))).bump kReelBrokenCount 1
          | none => s
        finishOp (endWait s1 o) o.id 0x01A3 0
      else s))

/-- Work that a reel engine does on its own for a bay of a context; an access of it that meets a fault is R664's. -/
def onReelEngine (ctx bay : Nat) (go : Reel → Bool) (w : Env → Reel → ReelWork Unit) (s : State) : State :=
  match findReel s.dp ctx bay with
  | none => s
  | some r =>
    if go r then
      let x := reelWork s.dp r (w (s.env ctx) r)
      afterAccess ctx (s.afterReel ctx x.2, match x.1 with | .error c => if c = 0 ∨ c = 0x01A5 then none else some (reelRec r.record).area | .ok _ => none)
    else s

/-- REEL_SPILL (R322): once more than `SPILL_HI` % are resident, the engine spills until `SPILL_LO` % or fewer are. -/
def execReelSpill (ctx bay : Nat) (s : State) : Host.Outcome State Fault Refusal :=
  live s (onReelEngine ctx bay Reel.spills (fun E _ => do let _ ← spillOne E []))

/-- The first spilled block of the next `FETCH_AHEAD`, of a frame that is not LOST (R322). -/
def Reel.nextFetch (r : Reel) : Option (Nat × Nat) :=
  ((r.popOrder.take (reelRec r.record).ahead).find? (fun b => b.2.2 && (r.frame b.1).any (fun f => f.st != .lost))).map
    (fun b => (b.1, b.2.1))

/-- Whether the engine may fetch a block ahead (R322). -/
def Reel.fetches (r : Reel) : Bool :=
  decide (100 * r.resident ≤ (reelRec r.record).hi * (reelRec r.record).areaBlocks) && r.nextFetch.isSome

/-- REEL_FETCH (R322, R323): the first spilled block of the next `FETCH_AHEAD` comes back; one whose check fails twice makes
its frame LOST. -/
def execReelFetch (ctx bay : Nat) (bad1 bad2 : Bool) (s : State) : Host.Outcome State Fault Refusal :=
  live s (onReelEngine ctx bay Reel.fetches (fun E r => match r.nextFetch with
    | some b => fetchBlock E b.1 b.2 [] bad1 bad2
    | none => pure ()))

/-! ## Collectives -/

/-- BCS (R493): after GO the root sends its tensor, and every member completes once its chunks are written. -/
def execBcs (op : Nat) (s : State) : Host.Outcome State Fault Refusal := live s (onWork .bcs op runColl)

/-- RDO (R492): after GO a member sends its contributions; the root completes once every result chunk is written. -/
def execRdo (op : Nat) (s : State) : Host.Outcome State Fault Refusal := live s (onWork .rdo op runColl)

/-- RDO with `ALL` = 1 (R492): every member writes every result chunk. -/
def execRdoAll (op : Nat) (s : State) : Host.Outcome State Fault Refusal := live s (onWork .rdoAll op runColl)

/-! ## Prefetch -/

/-- PFT RUN (R306). -/
def execPftRun (op : Nat) (s : State) : Host.Outcome State Fault Refusal :=
  live s (onForm .pftRun op (fun s o => if s.scheds.any (fun x => x.op == o.id) then s else startRun s o))

/-- PFT CANCEL (R310). -/
def execPftCancel (op : Nat) (s : State) : Host.Outcome State Fault Refusal := live s (onForm .pftCancel op runCancel)

end Sys2Proof.Machine
end

