-- ==== Sys2Proof/Machine/Run.lean ====
section
/-! DEFINITION. Dispatch, start and completion of ops, fences, digests, doorbells of queues, and completions of host reads
(R441 to R453, R469, R475 to R478, R533 to R535). -/

namespace Sys2Proof.Machine

/-- Contexts 0 to 255 (R472). -/
def ctxCount : Nat := 256

/-- A command for a context that the device has. -/
def onCtx (c : Nat) (s : State) (f : State → State) : Host.Outcome State Fault Refusal :=
  if c < ctxCount then live s f else .next s

/-! ## Dispatch and start -/

/-- DISPATCH (R441, R442, R663): the context's next op is placed where it can be and its turn has come; a collective asks for
its ticket (R494). -/
def execDispatch (ctx : Nat) (s : State) : Host.Outcome State Fault Refusal :=
  onCtx ctx s (fun s =>
    if canPlace s ctx && isTurn s ctx then
      match targetOf s ctx (nextDesc s ctx) with
      | .queue _ => if isColl (hOpc (nextDesc s ctx)) then collPlaced (placeNext s ctx) (newOp s ctx) else placeNext s ctx
      | _ => placeNext s ctx
    else s)

/-- The status of an op whose selector names no form, by its chapter's checks (R131, R329, R334, R424). -/
def formless (s : State) (o : Op) : Nat :=
  let E := s.opEnv o
  let code := fun (r : Except Nat Unit) (d : Nat) => match r with | .error c => c | .ok _ => d
  match hOpc o.desc with
  | 0x08 => (noSuchForm o.desc).getD 0x0155
  | 0x13 => code (((do let _ ← reelIssue 2 o.desc; pure ()) : Plan Unit).run {}).1 0x0131
  | 0x14 => code (((do let _ ← movIssue E o.desc; pure ()) : Plan Unit).run {}).1 0x0131
  | _ => code (((do let _ ← ingIssue E o.desc (fun _ => true); pure ()) : Plan Unit).run {}).1 0x0620

/-- The moment an op starts: what it takes with it, and the start events of schedules. -/
def startOp (s : State) (o : Op) (units : Nat) : State :=
  let s1 := s.putOp (captured s o units)
  let s2 : State := { s1 with scheds := s1.scheds.map (startEvent s1 o) }
  if (formOf o.desc).isNone then finishOp s2 o.id (formless s2 o) 0 else s2

/-- OP_START (R57, R58, R309, R445): an op starts once the ops before it in its queue let it and its units are free; one that
a schedule holds is held from then on. -/
def execOpStart (op : Nat) (s : State) : Host.Outcome State Fault Refusal :=
  live s (fun s =>
    match s.op? op with
    | none => s
    | some o =>
      if o.phase ≠ .placed ∨ s.twin.st = 5 ∨ isColl o.opc ∨ !queueTurn s o then s
      else if o.opc ≠ opFNC ∧ (!mediaTurn s o ∨ !engineFree s o.queue ∨ (o.opc = opMDC ∧ ingAhead s)) then s
      else match unitsFor o.desc (busyUnits s o.queue) with
        | none => s
        | some u =>
          if prefetchHeld s o then (if o.heldSince.isSome then s else s.putOp { o with heldSince := some s.time })
          else if o.opc = opFNC then noteFences (startOp s o u)
          else startOp s o u)

/-! ## Digests (R533 to R535) -/

/-- Whether a roster names a referee pair for this device's pair. -/
def hasReferee (s : State) : Bool :=
  s.groups.any (fun g => g.roster.lines.any (fun l => (l.member == g.roster.member || l.member + 1 == g.roster.member) && l.referee.isSome))

/-- Compares the two twins' words of a step, once both are held; on a difference the context's ops stop, the manager is told,
and without a referee pair the device faults. -/
def digestCompare (s : State) (c step : Nat) : State :=
  match s.twin.own.find? (fun x => x.1 == c && x.2.1 == step), s.twin.theirs.find? (fun x => x.1 == c && x.2.1 == step) with
  | some a, some b =>
    let rest := fun (l : List (Nat × Nat × List Nat)) => l.filter (fun x => !(x.1 == c && x.2.1 == step))
    let s1 : State := { s with twin := { s.twin with own := rest s.twin.own, theirs := rest s.twin.theirs } }
    let s2 := s1.setObj (objKey c kDigestLastStep) step
    if a.2.2 = b.2.2 then s2
    else
      let s3 := (s2.setCtx c { s2.ctx c with digestStop := true }).bump kDigestMismatchCount 1
      let s4 := s3.send .leafReport 0 ([2, c, step] ++ a.2.2 ++ b.2.2)
      if hasReferee s4 then s4 else hwFault s4 5 0x5130 step
  | _, _ => s

/-- The digest words of a context, or the address of one that cannot be read. -/
def digestWords (c : Nat) (list n : Nat) : Dev (List Nat) :=
  (List.range n).mapM (fun i => do
    let a ← Dev.rdD c (list + 8 * i) 8
    Dev.rdD c (a % 2 ^ 56) 8)

/-- At a step boundary of a training context, while paired, the words go to the partner (R534). -/
def digestStep (s : State) (c : Nat) : State :=
  let list := s.obj (objKey c kDigestList)
  let n := s.obj (objKey c kDigestCount)
  if s.twin.st ≠ 2 ∨ cKind (s.ctx c).record ≠ 0 ∨ list = 0 ∨ n = 0 then s
  else match ((digestWords c list n).run s : Except DevStop (List Nat) × State) with
    | (.error (.fault va), s1) => jobFault s1 c 5 va
    | (.error .wait, _) => s
    | (.ok ws, s1) =>
      let step := s1.obj (objKey c kAcctSteps)
      let s2 := sendTether s1 15 c 0 false (leBytes 8 step ++ ws.flatMap (leBytes 8))
      digestCompare { s2 with twin := { s2.twin with own := (c, step, ws) :: s2.twin.own } } c step

/-! ## Fences (R447 to R451) -/

/-- Adds to a signal word of a member of a group (R449). -/
def remoteSignal (s : State) (f : Fnc) : State :=
  match findGroup s f.destGrp with
  | none => s
  | some g =>
    match memberAddr g.roster f.dest with
    | none => s
    | some a =>
      if a = s.self then
        if s.ctxs.any (fun p => p.2.st == .active && sigOwned p.2.record f.setSig) then s.signal f.setSig f.value
        else s.bump kSigRemoteDrop 1
      else sendPacket s { dst := a, src := s.self, kind := 8, group := g.roster.group, epoch := g.roster.epoch } 0
        (leBytes 2 f.setSig ++ leBytes 8 f.value)

/-- The step boundary of a fence (R229, R232, R447 step 5, R534). -/
def passStep (s : State) (c : Nat) : State :=
  let s1 := s.bump (objKey c kAcctSteps) 1
  plannedReform (digestStep (afterAccess c (stepBoundary s1 c)) c)

/-- FNC (R447): completes once its earlier ops have completed and its signal has come; with `INVAL` the context's cached translations
are dropped, and then its own signal is given. -/
def execFnc (op : Nat) (s : State) : Host.Outcome State Fault Refusal :=
  live s (onForm .fnc op (fun s o =>
    let f := fncOf o.desc
    if !fenceStep1 s o ∨ (f.waitEn ∧ kvGet 0 s.sig f.waitSig < f.thresh) then s
    else
      let s0 := if f.inval then s.setDp (dropXlats s.dp o.ctx) else s
      let s1 := if !f.sigEn then s0 else if f.remote then remoteSignal s0 f else s0.signal f.setSig f.value
      let s2 := finishOp s1 o.id 0 0
      if f.stepEn then passStep s2 o.ctx else s2))

/-- FNC_TIMEOUT (R451): the wait expires before the signal. -/
def execFncTimeout (op : Nat) (s : State) : Host.Outcome State Fault Refusal :=
  live s (onForm .fnc op (fun s o =>
    let f := fncOf o.desc
    match o.waitSince with
    | none => s
    | some t =>
      if f.timeoutUs = 0 ∨ f.thresh ≤ kvGet 0 s.sig f.waitSig ∨ !s.expired t (f.timeoutUs * 1000) then s
      else
        let s1 := s.bump kFncTimeoutCount 1
        if f.toAct then finishOp s1 o.id 0x01B0 0 else jobFault s1 o.ctx 2 0))

/-! ## Completion -/

/-- OP_COMPLETE (R476, R478): the entry of an op that has completed is written, in completion order. -/
def execOpComplete (op : Nat) (s : State) : Host.Outcome State Fault Refusal :=
  live s (fun s => match s.op? op with
    | some o => postOp s o
    | none => s)

/-- CQ_FULL_WAIT_EXPIRY (R478). -/
def execCqFullWaitExpiry (ctx : Nat) (s : State) : Host.Outcome State Fault Refusal :=
  onCtx ctx s (fun s =>
    match (s.ctx ctx).doneQ.head?.bind s.op? with
    | none => s
    | some o =>
      match o.cqSince with
      | none => s
      | some t =>
        if cqFull s ctx ∧ s.expired t (s.obj (objKey ctx kCqFullWaitUs) * 1000) then jobFault s ctx 4 0 else s)

/-- OP_WATCHDOG_EXPIRY (R453). -/
def execOpWatchdogExpiry (op : Nat) (s : State) : Host.Outcome State Fault Refusal :=
  live s (fun s =>
    match s.op? op with
    | none => s
    | some o =>
      let ms := cOpLimitMs (s.ctx o.ctx).record
      if o.phase = .started ∧ ms ≠ 0 ∧ !isMedia o.opc ∧ s.expired o.startedAt (ms * 1000000) then jobFault s o.ctx 3 0 else s)

/-! ## Doorbells of queues (R475, R477) -/

/-- The latest accepted value of a doorbell (R473). -/
def setDb (s : State) (off v : Nat) : State := { s with db := kvSet 0 s.db off v }

/-- A submission doorbell. -/
def sqDoorbell (s : State) (c p : Nat) : State :=
  let C := s.ctx c
  let ahead := fun (x : Nat) => (x + 2 ^ 32 - C.sqCons) % 2 ^ 32
  if C.st ≠ .active then s.bump kSqInactiveIgnored 1
  else if ahead p ≤ 2 ^ s.obj (objKey c kSqLog2) ∧ ahead C.sqProd ≤ ahead p then
    setDb (s.setCtx c { C with sqProd := p }) (4096 * c) p
  else s.bump kSqDoorbellIgnored 1

/-- A completion doorbell. -/
def cqDoorbell (s : State) (c q : Nat) : State :=
  let C := s.ctx c
  let past := fun (x : Nat) => (x + 2 ^ 32 - C.cqCons) % 2 ^ 32
  if past q ≤ past C.cqProd then setDb (s.setCtx c { C with cqCons := q, intArmed := true }) (4096 * c + 8) q
  else s.bump kCtrlIgnoredCount 1

/-- SQ_DB (R475). -/
def execSqDb (ctx index : Nat) (s : State) : Host.Outcome State Fault Refusal := onCtx ctx s (fun s => sqDoorbell s ctx (index % 2 ^ 32))

/-- CQ_DB (R477). -/
def execCqDb (ctx index : Nat) (s : State) : Host.Outcome State Fault Refusal := onCtx ctx s (fun s => cqDoorbell s ctx (index % 2 ^ 32))

/-- CQ_MOD_EXPIRY (R477): a held interrupt is sent. -/
def execCqModExpiry (ctx : Nat) (s : State) : Host.Outcome State Fault Refusal :=
  onCtx ctx s (fun s =>
    let C := s.ctx ctx
    if C.intHeld ∧ (C.lastInt.all (fun t => decide (t + s.obj (objKey ctx kCqModUs) * 1000 ≤ s.time))) then
      sendInt (s.setCtx ctx { C with intHeld := false, lastInt := some s.time }) ctx (s.obj (objKey ctx kCqVector))
    else s)

/-! ## Host reads (R469) -/

/-- How an op ends whose read of host memory has failed: a collective with its record, a prefetch with its schedule, an ING with its
batch; an op that works on memories alone, after what it did before that read. `part` is the prefetch entry that the read was for. -/
def endUnread (s : State) (o : Op) (part : Nat) : State :=
  match s.coll? o.id, s.scheds.find? (fun x => x.op == o.id) with
  | some c, _ => endColl s c 0x0207
  | none, some x =>
    cancelSched s { x with inflight := x.inflight.filter (fun p => p.1 ≠ part), ready := x.ready ++ x.inflight.filter (fun p => p.1 == part) } 0x0207
  | none, none =>
    if o.opc = opING then dropIng (finishOp s o.id 0x0207 0) o.id
    else match (formOf o.desc).bind (opPlan s o) with
      | none => finishOp s o.id 0x0207 0
      | some p => settle s o { acts := (beforeHostRead (runPlan p codeOrder).1.acts.reverse).reverse } 0x0207

/-- The op of a failed read ends with 0x0207, and its other reads are not awaited any more. -/
def failHostRead (s : State) (r : HostRd) : State :=
  let s1 : State := { s with zlReads := s.zlReads.filter (fun x => x.op ≠ r.op) }
  match s1.op? r.op with
  | none => s1
  | some o => if o.phase = .started then endUnread s1 o r.part else s1

def dropRead (s : State) (r : HostRd) : State :=
  { s with zlReads := s.zlReads.filter (fun x => !(x.port == r.port && x.tag == r.tag)) }

/-- A read of an op has come: transfers that waited for a tag are sent, and with the last one the op may go on. -/
def readCame (s : State) (o : Op) : State :=
  let r := sendMrds o.id o.ctx o.hostTodo s
  r.1.putOp { o with hostTodo := r.2, hostOk := r.2.isEmpty && !r.1.zlReads.any (fun x => x.op == o.id) }

def findRead (s : State) (port ttag : Nat) : Option HostRd := s.zlReads.find? (fun r => r.port == port && r.tag == ttag)

/-- HOST_READ_COMPLETION (R469): with the last of its data the op is released; CPL_ERR ends it; a completion of no outstanding read is late. -/
def execHostReadCompletion (port ttag err : Nat) (s : State) : Host.Outcome State Fault Refusal :=
  if 2 ≤ port then .next s
  else live s (fun s =>
    match findRead s port ttag with
    | none => s.bump kZlLateCplCount 1
    | some r =>
      let s1 := dropRead s r
      if err ≠ 0 then failHostRead s1 r
      else match s1.op? r.op with
        | some o => readCame s1 o
        | none => s1)

/-- HOST_READ_TIMEOUT (R469). -/
def execHostReadTimeout (port ttag : Nat) (s : State) : Host.Outcome State Fault Refusal :=
  if 2 ≤ port then .next s
  else live s (fun s =>
    match findRead s port ttag with
    | none => s
    | some r => if s.expired r.since (s.obj kZlCplTimeoutUs * 1000) then failHostRead (dropRead s r) r else s)

end Sys2Proof.Machine
end

