-- ==== Sys2Proof/Machine/Tick.lean ====
section
/-! DEFINITION. Tick doorbells (R361, R364, R365, R373, R374), commits that wait for the twin (R530, R532), and control-window
writes (R472, R473). -/

namespace Sys2Proof.Machine

/-- Runs engine work for a context; a fault of an access tears the context down (R664). -/
def runFor (c : Nat) (p : Dev Unit) (s : State) : State := afterAccess c (runDev p s)

/-- Whether the sequence engine serves a context: it is ACTIVE and has a serving record. -/
def isServing (s : State) (c : Nat) : Bool := (s.ctx c).st == .active && (s.srv c).record != 0

/-- The latest accepted tick doorbell of a context. -/
def noteTickDb (s : State) (c word : Nat) : State := setDb s (4096 * c + 16) word

/-- Counts the engine's time on a doorbell to its context: a free number of ns within the bounds of R375 (R376). -/
def engineTime (s : State) (c lo hi : Nat) : State :=
  (s.setDp { s.dp with freeCtr := s.dp.freeCtr + 1 }).bump (objKey c kAcctEngineNs)
    (lo + (Config.freeWord s.dp.freeCtr).toNat % (hi - lo + 1))

/-- Pages that the engine has swapped out and in. -/
def pagesMoved (s : State) : Nat := s.obj kSwapOutPages + s.obj kSwapInPagesDone

/-- The longest time of a BUILD that led from one state to another (R375). -/
def buildBound (s t : State) (c : Nat) : Nat :=
  27000 + 200 * (((t.srv c).cons + 2 ^ 32 - (s.srv c).cons) % 2 ^ 32) + 200 * (pagesMoved t - pagesMoved s)

/-- BUILD (R365), with its changed entries sent to the twin (R529). -/
def buildDoor (s : State) (c word : Nat) : State :=
  if !isServing s c ∨ (s.srv c).tick.isSome then ignoreSeq s
  else
    let s1 := noteTickDb s c word
    let s2 := runFor c (buildTick c (bits word 31 0)) s1
    if devWaits (buildTick c (bits word 31 0)) s1 then s
    else mirrorEntries c s1 (engineTime s2 c 3000 (buildBound s1 s2 c))

/-- A commit takes effect (R373); entries that changed go to the twin. -/
def finishCommit (s : State) (c : Nat) : State :=
  let v := s.srv c
  let at_ := v.commitAt.getD s.time
  let s1 := s.bump kMirrorWaitNs (s.time - at_)
  let s2 := afterAccess c (commitTick c at_ s1)
  let s3 := v.dropped.foldl (fun s k => s.setStream k { s.stream k with note := 0x0506 }) s2
  plannedReform (mirrorEntries c s (engineTime s3 c 1000 10000))

/-- The streams of an open tick whose commit completes a chunk under full mirroring, with their rows. -/
def mirroredWork (s : State) (c : Nat) : List (Nat × Nat) :=
  match (s.srv c).tick with
  | none => []
  | some t => t.work.filter (fun p => completes (s.stream p.1) && (s.stream p.1).cfg.mirror)

/-- Sends the rows of every completed chunk and notes what the commit waits for (R530 step 1). -/
def sendRows (c : Nat) : List (Nat × Nat) → Dev Unit
  | [] => pure ()
  | p :: rest => do
    let s ← get
    let ps ← mirrorPieces c p.1 (s.srv c) (s.stream p.1) p.2
    ps.forM (fun bs => Dev.upd (fun s =>
      let n := s.twin.seq
      let s1 := sendMirror s c 1 bs
      s1.setSrv c { s1.srv c with acks := (s1.srv c).acks ++ [(n, p.1)] }))
    sendRows c rest

/-- COMMIT (R373, R530): it waits for the twin's acknowledgements of mirrored rows, where there are any. -/
def commitDoor (s : State) (c word : Nat) : State :=
  if !isServing s c ∨ (s.srv c).tick.isNone ∨ (s.srv c).commitAt.isSome then ignoreSeq s
  else
    let s1 := noteTickDb s c word
    let s2 := s1.setSrv c { s1.srv c with commitAt := some s.time }
    let work := if s.twin.st = 2 then mirroredWork s c else []
    let s3 := runFor c (sendRows c work) s2
    if (s3.srv c).commitAt.isSome && (s3.srv c).acks.isEmpty then finishCommit s3 c else s3

/-- ABORT (R374). -/
def abortDoor (s : State) (c word : Nat) : State :=
  if !isServing s c ∨ (s.srv c).tick.isNone ∨ (s.srv c).commitAt.isSome then ignoreSeq s
  else
    let pages := (((s.srv c).tick.map (·.pages.length)).getD 0)
    engineTime (runFor c (abortTick c) (noteTickDb s c word)) c 1000 (10000 + 20 * pages)

/-- A tick doorbell by its `KIND` (R361, R364). -/
def tickDoor (s : State) (c word : Nat) : State :=
  if bits word 61 32 ≠ 0 then ignoreSeq s
  else match bits word 63 62 with
    | 0 => buildDoor s c word
    | 1 => if bits word 31 0 = 0 then commitDoor s c word else ignoreSeq s
    | 2 => if bits word 31 0 = 0 then abortDoor s c word else ignoreSeq s
    | _ => ignoreSeq s

/-- BUILD (R365): a doorbell word of `KIND` 0. -/
def execBuild (ctx word : Nat) (s : State) : Host.Outcome State Fault Refusal :=
  onCtx ctx s (fun s => if bits word 63 62 = 0 then tickDoor s ctx (word % 2 ^ 64) else ignoreSeq s)

/-- COMMIT (R373): a doorbell word of `KIND` 1. -/
def execTickCommit (ctx word : Nat) (s : State) : Host.Outcome State Fault Refusal :=
  onCtx ctx s (fun s => if bits word 63 62 = 1 then tickDoor s ctx (word % 2 ^ 64) else ignoreSeq s)

/-- ABORT (R374): a doorbell word of `KIND` 2. -/
def execTickAbort (ctx word : Nat) (s : State) : Host.Outcome State Fault Refusal :=
  onCtx ctx s (fun s => if bits word 63 62 = 2 then tickDoor s ctx (word % 2 ^ 64) else ignoreSeq s)

end Sys2Proof.Machine
end

