-- ==== Sys2Proof/Machine/TwinCmd.lean ====
section
/-! DEFINITION. The commands of the twin and its tether (R522 to R540, R554). -/

namespace Sys2Proof.Machine

/-- A tether packet of another pair epoch, or one that no rule awaits, is discarded and counted (R523, R539). -/
def dropTether (s : State) : State := s.bump kTetherDropCount 1

/-- Takes a tether packet of the current pair epoch. -/
def onTether (pkt : Packet) (s : State) (f : State → State) : Host.Outcome State Fault Refusal :=
  live s (fun s => if pEpoch pkt.hdr = s.twin.epoch ∧ s.twin.st ≠ 0 then f s else dropTether s)

def setTwin (s : State) (x : Twin) : State := { s with twin := x }

/-- A report to the leaf manager: 1 fault cause, 2 digests, 3 takeover, 4 link loss, 5 pair report (R537, R538, R540, R654). -/
def leafReport (s : State) (data : List Nat) : State := s.send .leafReport 0 data

/-! ## Heartbeats and probes (R524, R538, R539) -/

/-- ACTIVE tether ports. -/
def tetherPorts (s : State) : List Nat := [32, 33, 34, 35].filter (fun p => portActive false (s.port false p))

/-- HEARTBEAT_SEND (R524): a heartbeat with `TWIN_STATE` and member number on every ACTIVE tether port. -/
def execHeartbeatSend (s : State) : Host.Outcome State Fault Refusal :=
  live s (fun s =>
    if s.twin.st = 2 ∨ s.twin.st = 4 then
      (sendTether s 10 0 0 true [s.twin.st, s.twin.member]).bump kTetherHbSent (tetherPorts s).length
    else s)

/-- HEARTBEAT (R524, R539): one that comes before the probe's expiry restarts the wait. -/
def execHeartbeat (pkt : Packet) (s : State) : Host.Outcome State Fault Refusal :=
  onTether pkt s (fun s =>
    if s.twin.st = 2 then setTwin s { s.twin with beat := true, missed := 0, probeAt := none }
    else if s.twin.st = 4 then setTwin s { s.twin with beat := true }
    else dropTether s)

/-- A PROBE over the fabric on virtual channel 0 (R523, R538). -/
def sendProbe (s : State) (answer : Nat) (bs : List Nat) : State :=
  sendPacket s { dst := s.twin.addr, src := s.self, kind := 14, epoch := s.twin.epoch, chunk := answer } 0 bs

/-- HEARTBEAT_INTERVAL_MISS (R524, R538). -/
def execHeartbeatIntervalMiss (s : State) : Host.Outcome State Fault Refusal :=
  live s (fun s =>
    if s.twin.st = 4 then (if s.twin.beat then setTwin s { s.twin with beat := false } else s.bump kTetherHbMiss 1)
    else if s.twin.st ≠ 2 then s
    else if s.twin.beat then setTwin s { s.twin with beat := false }
    else
      let n := s.twin.missed + 1
      let s1 := (setTwin s { s.twin with missed := n }).bump kTetherHbMiss 1
      if s.obj kTetherHbLimit ≤ n ∧ s.twin.probeAt.isNone then
        (sendProbe (setTwin s1 { s1.twin with probeAt := some s.time }) 0 []).bump kProbeCount 1
      else s1)

/-! ## Takeover (R540) -/

/-- Adopts one mirrored entry of the partner, as of its latest commit. -/
def adoptStream (x : Stream) : Stream :=
  if x.st < 5 then x
  else if x.cfg.mirror then { x with st := adoptedState x.st, resume := adoptedState x.st, mode := x.cmode, alloc := x.mblocks, mblocks := 0, note := 0x0505 }
  else { x with st := stWait, resume := stWait, mode := x.cmode, alloc := 0, mblocks := 0, note := 0x0507, orphan := true }

/-- Moves the free pages of the mirror pool into the HBM pool. -/
def mergePages (c : Nat) : Nat → Dev Unit
  | 0 => pure ()
  | n + 1 => do
    match ← nextPage c .mirror with
    | none => pure ()
    | some va => do
      givePage c .hbm va
      mergePages c n

/-- Step 4 of R540 for one serving context; the entries it changes are written to the table at once (log 82). -/
def adoptPools (s : State) (c : Nat) : State :=
  let ticks := srBucketTicks (s.srv c).record
  let s1 := runFor c (mergePages c (poolOf s c .mirror).free) s
  let s2 := s1.setSrv c { s1.srv c with bucketLeft := ticks }
  writeBackEntries (s2.setObj (objKey c kBucketMode) (b2n (ticks != 0))) c

/-- Commits that wait for the twin take effect without it, and tickets that wait for it are answered (R532, R538, R546). -/
def releaseWaits (s : State) : State :=
  let s1 := ((s.serve.filter (fun p => p.2.commitAt.isSome)).map (·.1)).foldl finishCommit s
  let w := s1.mgr.waiting
  w.foldl (fun s x =>
    let a := fun (i : Nat) => x.2.2.getD i 0
    answerTicket s x.2.1 (a 0) (a 1) (a 2) (a 3) (a 4)) { s1 with mgr := { s1.mgr with waiting := [] } }

/-- The survivor takes over the manager's role that its partner mirrored (R546). -/
def takeRoles (s : State) : State :=
  { s with groups := s.groups.map (fun g =>
             { g with roster := { g.roster with role := max g.roster.role (kvGet 0 s.twin.roles g.roster.group) } })
           twin := { s.twin with roles := [] } }

/-- The device declares its partner lost (R540); `how`: 1 FAULT received, 2 silent tether and failed probe. -/
def declareLost (s0 : State) (how : Nat) : State :=
  let s := takeRoles s0
  let e := (s.twin.epoch + 1) % 2 ^ 32
  let s1 := setTwin s { s.twin with epoch := e, st := 3, blocks := 0, probeAt := none, missed := 0, beat := false }
  let s2 := s1.setDp { partnerFaultReels s1.dp with partnerPages := 0 }
  let s3 := (s2.bump kTwinTakeoverCount 1).log
    { source := 0x5100, code := 0x5100, sev := 2, data := dataAt 576 s.twin.partner + dataAt 544 e + dataAt 536 how }
  let s4 := releaseWaits (twinInt s3)
  let s5 := ((s4.serve.filter (fun p => p.2.record != 0)).map (·.1)).foldl adoptPools
    { s4 with seq := s4.seq.map (fun p => (p.1, adoptStream p.2)) }
  leafReport s5 [3, e]

/-- FAULT (R538). -/
def execTetherFault (pkt : Packet) (s : State) : Host.Outcome State Fault Refusal :=
  onTether pkt s (fun s => if s.twin.st = 2 ∨ s.twin.st = 4 then declareLost s 1 else dropTether s)

/-- Link loss (R538): commits go on without mirroring, and the leaf manager is told. -/
def linkLoss (s : State) : State := leafReport (releaseWaits (setTwin s { s.twin with st := 4, probeAt := none })) [4]

/-- PROBE request (R537, R538): answered with `TWIN_STATE`; a live twin that answers enters LINKLOSS with its partner. -/
def execProbeRequest (pkt : Packet) (s : State) : Host.Outcome State Fault Refusal :=
  onTether pkt s (fun s =>
    let s1 := sendProbe s 1 [s.twin.st]
    if s.twin.st = 2 then linkLoss s1 else s1)

/-- PROBE answer (R538, R539). -/
def execProbeAnswer (pkt : Packet) (s : State) : Host.Outcome State Fault Refusal :=
  onTether pkt s (fun s =>
    if s.twin.st ≠ 2 ∨ s.twin.probeAt.isNone then dropTether s
    else if pkt.data.headD 0 = 5 then declareLost s 2
    else linkLoss s)

/-- The probe's wait expires (R538). -/
def execProbeTimeout (s : State) : Host.Outcome State Fault Refusal :=
  live s (fun s =>
    match s.twin.probeAt with
    | some t => if s.twin.st = 2 ∧ s.expired t (s.obj kTwinProbeUs * 1000) then declareLost s 2 else s
    | none => s)

/-! ## Mirroring (R528 to R530, R546) -/

/-- Writes a mirrored entry into its slot; one that became FREE frees the slot and returns its mirror pages. `TICKS_RUN` tells a
commit's entry, whose `MODE` a takeover keeps, from a build's (R373, R540). -/
def takeEntry (bs : List Nat) (s : State) : State :=
  let slot := leNat (bs.take 4)
  let w := leNat ((bs.drop 4).take 128)
  let x := streamOf w
  let old := s.stream slot
  if 1 ≤ old.st ∧ old.st ≤ 4 then s
  else
    let s1 : State := { s with gens := kvSet 0 s.gens slot (bits w 708 697) }
    if x.st = 0 then
      writeBackEntry ((runFor old.ctx (freePages old.ctx (s1.srv old.ctx) old old.mblocks .mirror) s1).setStream slot {}) slot
    else
      writeBackEntry (s1.setStream slot
        { x with st := mirrorState x.st, mblocks := old.mblocks
                 cmode := if x.ticksRun = old.ticksRun then old.cmode else x.mode }) slot

/-- Writes mirrored rows into the page of a block, which comes from the mirror pool where the map has none; false where the
pool has none. -/
def takeRows (bs : List Nat) : Dev Bool := do
  let f := fun (i n : Nat) => leNat ((bs.drop i).take n)
  let slot := f 0 4
  let s ← get
  let x := s.stream slot
  let c := x.ctx
  let v := s.srv c
  let m := modelOf v x
  let entry := mapAddr v x (f 4 1) (f 5 4) (f 9 1)
  let old ← Dev.rdD c entry 8 true
  let page ← (if old ≠ 0 then pure (some old)
    else do
      match ← takeN c .mirror 1 with
      | some (p :: _) => do
        Dev.wrD c entry (leBytes 8 p) true
        pure (some p)
      | _ => pure none)
  match page with
  | none => pure false
  | some p => do
    let n := f 12 2
    Dev.wrD c (p + f 10 2 * mKRow m) ((bs.drop 14).take (n * mKRow m))
    Dev.wrD c (p + mPP m * mKRow m + f 10 2 * mVRow m) ((bs.drop (14 + n * mKRow m)).take (n * mVRow m))
    Dev.upd (fun s => s.setStream slot { s.stream slot with mblocks := max (s.stream slot).mblocks (f 5 4 + 1) })
    pure true

/-- Acknowledges a MIRROR by its number, or answers NO_SPACE. -/
def ackMirror (s : State) (n noSpace : Nat) : State := sendTether s 12 noSpace n false []

/-- Rows that arrive (R530 steps 2 and 3); on NO_SPACE the stream's mirror pages go back to the mirror pool. -/
def takeRowsPkt (n : Nat) (bs : List Nat) (s : State) : State :=
  let slot := leNat (bs.take 4)
  let c := (s.stream slot).ctx
  if (s.stream slot).st < 5 then dropTether s
  else match ((takeRows bs).run s : Except DevStop Bool × State) with
    | (.error (.fault va), s1) => jobFault s1 c 5 va
    | (.error .wait, _) => s
    | (.ok true, s1) => ackMirror s1 n 0
    | (.ok false, s1) =>
      let x := s1.stream slot
      let s2 := runFor c (freePages c (s1.srv c) x x.mblocks .mirror) s1
      ackMirror (s2.setStream slot { s2.stream slot with mblocks := 0, cfg := { x.cfg with mirror := false } }) n 1

/-- A manager's ticket arrives at its twin (R546). -/
def takeGiven (n : Nat) (bs : List Nat) (s : State) : State :=
  let f := fun (i k : Nat) => leNat ((bs.drop i).take k)
  let t := f 10 8
  ackMirror { s with mgr := { s.mgr with next := max s.mgr.next (t + 1), given := s.mgr.given ++ [(f 0 2, f 2 4, f 6 4, t)] } } n 0

/-- The role of a manager arrives at its twin (R546). -/
def takeRole (n : Nat) (bs : List Nat) (s : State) : State :=
  ackMirror (setTwin s { s.twin with roles := kvSet 0 s.twin.roles (leNat (bs.take 2)) (bs.getD 2 0) }) n 0

/-- MIRROR (R529, R530, R546): `CHUNK` tells entries (0), rows (1), tickets (2) and roles (3) apart, `TICKET` is its number (log 40). -/
def execMirror (pkt : Packet) (s : State) : Host.Outcome State Fault Refusal :=
  onTether pkt s (fun s =>
    if s.twin.st ≠ 2 then dropTether s
    else match pChunk pkt.hdr with
      | 0 => takeEntry pkt.data s
      | 1 => takeRowsPkt (pTicket pkt.hdr) pkt.data s
      | 2 => takeGiven (pTicket pkt.hdr) pkt.data s
      | 3 => takeRole (pTicket pkt.hdr) pkt.data s
      | _ => dropTether s)

/-- The acknowledgement of rows: the commit takes effect once nothing is outstanding; NO_SPACE ends the stream's mirroring. -/
def ackRows (s : State) (c : Nat) (n : Nat) (slot : Nat) (noSpace : Bool) : State :=
  let v := s.srv c
  let rest := v.acks.filter (fun a => a.1 != n && !(noSpace && a.2 == slot))
  let s1 := s.setSrv c { v with acks := rest, dropped := if noSpace then slot :: v.dropped else v.dropped }
  let x := s1.stream slot
  let s2 := if noSpace then s1.setStream slot { x with cfg := { x.cfg with mirror := false }, note := 0x0506 } else s1
  if rest.isEmpty then finishCommit s2 c else s2

/-- MIRROR_ACK (R530, R532, R546); `CHUNK` bit 0 is NO_SPACE. -/
def execMirrorAck (pkt : Packet) (s : State) : Host.Outcome State Fault Refusal :=
  onTether pkt s (fun s =>
    let n := pTicket pkt.hdr
    if s.twin.st ≠ 2 then dropTether s
    else match s.mgr.waiting.find? (fun w => w.1 == n) with
      | some w =>
        let a := fun (i : Nat) => w.2.2.getD i 0
        answerTicket { s with mgr := { s.mgr with waiting := s.mgr.waiting.filter (fun x => x.1 != n) } } w.2.1 (a 0) (a 1) (a 2) (a 3) (a 4)
      | none =>
        match s.serve.findSome? (fun p => (p.2.acks.find? (fun a => a.1 == n)).map (fun a => (p.1, a.2))) with
        | some p => ackRows s p.1 n p.2 (bit (pChunk pkt.hdr) 0)
        | none => s)

/-- DIGEST (R534, R535): the partner's words of a step. -/
def execDigest (pkt : Packet) (s : State) : Host.Outcome State Fault Refusal :=
  onTether pkt s (fun s =>
    if s.twin.st ≠ 2 then dropTether s
    else
      let c := pChunk pkt.hdr
      let step := leNat (pkt.data.take 8)
      let n := min ((pkt.data.length - 8) / 8) (s.obj (objKey c kDigestCount))
      let ws := (List.range n).map (fun i => leNat ((pkt.data.drop (8 + 8 * i)).take 8))
      digestCompare (setTwin s { s.twin with theirs := (c, step, ws) :: s.twin.theirs }) c step)

/-! ## UNPAIR (R554) -/

/-- The twin becomes UNPAIRED, discards its mirror entries, also in the table, and pools, and frees its twin window. -/
def unpairTwin (s : State) : State :=
  let s1 := releaseWaits (setTwin s
    { s.twin with st := 0, partner := 0, blocks := 0, probeAt := none, missed := 0, beat := false, own := [], theirs := [], roles := [] })
  let mirrored := (s1.seq.filter (fun p => decide (5 ≤ p.2.st))).map (·.1)
  mirrored.foldl writeBackEntry
    { s1 with seq := s1.seq.filter (fun p => decide (p.2.st < 5)), mpools := [], dp := { s1.dp with partnerPages := 0 } }

end Sys2Proof.Machine
end

