-- ==== Sys2Proof/Machine/GroupCmd.lean ====
section
/-! DEFINITION. The commands of group management (R545 to R553): declarations, PREPARE and COMMIT, spare pairs, token beacons and
leases. -/

namespace Sys2Proof.Machine

/-- A management message of a group's current epoch or a later one; a stale one is discarded and counted (R556). -/
def dropStale (s : State) : State := s.bump kMgrStaleDrop 1

/-- Runs `k` on a group that this device holds. -/
def onGroup (group : Nat) (s : State) (k : State → Group → State) : Host.Outcome State Fault Refusal :=
  live s (fun s => match findGroup s group with
    | some g => k s g
    | none => s)

/-- A device of a group is to be replaced by its twin: the primary manager forms the next epoch, and joins a further
declaration to a re-formation in progress (R547, R549). -/
def reformAround (s : State) (g : Group) (member : Nat) : State :=
  match g.forming with
  | some r => startForming s g (standInRoster r member r.epoch)
  | none => startForming s g (standInRoster g.roster member (g.roster.epoch + 1))

/-- LEAF_REPORT (R547 steps 1 to 3): the leaf manager confirms the fence, or has the board hold the device in reset, and
reports upwards; a primary manager starts the re-formation. -/
def execLeafReport (member : Nat) (fenced : Bool) (s : State) : Host.Outcome State Fault Refusal :=
  live s (fun s =>
    (s.groups.filter (fun g => decide (1 ≤ g.roster.role) && decide (member < g.roster.size))).foldl (fun s g =>
      let s1 := if fenced then s else s.send .deviceReset ((memberAddr g.roster member).getD 0) [member]
      if g.roster.role = 4 then reformAround s1 g member
      else s1.send .mgr ((memberAddr g.roster g.roster.primary).getD 0) [5, g.roster.group, member]) s)

/-- PREPARE (R547 step 4): the group is PREPARING, and the member acknowledges. A device that is in sixteen groups, or that has
not paired since its reset, joins none (R9, R545). -/
def execPrepare (roster : Roster) (s : State) : Host.Outcome State Fault Refusal :=
  live s (fun s =>
    let ack := fun (s : State) => s.send .mgr ((memberAddr roster roster.primary).getD 0) [2, roster.group, roster.member]
    match findGroup s roster.group with
    | some g =>
      if roster.epoch ≤ g.roster.epoch then dropStale s
      else ack (putGroup s { g with st := 2, prep := some roster })
    | none =>
      if 16 ≤ s.groups.length ∨ !s.twin.paired then s
      else
        let empty : Roster := { roster with epoch := 0, size := 0, lines := [] }
        ack { s with groups := s.groups ++ [{ roster := empty, st := 2, prep := some roster }] })

/-- COMMIT (R547 step 5). -/
def execReformCommit (roster : Roster) (s : State) : Host.Outcome State Fault Refusal :=
  onGroup roster.group s (fun s g => if roster.epoch ≤ g.roster.epoch then dropStale s else installRoster s roster)

/-- Whether every device of a forming roster has acknowledged. -/
def allAcked (s : State) (r : Roster) (acks : List Nat) : Bool :=
  let from_ := acks.filterMap (memberAddr r)
  ((List.range r.size).filterMap (memberAddr r)).all (fun a => a == s.self || from_.contains a)

/-- PREPARE acknowledged (R547 step 5): with every acknowledgement in, the primary manager sends COMMIT and installs it. -/
def execPrepareAck (group member : Nat) (s : State) : Host.Outcome State Fault Refusal :=
  onGroup group s (fun s g =>
    match g.forming with
    | none => dropStale s
    | some r =>
      let acks := if g.acks.contains member then g.acks else g.acks ++ [member]
      if allAcked s r acks then
        let s1 := ((((List.range r.size).filterMap (memberAddr r)).filter (· ≠ s.self)).dedup).foldl
          (fun s a => s.send .mgr a [3, r.group, r.epoch]) s
        installRoster s1 r
      else putGroup s { g with acks := acks })

/-- A member's acknowledgement is late (R549): it counts as faulted, and PREPARE goes out again with its twin standing in. -/
def execPrepareTimeout (group member : Nat) (s : State) : Host.Outcome State Fault Refusal :=
  onGroup group s (fun s g =>
    match g.forming with
    | none => s
    | some _ =>
      if g.acks.contains member ∨ !s.expired g.sentAt (s.obj kReformPrepareMs * 1000000) then s
      else reformAround s g member)

/-- SYNCED (R551): the primary manager will move the damaged pair's numbers at the next step boundary or commit. -/
def execSynced (group member : Nat) (s : State) : Host.Outcome State Fault Refusal :=
  onGroup group s (fun s g =>
    if g.roster.role = 4 ∧ g.roster.lines.any (fun l => l.incoming && (l.member == member || l.member + 1 == member)) then
      putGroup s { g with synced := some member }
    else s)

/-! ## The tether token (R552, R553) -/

/-- Whether this device is a twin of the group's token pair. -/
def holdsToken (r : Roster) : Bool := r.member == r.token || r.member == r.token + 1

/-- BEACON_SEND (R552): only while PAIRED, or within a lease. -/
def execBeaconSend (group : Nat) (s : State) : Host.Outcome State Fault Refusal :=
  onGroup group s (fun s g =>
    let leased := g.leaseAt.any (fun t => !s.expired t (s.obj kTokenLeaseMs * 1000000))
    if holdsToken g.roster && (s.twin.st == 2 || leased) then s.send .beacon group [g.roster.epoch] else s)

/-- The state to which a group returns from a halt: PREPARING while a re-formation is under way. -/
def afterHalt (g : Group) : Nat :=
  if g.prep.isSome ∨ g.forming.isSome then 2 else if g.roster.incoming then 4 else 1

/-- TOKEN_BEACON (R552, R553): a beacon of the current epoch keeps the group ACTIVE, or makes it so again. -/
def execTokenBeacon (group epoch : Nat) (s : State) : Host.Outcome State Fault Refusal :=
  onGroup group s (fun s g =>
    if epoch ≠ g.roster.epoch then dropStale s
    else putGroup s { g with beaconAt := s.time, st := if g.st ≠ 3 then g.st else afterHalt g })

/-- LEASE (R552). -/
def execLease (group epoch : Nat) (s : State) : Host.Outcome State Fault Refusal :=
  onGroup group s (fun s g =>
    if epoch ≠ g.roster.epoch then dropStale s
    else if holdsToken g.roster then putGroup s { g with leaseAt := some s.time }
    else s)

/-- LEASE_SEND (R552): a primary manager's lease to the token pair. -/
def execLeaseSend (group : Nat) (s : State) : Host.Outcome State Fault Refusal :=
  onGroup group s (fun s g =>
    if g.roster.role ≠ 4 then s
    else (([g.roster.token, g.roster.token + 1].filterMap (memberAddr g.roster)).dedup).foldl
      (fun s a => s.send .mgr a [4, group, g.roster.epoch]) s)

/-- TOKEN_LEASE_EXPIRY (R553): the member halts the group; one that has installed no epoch of it yet is no member. -/
def execTokenLeaseExpiry (group : Nat) (s : State) : Host.Outcome State Fault Refusal :=
  onGroup group s (fun s g =>
    if g.st ≠ 3 ∧ g.roster.size ≠ 0 ∧ s.expired g.beaconAt (s.obj kTokenLeaseMs * 1000000) then
      let data := dataAt 624 group + dataAt 592 g.roster.epoch
      ((putGroup s { g with st := 3 }).bump kTokenHaltCount 1).log { source := 0x5200, code := 0x5202, sev := 2, data := data }
    else s)

end Sys2Proof.Machine
end

