-- ==== Sys2Proof/Machine/LinkCmd.lean ====
section
/-! DEFINITION. The commands of the links: flits and frames that arrive, training, time limits, ports that go down, the
enabling of Soune ports, and the mailbox doorbell (R463 to R466, R482, R486 to R489). -/

namespace Sys2Proof.Machine

/-! ## When ports train (R644, R651, R659) -/

/-- Whether the management firmware runs: stage 2 has completed. -/
def mgmtUp (s : State) : Bool := s.boot.done.contains 2

/-- Whether start-up has failed in stage 1 (R651). -/
def romOnly (s : State) : Bool := s.obj kBootFail == 0x0F20 || s.obj kBootFail == 0x0F21

/-- ZelugLink ports train from stage 7 on, and under the boot ROM after a failure in stage 1. -/
def zlTrains (s : State) : Bool := mgmtUp s || romOnly s

/-- Soune and tether ports train from stage 7 on, and stay idle after a failure of start-up. -/
def souneTrains (s : State) : Bool := mgmtUp s && s.obj kBootFail == 0

/-- Whether a port is in a loopback run: 0 to 35 Soune and tether ports, 64 and 65 ZelugLink ports. -/
def inLoop (s : State) (p : Nat) : Bool := s.boot.loops.any (fun l => l.1 == p)

/-! ## ZelugLink ports -/

/-- The credits that a port that becomes ACTIVE advertises: 512 in each class (R463). -/
def advertise (s : State) (p : Nat) : State :=
  ([0, 1, 2].flatMap (fun k => [(k, 127), (k, 127), (k, 127), (k, 127), (k, 4)])).foldl
    (fun s c => emitFrame s true p 2 0 0 0 false c) s

/-- A port enters ACTIVE: afresh with nothing held, or back from RECOVERY, where it replays what is not acknowledged. -/
def zlActivate (s : State) (p : Nat) : State :=
  let x := s.port true p
  let st := if x.lanes = 16 then 4 else 5
  if x.recovering then
    let s1 := s.setPort true p { x with st := st, since := s.time, recovering := false, naked := false, wait := [] }
    let s2 := if st = 5 then
        (s1.bump kZlWidthDownCount 1).log { source := 0x6005, code := 0x6005, sev := 1, data := dataAt 632 p }
      else s1
    drainWait true p x.wait (if x.buf.isEmpty then s2 else replay s2 true p)
  else advertise (s.setPort true p { st := st, lanes := x.lanes, since := s.time, downs := x.downs }) p

/-- Sends one transaction flit of a failed port on the surviving port; a read takes a tag of that port (R466). -/
def moveFlit (p q : Nat) (s : State) (f : Nat × Nat × Nat) : State :=
  let cls := f.1
  let hdr := f.2.1
  if hdr ≠ 0 ∧ bits hdr 79 76 = 0 then
    match findRead s p (bits hdr 67 56) with
    | none => s
    | some r =>
      let t := (freeTag? s q).getD 0
      let s1 : State := { s with
        zlReads := s.zlReads.map (fun x => if x.port = p ∧ x.tag = r.tag then { x with port := q, tag := t } else x)
        zlTag := (t + 1) % 4096 }
      sendFrame s1 true q cls (setBits hdr 56 12 t) f.2.2
  else sendFrame s true q cls hdr f.2.2

/-- The transactions of a replay buffer: class, header, data; a flit without a header belongs to the transaction before it. -/
def bufFlits : Nat → List (Nat × Nat × Nat) → List (Nat × Nat × Nat)
  | _, [] => []
  | last, b :: bs =>
    let c := ctlOf true b.2.1
    if c.ftype ≠ 0 then bufFlits last bs
    else
      let cls := takenClass true c last
      (cls, c.hdr0, b.2.2) :: bufFlits cls bs

/-- A ZelugLink port goes DOWN (R466): what it had not seen acknowledged is sent on the other port if that is ACTIVE; with
both ports DOWN the device has a hardware fault. -/
def zlDown (s : State) (p : Nat) : State :=
  let x := s.port true p
  let s1 := s.setPort true p { st := 7, since := s.time, downs := x.downs + 1, lanes := x.lanes }
  if portUp s (1 - p) then (bufFlits 0 x.buf ++ x.wait).foldl (moveFlit p (1 - p)) s1
  else if (s.port true (1 - p)).st = 7 then hwFault s1 4 0x6005 0
  else s1

/-- ZL_FLIT_RECEIVE (R464). The transactions in a flit come as commands of their own (log 13). -/
def execZlFlitReceive (port : Nat) (flit : Flit) (s : State) : Host.Outcome State Fault Refusal :=
  if 2 ≤ port then .next s else live s (fun s => (receiveFrame s true port flit.ctrl flit.data flit.uncorrectable).1)

/-- A ZelugLink port goes to another training state. -/
def zlTrain (s : State) (p st lanes : Nat) : State := s.setPort true p { s.port true p with st := st, since := s.time, lanes := lanes }

/-- ZL_RECEIVER_DETECT (R465): receivers, lock, lane numbers or the full rate are reached on `lanes` lanes. -/
def execZlReceiverDetect (port lanes : Nat) (s : State) : Host.Outcome State Fault Refusal :=
  if 2 ≤ port then .next s
  else live s (fun s =>
    let x := s.port true port
    if lanes < 8 ∨ !zlTrains s ∨ inLoop s (64 + port) then s
    else match x.st with
      | 0 => zlTrain s port 1 x.lanes
      | 1 => zlTrain s port 2 x.lanes
      | 2 => zlTrain s port 3 (if x.recovering ∨ lanes < 16 then 8 else 16)
      | 3 => if lanes < x.lanes then s else zlActivate s port
      | 6 => if x.lanes ≤ lanes then zlActivate s port else zlTrain s port 2 8
      | _ => s)

/-- ZL_LINK_STATE_TIMEOUT (R465). -/
def execZlLinkStateTimeout (port : Nat) (s : State) : Host.Outcome State Fault Refusal :=
  if 2 ≤ port then .next s
  else live s (fun s =>
    let x := s.port true port
    let due := fun (ns : Nat) => s.expired x.since ns
    match x.st with
    | 0 => if due 12000000 then zlTrain s port 0 x.lanes else s
    | 1 => if due 24000000 then zlTrain s port 0 x.lanes else s
    | 2 => if due 2000000 then zlTrain s port 0 x.lanes else s
    | 3 => if due 32000000 then zlDown s port else s
    | 6 => if due 1000000 then zlDown s port else s
    | _ => s)

/-! ## Mailbox (R482) -/

/-- A mailbox doorbell. -/
def mailboxDoorbell (s : State) (len : Nat) : State :=
  if s.mbx.busy ∨ len = 0 ∨ 4096 < len then s.bump kMbxIgnored 1
  else
    let req := (List.range len).map (fun i => s.mbx.req.getD i 0)
    setDb { s with mbx := { s.mbx with cur := req, busy := true, done := false } } 0x102000 len

/-- MBX_DB (R482). -/
def execMbxDb (len : Nat) (s : State) : Host.Outcome State Fault Refusal := live s (fun s => mailboxDoorbell s len)

/-! ## Soune ports (R487 to R489) -/

/-- Chunks that left on a port which is no longer ACTIVE, and wait for their acknowledgement, are sent again (R489). -/
def resendPort (s : State) (p : Nat) : State :=
  s.colls.foldl (fun s c =>
    let d := collDesc c.desc
    let t := c.ticket.getD 0
    let s1 := (c.sent.filter (fun x => x.port == p)).foldl (fun s x =>
      sendPacket s { dst := x.dst, src := s.self, kind := 3, group := d.group, epoch := d.epoch, ticket := t,
                     chunk := x.chunk, level := x.level } x.scale x.bytes) s
    match s1.coll? c.op with
    | none => s1
    | some c1 => s1.putColl { c1 with sent := c1.sent.map (fun x =>
        if x.port = p then { x with port := (routePort s1 x.dst t x.chunk).getD 32 } else x) }) s

/-- A Soune port enters a state that is not ACTIVE. -/
def souneLeave (s : State) (p : Nat) (x : Port) : State :=
  let was := portActive false (s.port false p)
  let s1 := s.setPort false p x
  if was then resendPort s1 p else s1

/-- A Soune port goes DOWN. -/
def souneDown (s : State) (p : Nat) : State :=
  let x := s.port false p
  (souneLeave s p { st := 4, since := s.time, downs := x.downs + 1 }).bump (objKey p kPortDownCount) 1

/-- SOUNE_FRAME_RECEIVE (R487). The packets in frames come as commands of their own (log 13). -/
def execSouneFrameReceive (port : Nat) (frame : SouneFrame) (s : State) : Host.Outcome State Fault Refusal :=
  if 36 ≤ port then .next s
  else live s (fun s =>
    if !portActive false (s.port false port) then s
    else
      let s1 := (s.bump (objKey port kPortFecCorr) (b2n (frame.corrected && !frame.uncorrectable))).bump
        (objKey port kPortFecUncorr) (b2n frame.uncorrectable)
      let s2 := (receiveFrame s1 false port frame.ctrl frame.data frame.uncorrectable).1
      if portActive false (s2.port false port) then s2 else resendPort s2 port)

/-- SOUNE_RECEIVER_DETECT (R488): all four lanes detect a receiver or reach lock. -/
def execSouneReceiverDetect (port lanes : Nat) (s : State) : Host.Outcome State Fault Refusal :=
  if 36 ≤ port then .next s
  else live s (fun s =>
    let x := s.port false port
    if lanes < 4 ∨ !souneTrains s ∨ inLoop s port then s
    else match x.st with
      | 0 => s.setPort false port { x with st := 1, since := s.time }
      | 1 => s.setPort false port { st := 2, since := s.time, downs := x.downs, credits := [256, 256, 256, 256], lanes := 4 }
      | 3 =>
        let s1 := s.setPort false port { x with st := 2, since := s.time, recovering := false, naked := false, wait := [] }
        drainWait false port x.wait (if x.buf.isEmpty then s1 else replay s1 false port)
      | _ => s)

/-- SOUNE_PORT_TIMEOUT (R488). -/
def execSounePortTimeout (port : Nat) (s : State) : Host.Outcome State Fault Refusal :=
  if 36 ≤ port then .next s
  else live s (fun s =>
    let x := s.port false port
    let due := fun (ns : Nat) => s.expired x.since ns && !inLoop s port
    match x.st with
    | 0 => if due 10000000 then s.setPort false port { x with since := s.time } else s
    | 1 => if due 100000000 then souneDown s port else s
    | 3 => if due 1000000 then souneDown s port else s
    | 4 => if due 1000000000 then s.setPort false port { x with st := if 3 ≤ x.downs then 5 else 0, since := s.time } else s
    | _ => s)

/-- What a write of `PORT_ENABLE` does (R488). -/
def setPortEnable (s : State) (port value : Nat) : State :=
  let x := s.port false port
  let s1 := s.setObj (objKey port kPortEnable) value
  if value = 0 then souneLeave s1 port { st := 5, since := s.time, downs := x.downs }
  else if x.st = 5 then s1.setPort false port { st := 0, since := s.time, downs := x.downs }
  else s1

end Sys2Proof.Machine
end

