-- ==== Sys2Proof/Machine/Dict.lean ====
section
/-! DEFINITION. The object dictionary (R559 to R563): keys, critical objects, ranges, and what a read answers. -/

namespace Sys2Proof.Machine

/-! ## Naming -/

def objNo (index sub : Nat) : Nat := index * 256 + sub

/-- The key under which an object's value is held, by its selector's present value. -/
def heldKey (s : State) (no : Nat) : Nat :=
  match selectorOf (no / 256) (no % 256) with
  | some k => objKey (s.obj k) no
  | none => no

/-! ## Firmware images (R581) -/

def FwSlot.bytes (x : FwSlot) (off n : Nat) : List Nat := (List.range n).map (fun i => kvGet 0 x.image (off + i))

/-- A field of the header: offset and size in bytes. -/
def FwSlot.field (x : FwSlot) (off n : Nat) : Nat := leNat (x.bytes off n)

def FwSlot.kind (x : FwSlot) : Nat := x.field 8 2
def FwSlot.record (x : FwSlot) : Nat := x.field 10 2
def FwSlot.version (x : FwSlot) : Nat := x.field 12 4
def FwSlot.secVersion (x : FwSlot) : Nat := x.field 16 8
def FwSlot.payload (x : FwSlot) : Nat := x.field 24 8

/-- Bytes of the signature block. -/
def sigBytes : Nat := 384 + 4 + 32 + 384 + 7856

/-- The whole image: header, payload, and the signature block at the next 16-byte boundary. -/
def FwSlot.whole (x : FwSlot) : List Nat := x.bytes 0 (roundUp (256 + x.payload) 16 + sigBytes)

def Fw.slot (f : Fw) (k : Nat) : FwSlot := if k = 0 then f.a else f.b

def Fw.setSlot (f : Fw) (k : Nat) (x : FwSlot) : Fw := if k = 0 then { f with a := x } else { f with b := x }

/-- The slot that is not running. -/
def Fw.other (f : Fw) : Nat := 1 - f.running

/-- The rollback counter, kept in record 0 of the replay-protected partition (R342, R583; log 47). -/
def rbCounter (s : State) : Nat := leNat ((kvGet [] s.dp.ftl.rp 0).take 8)

/-- The 256 bytes of the identification EEPROM (R614), which the SMBus reads without the device. -/
def eeprom (s : State) : List Nat :=
  let bs := leBytes 16 (s.obj kPartNumber) ++ leBytes 16 (s.obj kSerial) ++
    (List.range 220).map (fun i => (Config.eepromByte (32 + i)).toNat)
  bs ++ leBytes 4 (crc32c bs)

/-! ## Sessions -/

def session? (s : State) (id : Nat) : Option Session := s.mgmt.sessions.find? (fun x => x.id == id)

/-- Whether a session is OPEN and its operator holds the critical right (R576). -/
def mayCritical (s : State) (id : Nat) : Bool :=
  match session? s id with
  | some x => x.opened && s.mgmt.operators.any (fun o => o.1 == x.operator && o.2)
  | none => false

/-! ## Critical objects (R562, R631, R657) -/

def isCritical (no : Nat) : Bool :=
  let i := no / 256
  (decide (0x1200 ≤ i) && decide (i ≤ 0x12FF)) || (decide (0x2000 ≤ i) && decide (i ≤ 0x20FF)) || i == 0x4010 ||
  [kThermTripC, kTgCtrl, kSouneAddr, kTwinCmd, kCtxCmd, kCksInject, kMutexSkewNs, kResetCmd, kBtCmd, kLbCtrl].contains no

/-! ## Ranges (R560) -/

/-- Whether `n` bytes at a host physical address lie within the host window (R470). -/
def inHostWindow (s : State) (a n : Nat) : Bool :=
  decide (s.obj kHostWinBase * Config.pageBytes ≤ a) &&
  decide (a + n ≤ (s.obj kHostWinBase + s.obj kHostWinPages) * Config.pageBytes)

/-- The conditions that one region's value alone decides (R267, R268). -/
def regionAlone (v : Nat) : Bool :=
  let r := regionOf v
  r.kind != 3 && (match r.kind with | 0 => r.unit == 0 | 1 => decide (r.unit < 4) | _ => decide (r.unit < 20)) &&
  decide (r.first + r.pages ≤ 11440) && (!r.valid || decide (1 ≤ r.pages))

/-- `REG_RATE` summed over the partitions but one (R285). -/
def rateOthers (s : State) (p : Nat) : Nat :=
  (((List.range 64).filter (· ≠ p)).map (fun q => s.obj (objKey q kRegRate))).sum

/-- A number of an interrupt vector, or none. -/
def vectorOk (v : Nat) : Bool := decide (v ≤ 2047) || v == 0xFFFF

/-- Fields of `TG_CTRL` and their ranges (R295). -/
def tgCtrlOk (v : Nat) : Bool := decide (bits v 61 58 ≤ 7) && bits v 55 54 != 3 && bits v 53 48 == 0 && bits v 13 0 == 0

/-- Conditions on a value beyond the table's range. -/
def valueOk (s : State) (no v : Nat) : Bool :=
  if 0x300101 ≤ no ∧ no ≤ 0x300108 then regionAlone v
  else if no = kCksInject then decide (bits v 22 15 ≤ 128) && decide (bits v 14 7 ≤ 128) && bits v 5 0 == 0
  else if no = kWidTable ∨ no = kReelTable then v % 64 == 0
  else if no = kWidLayers then
    decide (v + (((List.range 256).filter (· ≠ s.obj kWidCtx)).map (fun c => s.obj (objKey c kWidLayers))).sum ≤ 65536)
  else if no = kServeRec then v % 128 == 0
  else if no = kCtxRecord then v % 128 == 0 && inHostWindow s v 128
  else if no = kSqBase ∨ no = kCqBase then v % 4096 == 0
  else if no = kCqVector ∨ no = kMbxVector ∨ no = kTwinVector then vectorOk v
  else if no = kDigestList ∨ no = kMirrorPool then v % 8 == 0
  else if no = kRegRate then (if s.obj kRegSel = 63 then v == 1 else decide (v + rateOthers s (s.obj kRegSel) ≤ 1100))
  else if no = kRegDepth then s.obj kRegSel != 63 || v == 64
  else if no = kRegBorrow then s.obj kRegSel != 63 || v == 0
  else if no = kTgCtrl then tgCtrlOk v
  else if no = kTwinCmd then v == 2
  else if no = kTokenLeaseMs then decide (3 * s.obj kTokenBeaconUs ≤ 1000 * v)
  else if no = kThermWarnC then decide (60 ≤ v) && decide (v + 5 ≤ s.obj kThermTripC)
  else if no = kThermTripC then decide (s.obj kThermWarnC + 5 ≤ v) && decide (v ≤ 115)
  else if no = kPwrPeakW then decide (s.obj kPwrLimitW ≤ v) && decide (v ≤ 3300)
  else if no = kProtVminMv ∨ no = kBayVmaxMv then v % 5 == 0
  else if no = kMutexSkewNs then decide (-1000 ≤ toSigned 16 v) && decide (toSigned 16 v ≤ 1000)
  else if no = kLbPortSel then decide (v < 36) || v == 64 || v == 65 || v == 80 || v == 81
  else if no = kLbCtrl then bits v 6 5 != 3 && bits v 4 0 != 0
  else if no = kResetCmd then v == 1 || v == 2
  else if no = kBtCmd then v == 1
  else if no = kFwCmd then decide (1 ≤ v) && decide (v ≤ 4)
  else true

/-- Whether a written value has the right length, lies in the object's range and meets its conditions (R560, R566). -/
def inRange (s : State) (r : ObjRow) (w : Staged) : Bool :=
  if r.ty = 3 then decide (w.offset < r.bytes) && decide (w.offset + w.bytes.length ≤ r.bytes)
  else
    let v := leNat w.bytes
    w.offset == 0 && w.bytes.length == r.bytes && (r.ty == 1 || (decide (r.lo ≤ v) && decide (v ≤ r.hi))) &&
    (r.counter || valueOk s (objNo w.index w.sub) v)

/-! ## Reading -/

/-- The group that `GRP_SEL` selects, in the order in which the device joined them. -/
def groupSel (s : State) : Option Group := s.groups[s.obj kGrpSel]?

/-- The sensor now hottest, the lowest number among equals (R595). -/
def hottest (s : State) : Nat :=
  ((List.range 404).foldl (fun (b : Nat × Int) i =>
    let t := kvGet 0 s.temps i
    if b.2 < t then (i, t) else b) (0, kvGet 0 s.temps 0)).1

/-- `BOOT_STAGE` (R644). -/
def bootStage (s : State) : Nat := ((List.range 9).map (· + 1)).find? (fun n => !s.boot.done.contains n) |>.getD 10

/-- Whether `FAULT_N` is asserted (R606, R613, R651): in reset it is released (R617). -/
def faultLow (s : State) : Bool := !s.off && (s.twin.st == 5 || s.obj kBootFail != 0)

/-- `CTRL_PINS` (R617). -/
def ctrlPins (s : State) : Nat :=
  b2n s.pins.pwrEn + 2 * b2n s.pins.modRst + 4 * b2n s.pins.pwrGood + 8 * b2n (!faultLow s) + 16 * b2n s.pins.tripAt.isNone +
    32 * b2n (!s.dp.log.alert)

def bayPwr (s : State) (b : Nat) : BayPwr := kvGet {} s.pwr.bays b

/-- `TG_STATUS` (R296). -/
def tgStatus (x : TgChan) : Nat :=
  b2n x.running * 2 ^ 63 + b2n x.done * 2 ^ 62 + b2n x.fail * 2 ^ 61 + x.passes % 2 ^ 16 * 2 ^ 32 + x.mbps % 2 ^ 32

def tgSel (s : State) : TgChan := kvGet {} s.dp.tg (s.obj kTgChanSel)

def tgLogSel (s : State) : Nat × Nat × Nat := (tgSel s).log.getD (s.obj (heldKey s kTgLogSel)) (0, 0, 0)

/-- Numbers of the oldest kept and of the latest written entry of the log. -/
def logFirst (s : State) : Nat := ((s.dp.log.flash.head?).map (·.seq)).getD 0
def logHead (s : State) : Nat := ((s.dp.log.flash.getLast?).map (·.seq)).getD 0

def ctxCode : CtxSt → Nat
  | .free => 0
  | .active => 1
  | .teardown => 2
  | .faulted => 3

/-- Values of the sequence engine's and contexts' objects. -/
def readCtxObj (s : State) (no : Nat) : Option Nat :=
  let c := s.obj kCtxSel
  let q := s.obj kSeqCtx
  if no = kCtxState then some (ctxCode (s.ctx c).st)
  else if no = kCtxInflight then some (s.inflight c).length
  else if no = kDevInflight then some s.ops.length
  else if no = kSigValue then some (kvGet 0 s.sig (s.obj kSigSel))
  else if no = kSqConsumer then some (s.ctx c).sqCons
  else if no = kCqProducer then some (s.ctx c).cqProd
  else if no = kTickNo then some (s.srv q).tickNo
  else if no = kTickEstNs then some ((s.srv q).est % 2 ^ 32)
  else if no = kHbmPoolFree then some (s.srv q).hbm.free
  else if no = kHostPoolFree then some (s.srv q).host.free
  else if no = kBucketLeft then some (s.srv q).bucketLeft
  else if no = kCmdConsumer then some (s.srv q).cons
  else if no = kBuildNo then some (s.srv q).buildNo
  else if no = kSeqActive then some (s.seq.filter (fun p => p.2.st ≠ 0)).length
  else if no = kSeqEntry then some (s.tableEntry (s.obj kSeqReadSlot))
  else if no = kMirrorPoolFree then some (kvGet {} s.mpools (s.obj kMirrorCtx)).free
  else if no = kWidClean then some (s.wid (s.obj kWidCtx)).clean
  else if no = kWidWidenedNow then some (s.wid (s.obj kWidCtx)).w
  else if 0x401101 ≤ no ∧ no ≤ 0x401110 then some ((kvGet {} s.dp.tables (no - 0x401101)).gen % 2 ^ 32)
  else none

/-- Values of the memory system's objects. -/
def readMemObj (s : State) (no : Nat) : Option Nat :=
  if no = kCacheFlush then some (b2n s.dp.flushing)
  else if no = kPoisonEntries then some s.dp.poison.length
  else if no = kTgCtrl then some (s.obj (heldKey s kTgCtrl) % 2 ^ 62 + b2n (tgSel s).running * 2 ^ 63)
  else if no = kTgStatus then some (tgStatus (tgSel s))
  else if no = kTgLogAddr then some (tgLogSel s).1
  else if no = kTgLogExp then some (tgLogSel s).2.1
  else if no = kTgLogXor then some (tgLogSel s).2.2
  else if no = kFtlSparePermille then some s.dp.ftl.spareNow
  else if no = kFtlLifeUsed then some s.dp.ftl.lifeNow
  else if no = kFtlBadBlocks then some s.dp.ftl.badNow
  else if no = kRpWriteCounter then some s.dp.ftl.rpCounter
  else none

/-- Values of the links', the twin's and the groups' objects. -/
def readNetObj (s : State) (no : Nat) : Option Nat :=
  let g := groupSel s
  let r := fun (f : Roster → Nat) => some ((g.map (fun x => f x.roster)).getD 0)
  if no = kZlPortState then some ((s.port true 0).st + 16 * (s.port true 1).st)
  else if no = kPortState then some (s.port false (s.obj kPortSel)).st
  else if no = kTicketsHeld then some ((s.colls.filter (fun c => decide (c.phase < 3))).filterMap (·.ticket)).dedup.length
  else if no = kTwinState then some s.twin.st
  else if no = kTwinPartnerId then some s.twin.partner
  else if no = kTwinMember then some s.twin.member
  else if no = kTetherPorts then some ((List.range 4).map (fun p => b2n (portActive false (s.port false (32 + p))) * 2 ^ p)).sum
  else if no = kGrpId then r (·.group)
  else if no = kGrpEpoch then r (·.epoch)
  else if no = kGrpMember then r (·.member)
  else if no = kGrpSize then r (·.size)
  else if no = kGrpRole then r (·.role)
  else if no = kGrpState then some ((g.map (·.st)).getD 0)
  else if no = kGrpPrimary then r (·.primary)
  else if no = kGrpTokenPair then r (·.token)
  else if no = kGrpStandin then some ((g.map (fun x => x.roster.standin)).getD (2 ^ 32 - 1))
  else none

/-- Values of the management subsystem's, power and start-up objects; `sess` is the requesting session. -/
def readMgmtObj (s : State) (sess no : Nat) : Option Nat :=
  let b := s.obj kBaySel
  let run := s.fw.slot s.fw.running
  if no = kDeviceId then some Config.deviceId.toNat
  else if no = kSessionsOpen then some s.mgmt.sessions.length
  else if no = kSessionProof then some (leNat (((session? s sess).map (·.proof)).getD []))
  else if no = kTimeNow then some (s.time % 2 ^ 64)
  else if no = kPtpState then some s.ptp.st
  else if no = kTxnOpen then some s.mgmt.txns.length
  else if no = kOperators then some s.mgmt.operators.length
  else if no = kRbCounter then some (rbCounter s)
  else if no = kFwSlotA then some s.fw.a.st
  else if no = kFwSlotB then some s.fw.b.st
  else if no = kFwRunning then some s.fw.running
  else if no = kFwVersion then some run.version
  else if no = kMediaFwVersion then some (Config.mediaVersion run.whole % 2 ^ 32)
  else if no = kSensorTemp then some (ofSigned 16 (kvGet 0 s.temps (s.obj kSensorSel)))
  else if no = kThermHottest then some (hottest s)
  else if no = kLogHeadSeq then some (logHead s)
  else if no = kLogFirstSeq then some (logFirst s)
  else if no = kLogAnchor then some (leNat s.dp.log.anchor)
  else if no = kLogHeadChain then some (leNat s.dp.log.headChain)
  else if no = kCtrlPins then some (ctrlPins s)
  else if no = kBayVMv then some (bayPwr s b).mv
  else if no = kBayIMa then some (bayPwr s b).ma
  else if no = kPeakCreditMj then some (s.pwr.credit / 100000)
  else if no = kBootStage then some (bootStage s)
  else if no = kStResult then some (s.boot.done.map (2 ^ ·)).sum
  else if no = kLbCtrl then some (s.obj (heldKey s kLbCtrl) % 128 + 128 * b2n (inLoop s (s.obj kLbPortSel)))
  else none

/-- The value of an object as a read shows it. -/
def objValue (s : State) (sess no : Nat) : Nat :=
  match readCtxObj s no with
  | some v => v
  | none => match readMemObj s no with
    | some v => v
    | none => match readNetObj s no with
      | some v => v
      | none => (readMgmtObj s sess no).getD (s.obj (heldKey s no))

/-- A read of an object (R561, R566): the bytes of the value, or of the segment from `offset` on, cut to `room`. -/
def readObj (s : State) (sess index sub offset length room : Nat) : Except Nat (List Nat) :=
  match objRow index sub with
  | none => .error 0x0806
  | some r =>
    if r.acc = 2 then .error 0x0805
    else if r.ty = 3 then
      if r.bytes ≤ offset then .error 0x0807
      else
        let n := min (min length room) (r.bytes - offset)
        .ok (((leBytes (offset + n) (objValue s sess (objNo index sub))).drop offset).take n)
    else if offset ≠ 0 then .error 0x0807
    else .ok (leBytes r.bytes (objValue s sess (objNo index sub)))

end Sys2Proof.Machine
end

