-- ==== Sys2Proof/Machine/DictEff.lean ====
section
/-! DEFINITION. What a write to each object does (R561 step 5, R570), with the chapters' effects: context commands, regulators,
generators, table owners, pools, firmware, diagnostics and resets. -/

namespace Sys2Proof.Machine

/-! ## Context commands (R437 to R439, R450, R457, R474, R477) -/

/-- Whether two records' signal ranges share a word. -/
def sigOverlap (a b : Nat) : Bool :=
  decide (0 < cSigCount a) && decide (0 < cSigCount b) && decide (cSigBase a < cSigBase b + cSigCount b) &&
  decide (cSigBase b < cSigBase a + cSigCount a)

/-- The record of a context, where it may be taken. -/
def ctxRecord (s : State) (c : Nat) : Option Nat :=
  let a := s.obj (objKey c kCtxRecord)
  let r := leNat (hostRead s.dp.mem a 128)
  if inHostWindow s a 128 && recordOk s.dp r && !(s.ctxs.any (fun p => p.1 != c && p.2.st != .free && sigOverlap r p.2.record)) then some r
  else none

/-- A context becomes ACTIVE with empty queues; its signal words are cleared (R450), and CREATE and RESTART count as a `CQ_DB`
write of 0. -/
def openCtx (s : State) (c r : Nat) : State :=
  let s0 := s.setDp (dropXlats s.dp c)
  let s1 := (s0.clearSignals r).setCtx c { st := .active, record := r, intArmed := true, lastInt := (s.ctx c).lastInt }
  setDb { s1 with carries := s1.carries.filter (fun x => x.ctx ≠ c), ingTimes := kvSet [] s1.ingTimes c [] } (4096 * c + 8) 0

/-- Whether the device accepts a CREATE (R644, R658). -/
def createOk (s : State) : Bool :=
  [4, 5, 6].all s.boot.done.contains && (portUp s 0 || portUp s 1) && s.boot.testing.isNone

/-- A write of `CTX_CMD` for the selected context. -/
def ctxCommand (s : State) (v : Nat) : State × Nat :=
  let c := s.obj kCtxSel
  let ignore : State × Nat := (s.bump kCtxIgnoredCount 1, 0)
  let take : State × Nat := match ctxRecord s c with
    | some r => (openCtx s c r, 0)
    | none => (s, 0x0807)
  match v, (s.ctx c).st with
  | 1, .free => if createOk s then take else (s, 0x0808)
  | 2, .active => (jobFault s c 1 0, 0)
  | 3, .faulted => take
  | 4, .faulted => (s.setCtx c {}, 0)
  | 4, .active => if (s.inflight c).isEmpty then (s.setCtx c {}, 0) else ignore
  | _, _ => ignore

/-! ## Memory system -/

/-- Cuts the buckets of a partition to a new depth (R285). -/
def cutBuckets (s : State) (p depth : Nat) : State :=
  let old := bucketDepth s.dp p
  let cut := fun (l : List (Nat × Nat)) (k : Nat) =>
    let level := old - kvGet 0 l (bucketKey p k)
    kvSet 0 l (bucketKey p k) (1024 * depth - min level (1024 * depth))
  (s.setDp { s.dp with buckets := (List.range Config.stackCount).foldl cut s.dp.buckets }).setObj (objKey p kRegDepth) depth

def setTg (s : State) (ch : Nat) (x : TgChan) : State := s.setDp { s.dp with tg := kvSet {} s.dp.tg ch x }

/-- A write of `TG_CTRL` (R295): `START` runs the generator only while no context exists. -/
def tgWrite (s : State) (v : Nat) : State :=
  let ch := s.obj kTgChanSel
  let x := tgSel s
  if bit v 63 then
    if s.anyCtx ∨ x.running then s else setTg (s.setObj (objKey ch kTgCtrl) (v % 2 ^ 62)) ch { running := true }
  else
    let s1 := s.setObj (objKey ch kTgCtrl) (v % 2 ^ 62)
    if bit v 62 ∧ x.running then setTg s1 ch { x with stopping := true } else s1

/-- A LOAD of a slot whose owner changes completes with 0x0152 (R113). -/
def cancelLoad (slot : Nat) (s : State) (o : Op) : State :=
  if formOf o.desc = some .load ∧ loadSlot o = slot then
    if o.phase = .started then finishOp s o.id 0x0152 0
    else if o.phase = .done ∧ o.startNo ≠ 0 then s.putOp { o with status := 0x0152 }
    else s
  else s

/-- A write of `TBL_OWNER_n` that changes it empties both banks (R113). -/
def setOwner (s : State) (slot v : Nat) : State :=
  if s.obj (kTblOwner + slot) = v then s
  else
    let t := kvGet {} s.dp.tables slot
    let s1 := s.setDp { s.dp with tables := kvSet {} s.dp.tables slot { gen := (t.gen + 1) % 2 ^ 32, bank := t.bank } }
    s1.ops.foldl (cancelLoad slot) (s1.setObj (kTblOwner + slot) v)

/-- A write to `WID_TABLE` or `WID_LAYERS` sets every layer of the context to NARROW (R217). -/
def setWidening (s : State) (no v : Nat) : State :=
  let c := s.obj kWidCtx
  afterAccess c (resetLayers (s.setObj (objKey c no) v) c)

/-! ## Serving records and pools (R349, R350, R527) -/

/-- A pool array with all its entries free, each a page on a 64 KiB boundary; none where one is not (R350). -/
def readPool (c base n : Nat) : Dev (Option FreeList) := do
  let l ← (List.range n).mapM (fun i => do pure ((← Dev.rdD c (base + 8 * i) 8) % 2 ^ 64))
  pure (if l.all (fun p => p != 0 && p % Config.blockBytes == 0) then some { base := base, cap := n, count := n } else none)

/-- What the engine takes from a serving record: the record, models and both pools. -/
def readServe (c rec : Nat) : Dev (Option Serve) := do
  let r ← Dev.rdD c rec 128
  if !serveRecOk r then pure none
  else do
    let ms ← (List.range (srModelCount r)).mapM (fun i => Dev.rdD c (srModels r + 32 * i) 32)
    match ← readPool c (srHbmPool r) (srHbmCap r) with
    | none => pure none
    | some h => do
      match ← readPool c (srHostPool r) (srHostCap r) with
      | none => pure none
      | some g =>
        if ms.all modelOk then pure (some { record := r, models := ms, hbm := h, host := g, est := srEstInit r }) else pure none

/-- A refusal that also tears a context down, since its access met a fault at an address (R664). -/
def faultCode (c va : Nat) : Nat := 0x10000 + va * 256 + c

/-- What a refusal with a code leaves of a state, and the status of the response. -/
def afterRefusal (s : State) (code : Nat) : State × Nat :=
  if code < 0x10000 then (s, code) else (jobFault s ((code - 0x10000) % 256) 5 ((code - 0x10000) / 256), 0x0807)

/-- The outcome of reading a record for a write: refused where it is out of range or cannot be read. -/
def takeRead {α : Type} (c : Nat) (p : Dev (Option α)) (s : State) (k : State → α → State) : State × Nat :=
  match (p.run s : Except DevStop (Option α) × State) with
  | (.ok (some x), s1) => (k s1 x, 0)
  | (.ok none, s1) => (s1, 0x0807)
  | (.error (.fault va), s1) => (s1, faultCode c va)
  | (.error .wait, _) => (s, 0)

def setServeRec (s : State) (v : Nat) : State × Nat :=
  let c := s.obj kSeqCtx
  if v = 0 then ((s.setObj (objKey c kServeRec) 0).setSrv c {}, 0)
  else takeRead c (readServe c v) s (fun s x => (s.setObj (objKey c kServeRec) v).setSrv c x)

def setMirrorPool (s : State) (no v : Nat) : State × Nat :=
  let c := s.obj kMirrorCtx
  let base := if no = kMirrorPool then v else s.obj (objKey c kMirrorPool)
  let n := if no = kMirrorPool then s.obj (objKey c kMirrorPoolCap) else v
  let put := fun (s : State) (l : FreeList) => setPool (s.setObj (objKey c no) v) c .mirror l
  if base = 0 ∨ n = 0 then (put s {}, 0) else takeRead c (readPool c base n) s put

/-! ## Firmware (R581 to R583) -/

def ignoreMgmt (s : State) : State := s.bump kMgmtIgnoredCount 1

/-- Bytes put into an image. -/
def putImage : List (Nat × Nat) → Nat → List Nat → List (Nat × Nat)
  | l, _, [] => l
  | l, a, b :: bs => putImage (kvSet 0 l a (b % 256)) (a + 1) bs

/-- A segment written to `FW_STAGE`: at offset 0 it starts the slot afresh; into a slot that is not STAGING it is ignored
(log 48). -/
def stageImage (s : State) (off : Nat) (bs : List Nat) : State :=
  let k := s.fw.other
  let x := s.fw.slot k
  if off = 0 then { s with fw := s.fw.setSlot k { st := 1, image := putImage [] 0 bs } }
  else if x.st = 1 then { s with fw := s.fw.setSlot k { x with image := putImage x.image off bs } }
  else ignoreMgmt s

/-- Whether an image's header keeps the layout of R581. -/
def headerOk (x : FwSlot) : Bool :=
  x.bytes 0 8 == "CASVAS01".toList.map Char.toNat && decide (1 ≤ x.kind) && decide (x.kind ≤ 3) &&
    decide (x.record ≤ if x.kind = 2 then 15 else 0) && (x.bytes 80 176).all (· == 0) &&
    decide (roundUp (256 + x.payload) 16 + sigBytes ≤ 33554432)

/-- The status that R582 gives a staged image; one whose header does not keep R581's layout is refused as one whose signatures
fail (log 48). The owner's keys may sign records of kind 2. -/
def imageStatus (s : State) (x : FwSlot) : Nat :=
  if !headerOk x then 0x080B
  else if Config.imageSigs (if x.kind = 2 then s.fw.owner else []) x.whole ≠ 0 ∨ sha384 (x.bytes 256 x.payload) ≠ x.bytes 32 48 then 0x080B
  else if x.secVersion < rbCounter s then 0x080C
  else 0

/-- Each update command adds one log entry (R585, R662). -/
def logUpdate (s : State) (cmd slot status : Nat) : State :=
  s.log { source := 0x1210, code := 0x1210, sev := 0, data := dataAt 632 cmd + dataAt 624 slot + dataAt 608 status }

/-- Writes the rollback counter into the replay-protected partition (R342). -/
def raiseRb (s : State) (v : Nat) : State :=
  if v ≤ rbCounter s then s
  else
    let n := s.dp.ftl.rpCounter + 1
    s.setDp { s.dp with ftl := s.dp.ftl.rpWrite 0 n (leBytes 256 v) (rpMac 0 n (leBytes 256 v)) }

/-- A write of `FW_CMD`; one that the slot states do not allow is ignored (R572). -/
def fwCommand (s : State) (v : Nat) : State :=
  let k := s.fw.other
  let x := s.fw.slot k
  let run := s.fw.slot s.fw.running
  let put := fun (y : FwSlot) => ({ s with fw := s.fw.setSlot k y } : State)
  match v with
  | 1 =>
    if x.st ≠ 1 then ignoreMgmt s
    else
      let st := imageStatus s x
      logUpdate ((put { x with st := if st = 0 then 2 else 7 }).setObj kFwResult st) 1 k st
  | 2 =>
    if x.st ≠ 2 then ignoreMgmt s
    else if x.kind = 1 then logUpdate (put { x with st := 3 }) 2 k 0
    else
      let f := s.fw.setSlot k {}
      let g := if x.kind = 2 then { f with records := kvSet [] f.records x.record x.whole } else { f with owner := x.whole }
      logUpdate { s with fw := g } 2 k 0
  | 3 =>
    if run.st ≠ 4 then ignoreMgmt s
    else
      let f := (s.fw.setSlot s.fw.running { run with st := 5 }).setSlot k { x with st := 6 }
      logUpdate (raiseRb { s with fw := f } run.secVersion) 3 s.fw.running 0
  | _ => if x.st = 1 ∨ x.st = 2 ∨ x.st = 3 then logUpdate (put {}) 4 k 0 else ignoreMgmt s

/-! ## Diagnostics and resets (R656, R658, R659) -/

/-- Whether a port is DOWN or DISABLED, and for a ZelugLink port the other one ACTIVE; the spec gives management ports no
states (log 49). -/
def loopPortOk (s : State) (p : Nat) : Bool :=
  if p < 36 then (let t := (s.port false p).st; t == 4 || t == 5)
  else if p = 64 ∨ p = 65 then (s.port true (p - 64)).st == 7 && portUp s (65 - p)
  else true

/-- A write of `LB_CTRL`; `START` begins a run of `SECONDS`. -/
def loopWrite (s : State) (v : Nat) : State :=
  let p := s.obj kLbPortSel
  let s1 := s.setObj (objKey p kLbCtrl) (v % 128)
  if bit v 7 then { s1 with boot := { s1.boot with loops := s1.boot.loops ++ [(p, s.time + bits v 4 0 * 1000000000)] } } else s1

/-! ## Conditions and effects of a write -/

/-- Whether a context's streams are all FREE and no tick of it is open (R349, R527). -/
def streamsIdle (s : State) (c : Nat) : Bool :=
  s.seq.all (fun p => p.2.ctx != c || p.2.st == 0) && (s.srv c).tick.isNone

/-- The state conditions of the chapters' "only while" rules (R217, R268, R325, R344, R349, R470, R474, R520, R527, R583, R639,
R656, R658, R659). -/
def condOk (s : State) (no v : Nat) : Bool :=
  if (0x300101 ≤ no ∧ no ≤ 0x300108) ∨ no = kTwinWindowBase ∨ no = kTwinWindowPages ∨ no = kHostWinBase ∨ no = kHostWinPages ∨
      no = kSouneAddr ∨ no = kRouteSel ∨ no = kRoutePorts ∨ no = kArbMode then !s.anyCtx
  else if 0x600401 ≤ no ∧ no ≤ 0x600406 then (let t := (s.ctx (s.obj kCtxSel)).st; t == .free || t == .faulted)
  else if no = kWidTable ∨ no = kWidLayers then (s.inflight (s.obj kWidCtx)).isEmpty
  else if no = kReelTable then s.dp.reels.all (fun r => r.ctx != s.obj kReelCtx || r.frames.isEmpty)
  else if no = kServeRec then streamsIdle s (s.obj kSeqCtx)
  else if no = kMirrorPool ∨ no = kMirrorPoolCap then streamsIdle s (s.obj kMirrorCtx)
  else if no = kFwStage then s.fw.a.st != 3 && s.fw.a.st != 4 && s.fw.b.st != 3 && s.fw.b.st != 4
  else if no = kResetCmd then !s.anyCtx || s.twin.st == 5
  else if no = kBtCmd then !s.anyCtx && s.boot.testing.isNone
  else if no = kLbCtrl then !bit v 7 || (!s.anyCtx && loopPortOk s (s.obj kLbPortSel) && !inLoop s (s.obj kLbPortSel))
  else true

/-- A segment put into an octet string held as a number. -/
def spliceOctets (old off : Nat) (bs : List Nat) : Nat := setBits old (8 * off) (8 * bs.length) (leNat bs)

/-- What an accepted write does; `sess` is the writing session. The second part is a refusal that only the effect finds. -/
def writeEffect (s : State) (sess : Nat) (r : ObjRow) (w : Staged) : State × Nat :=
  let no := objNo w.index w.sub
  let v := leNat w.bytes
  let key := heldKey s no
  if r.counter then (if v = 0 then (s.setObj key 0, 0) else (ignoreMgmt s, 0))
  else if no = kCtxCmd then ctxCommand s v
  else if no = kServeRec then setServeRec s v
  else if no = kMirrorPool ∨ no = kMirrorPoolCap then setMirrorPool s no v
  else
    let t : State :=
      if no = kClientProof then
        { s with mgmt := { s.mgmt with sessions := s.mgmt.sessions.map (fun x =>
            if x.id = sess ∧ !x.opened then
              { x with client := leBytes 3405 (spliceOctets (leNat x.client) w.offset w.bytes) } else x) } }
      else if no = kFwStage then stageImage s w.offset w.bytes
      else if r.ty = 3 then s.setObj key (spliceOctets (s.obj key) w.offset w.bytes)
      else if no = kFwCmd then fwCommand s v
      else if no = kCacheFlush then
        (if v = 1 then s.setDp { cacheFlushAll s.dp with flushing := true } else s)
      else if no = kRegDepth then cutBuckets s (s.obj kRegSel) v
      else if no = kTgCtrl then tgWrite s v
      else if w.index = 0x4010 then setOwner s (w.sub - 1) v
      else if no = kWidTable ∨ no = kWidLayers then setWidening s no v
      else if no = kBucketMode then
        (let c := s.obj kSeqCtx
         (s.setObj key v).setSrv c { s.srv c with bucketLeft := 0 })
      else if no = kPortEnable then setPortEnable s (s.obj kPortSel) v
      else if no = kTwinCmd then (if s.twin.st = 5 then s else unpairTwin s)
      else if no = kResetCmd then { s with boot := { s.boot with resetDue := some (if v = 1 then 3 else 2, s.time + 1000000) } }
      else if no = kBtCmd then
        (let b := s.obj kBtSel
         { s.setObj (objKey b kBtResult) 1 with boot := { s.boot with testing := some b } })
      else if no = kLbCtrl then loopWrite s v
      else s.setObj key v
    (t, 0)

/-! ## Checks and transactions (R561, R568, R570) -/

/-- Steps 1 to 4 of R561 for a write of a session; `signed` stands for an entry of a configuration record (R563). -/
def checkWrite (s : State) (sess : Nat) (signed : Bool) (w : Staged) : Nat :=
  let no := objNo w.index w.sub
  match objRow w.index w.sub with
  | none => 0x0806
  | some r =>
    if (r.acc = 0 ∧ !(signed ∧ (no = kPartNumber ∨ no = kSerial ∨ no = kDeviceCert))) ∨ s.mgmt.locks.contains no then 0x0805
    else if isCritical no ∧ !signed ∧ !mayCritical s sess then 0x0805
    else if no = kCtxCmd ∧ w.offset = 0 ∧ w.bytes.length = 1 then 0
    else if inRange s r w then 0
    else 0x0807

/-- Steps 1, 2, 4 and 5 at the moment of application, and the effect. -/
def writeNow (s : State) (sess : Nat) (w : Staged) : State × Nat :=
  match objRow w.index w.sub with
  | none => (s, 0x0806)
  | some r =>
    let no := objNo w.index w.sub
    if s.mgmt.locks.contains no then (s, 0x0805)
    else if !(no = kCtxCmd ∨ inRange s r w) then (s, 0x0807)
    else if !condOk s no (leNat w.bytes) then (s, 0x0808)
    else writeEffect s sess r w

/-- Whether two valid regions share a page of a stack or overlap in address (R268). -/
def regionsClash (a b : Region) : Bool :=
  let held := fun (r : Region) => if r.kind = 0 then List.range 20 else if r.kind = 1 then (List.range 5).map (5 * r.unit + ·) else [r.unit]
  let apart := fun (x n y m : Nat) => decide (x + n ≤ y) || decide (y + m ≤ x)
  a.valid && b.valid &&
  (!apart a.base a.size b.base b.size || (!apart a.first a.pages b.first b.pages && (held a).any (held b).contains))

/-- Whether the twin window is unset or lies wholly within one valid region (R268, R325). -/
def windowCovered (s : State) : Bool :=
  let b := s.obj kTwinWindowBase
  let n := s.obj kTwinWindowPages
  n == 0 || (regions s.dp).any (fun r => r.valid && decide (r.base ≤ b) && decide (b + n ≤ r.base + r.size))

/-- Whether a write leaves its region clashing with another, or the twin window uncovered, in the set as it stands after the
transaction. -/
def setFails (s : State) (w : Staged) : Bool :=
  let rs := regions s.dp
  if w.index = 0x3001 then
    !windowCovered s || (List.range 8).any (fun q => q + 1 != w.sub && regionsClash (rs.getD (w.sub - 1) default) (rs.getD q default))
  else if w.index = 0x3102 then !windowCovered s
  else false

/-- Applies writes in order; the first that fails stops them, with its status. -/
def applyWrites (sess : Nat) : List Staged → State → State × Option (Nat × Staged)
  | [], s => (s, none)
  | w :: ws, s =>
    let r := writeNow s sess w
    if r.2 = 0 then applyWrites sess ws r.1 else (r.1, some (r.2, w))

/-- A transaction at the safe point: all of its writes, or none, with the status and the entry that failed. -/
def applyTxn (s : State) (sess : Nat) (ws : List Staged) : State × Nat × Option Staged :=
  let r := applyWrites sess ws s
  match r.2 with
  | some f => let x := afterRefusal s f.1
              (x.1, x.2, some f.2)
  | none =>
    match ws.find? (setFails r.1) with
    | some w => (s, 0x0807, some w)
    | none => (r.1, 0, none)

/-- Whether the moment is a safe point (R570): no build, commit or abort is in progress. A commit that waits for its twin is
one (R530). -/
def safePoint (s : State) : Bool := s.serve.all (fun p => p.2.commitAt.isNone)

/-- Whether a write is of a non-zero value to a counter, which is ignored (R56, R572). -/
def counterIgnored (w : Staged) : Bool := ((objRow w.index w.sub).map (·.counter)).getD false && leNat w.bytes != 0

/-- Whether the slot states allow an update command (R583). -/
def fwAllowed (s : State) (v : Nat) : Bool :=
  let x := (s.fw.slot s.fw.other).st
  match v with
  | 1 => x == 1
  | 2 => x == 2
  | 3 => (s.fw.slot s.fw.running).st == 4
  | _ => x == 1 || x == 2 || x == 3

/-- Whether a write is one that the device ignores (R572). -/
def ignoredWrite (s : State) (w : Staged) : Bool :=
  counterIgnored w || (objNo w.index w.sub == kFwCmd && !fwAllowed s (leNat w.bytes)) ||
    (objNo w.index w.sub == kFwStage && w.offset != 0 && (s.fw.slot s.fw.other).st != 1)

/-- A write that is its own transaction (R561, R569): the state, and the status of its response. A transaction counts when it
is applied or rolled back, and one that is ignored does not (R572). -/
def writeAlone (s : State) (sess : Nat) (ws : List Staged) : State × Nat :=
  match (ws.map (checkWrite s sess false)).find? (· ≠ 0) with
  | some code => (s, code)
  | none =>
    let r := applyTxn s sess ws
    if r.2.1 = 0 then (if ws.all (ignoredWrite s) then r.1 else r.1.bump kTxnCommits 1, 0) else (r.1.bump kTxnRollbacks 1, r.2.1)

/-- A command that writes objects: served by the management firmware, at a safe point. -/
def onWrite (s : State) (sess : Nat) (ws : List Staged) : Host.Outcome State Fault Refusal :=
  live s (fun s => if mgmtUp s && safePoint s then (writeAlone s sess ws).1 else s)

/-- A value of an object in its bytes. -/
def stagedOf (no v : Nat) : Staged :=
  { index := no / 256, sub := no % 256, bytes := leBytes (max (((objRow (no / 256) (no % 256)).map (·.bytes)).getD 0) (v.log2 / 8 + 1)) v }

end Sys2Proof.Machine
end

