-- ==== Sys2Proof/Machine/Reset.lean ====
section
/-! DEFINITION. Resets and what they preserve (R655), the control signals and the module's power (R605, R613 to R618), and the
idle step, at which a reset that software has asked for takes effect (R656, log 1). -/

namespace Sys2Proof.Machine

/-! ## Resets -/

/-- The cache is emptied: a sector that HBM3E holds otherwise leaves there what HBM3E holds (R270, R274). -/
def emptyCache (d : Dp) : Dp :=
  d.cache.foldl (fun d l => (bitList 4 (l.dirty ||| l.stale)).foldl (fun d s => reveal d l s) d) d |> fun d => { d with cache := [] }

/-- The event log after a reset: what has reached management flash, and the next number after its head (R586). -/
def keptLog (l : Log) : Log :=
  { flash := l.flash, anchor := l.anchor, headChain := l.headChain, nextSeq := ((l.flash.getLast?).map (·.seq)).getD 0 + 1 }

/-- The eight region settings, which a WARM reset preserves. -/
def keptRegions (l : List (Nat × Nat)) : List (Nat × Nat) := l.filter (fun p => decide (0x300101 ≤ p.1) && decide (p.1 ≤ 0x300108))

/-- Flash after a reset: the map is what the journal tells (R337), and start-up finds the wear and the spare anew. -/
def keptFlash (f : Ftl) : Ftl := { f with map := f.recovered, worn := 0, lost := 0, spare := 0, lifeUsed := 0, badBlocks := 0 }

/-- The data path after a reset of a kind (1 COLD, 2 HARD, 3 WARM). Host memory is the host's; the timebase never runs back
(R593, log 50). -/
def resetDp (d : Dp) (kind : Nat) : Dp :=
  let w := decide (kind = 3)
  let e := emptyCache d
  { time := d.time, log := keptLog d.log, repairRows := d.repairRows
    objs := kvSet 1 (if w then keptRegions d.objs else []) kResetKind kind
    mem := { hbm := if w then e.mem.hbm else d.mem.hbm, host := d.mem.host, flash := d.mem.flash }
    poison := if w then d.poison else [], sev := d.sev, ftl := keptFlash d.ftl, xlatCtr := d.xlatCtr, freeCtr := d.freeCtr }

/-- The device out of reset, before its first start-up stage: the state of `State.reset` with what the reset preserves, the
commands that wait, what has been sent, and the levels of the control signals. -/
def afterReset (s : State) (kind : Nat) : State :=
  { State.reset with
    pending := s.pending, out := s.out, dp := resetDp s.dp kind, fw := s.fw, nextOp := s.nextOp
    boot := { since := s.time }, pins := { s.pins with nextKind := 2 }, temps := s.temps }

/-! ## Control signals -/

def setPins (s : State) (p : Pins) : State := { s with pins := p }

/-- The device enters reset: transmitters idle, `FAULT_N` and `ALERT_N` released (R617). -/
def enterReset (s : State) : State :=
  { s with off := true, zl := [{}, {}], soune := List.replicate 36 {}, dp := { s.dp with log := { s.dp.log with alert := false } } }

/-- The device leaves reset once `MOD_RST_N` and `PWR_GOOD` are both high (R617). -/
def tryLeave (s : State) : State :=
  if s.off ∧ s.pins.modRst ∧ s.pins.pwrGood then afterReset s s.pins.nextKind else s

/-- The module's regulators stop: a loss of power, after which the next reset is COLD (R605, R618, R655). -/
def losePower (s : State) : State :=
  setPins (enterReset s) { s.pins with regs := false, pwrGood := false, nextKind := 1 }

/-- PWR_EN_ASSERT (R616): a new assertion starts the regulators. -/
def execPwrEnAssert (s : State) : Host.Outcome State Fault Refusal :=
  .next (if s.pins.pwrEn then s else setPins s { s.pins with pwrEn := true, regs := true })

/-- PWR_EN_REMOVE (R617). -/
def execPwrEnRemove (s : State) : Host.Outcome State Fault Refusal :=
  .next (if s.pins.pwrEn then (let t := losePower s; setPins t { t.pins with pwrEn := false }) else s)

/-- PWR_GOOD_RELEASE (R616): every rail is in regulation. -/
def execPwrGoodRelease (s : State) : Host.Outcome State Fault Refusal :=
  .next (if s.pins.regs ∧ !s.pins.pwrGood then tryLeave (setPins s { s.pins with pwrGood := true }) else s)

/-- MOD_RST_N_ASSERT (R617): `MOD_RST_N` goes to 0, or `PWR_GOOD` goes low. -/
def execModRstNAssert (pwrGoodLow : Bool) (s : State) : Host.Outcome State Fault Refusal :=
  .next (setPins (enterReset s) (if pwrGoodLow then { s.pins with pwrGood := false } else { s.pins with modRst := false }))

/-- MOD_RST_N_RELEASE (R644): start-up begins, unless `PWR_GOOD` still holds the device in reset. -/
def execModRstNRelease (s : State) : Host.Outcome State Fault Refusal := .next (tryLeave (setPins s { s.pins with modRst := true }))

/-- ALERT_ACK (R613): a falling edge releases `ALERT_N`. -/
def execAlertAck (s : State) : Host.Outcome State Fault Refusal :=
  .next (s.setDp { s.dp with log := { s.dp.log with alert := false } })

/-- VIN_DIP (R605): a dip to between 42 V and 48 V is counted, and stops nothing. -/
def execVinDip (mv : Nat) (s : State) : Host.Outcome State Fault Refusal :=
  live s (fun s => if 42000 ≤ mv ∧ mv < 48000 then s.bump kVinUvCount 1 else s)

/-- VIN_UNDERVOLTAGE (R605): below 42 V for 50 µs. -/
def execVinUndervoltage (mv ns : Nat) (s : State) : Host.Outcome State Fault Refusal :=
  .next (if mv < 42000 ∧ 50000 ≤ ns then losePower s else s)

/-- VIN_OVERVOLTAGE (R605): above 57 V for 10 µs. -/
def execVinOvervoltage (mv ns : Nat) (s : State) : Host.Outcome State Fault Refusal :=
  .next (if 57000 < mv ∧ 10000 ≤ ns then losePower s else s)

/-- RAIL_FAULT (R606): a rail out of its window for 5 µs; rails 0 to 127 are bay cores, 128 any other. -/
def execRailFault (rail ns : Nat) (s : State) : Host.Outcome State Fault Refusal :=
  if 128 < rail then .next s else live s (fun s => if 5000 ≤ ns then hwFault s 7 0x2010 (rail * 2 ^ 48) else s)

/-! ## Thermal trip (R602, R618) -/

/-- Whether the module's comparator sees a sensor past its limit: 389 above 80 °C, or 364 to 387 above 130 °C. -/
def comparator (s : State) : Bool :=
  decide (80 * 16 < kvGet 0 s.temps 389) || (List.range 24).any (fun i => decide (130 * 16 < kvGet 0 s.temps (364 + i)))

/-- `THERM_TRIP_N` stays asserted while a cause remains. -/
def setTrip (s : State) : State :=
  if comparator s || !s.pins.trips.isEmpty then
    setPins s { s.pins with tripAt := some (s.pins.tripAt.getD s.time) }
  else setPins s { s.pins with tripAt := none }

/-- THERM_TRIP_COMPARATOR (R602): it needs no management processor. -/
def execThermTripComparator (s : State) : Host.Outcome State Fault Refusal := .next (setTrip s)

/-- THERM_TRIP_TIMEOUT (R618): asserted for 500 ms, the module stops its regulators. -/
def execThermTripTimeout (s : State) : Host.Outcome State Fault Refusal :=
  .next (match s.pins.tripAt with
    | some t => if s.pins.regs ∧ t + 500000000 ≤ s.time then losePower s else s
    | none => s)

/-! ## Idle time and commanded resets -/

/-- One nanosecond passes: buckets gain their tokens (R282), a hardware fault that a write-back has met is raised (log 78), and a reset that was asked for takes effect when its time has come
(R656). -/
def idle (s : State) : State :=
  let u : State := { s with dp := bucketsGain { s.dp with time := s.dp.time + 1 } 1 }
  let t := if u.off then u else u.inside (raiseDue u)
  match t.boot.resetDue with
  | some r => if !t.off ∧ r.2 ≤ t.time then afterReset t r.1 else t
  | none => t

/-- RESET_CMD 1 (R656): takes effect 1 ms later, unless a context exists on a device that is not FENCED. -/
def execResetWarm (sess : Nat) (s : State) : Host.Outcome State Fault Refusal := onWrite s sess [stagedOf kResetCmd 1]

/-- RESET_CMD 2 (R656). -/
def execResetHard (sess : Nat) (s : State) : Host.Outcome State Fault Refusal := onWrite s sess [stagedOf kResetCmd 2]

end Sys2Proof.Machine
end

