-- ==== Sys2Proof/Machine/MemCmd.lean ====
section
/-! DEFINITION. What the memory system does on its own: the end of a cache flush (R276), patrol scrub (R291 to R294), the end of
a generator run (R295, R296), and the flash translation layer's relocations (R338, R339). -/

namespace Sys2Proof.Machine

/-! ## Cache flush and scrub -/

/-- CACHE_FLUSH_COMPLETE (R276): `CACHE_FLUSH` reads 0 again. -/
def execCacheFlushComplete (s : State) : Host.Outcome State Fault Refusal := live s (fun s => s.setDp { s.dp with flushing := false })

/-- Whether scrub passes a sector by: it is dirty in the cache, or a generator owns its channel (R294, R295). -/
def scrubSkips (d : Dp) (sec : Nat) : Bool :=
  (match cacheFind d (sec / 4) with
   | some l => bit l.dirty (sec % 4)
   | none => false) || (kvGet {} d.tg (channelAt d (sec * 32))).running

/-- Scrub reads one sector, which shows a severity. Corrected data are written back. -/
def scrubSector (s : State) (sec severity : Nat) : State :=
  let d1 := errorAt 0xFFFF (takeTokens s.dp 63 (stackOf (sec * 32)) 32) sec severity
  raiseDue (s.setDp (if severity = 1 then { takeTokens d1 63 (stackOf (sec * 32)) 32 with sev := kvSet 0 d1.sev sec 0 } else d1))

/-- PATROL_SCRUB (R291 to R294): one sector, and the end of a full pass with its period's row counts. -/
def execPatrolScrub (sector severity : Nat) (lastOfPass : Bool) (s : State) : Host.Outcome State Fault Refusal :=
  if Config.stackCount * Config.stackBytes ≤ sector * 32 then .next s
  else live s (fun s =>
    let s1 := if scrubSkips s.dp sector then s else scrubSector s sector severity
    if lastOfPass then (s1.setDp { s1.dp with rowCE := [] }).bump kScrubPasses 1 else s1)

/-! ## Traffic generators -/

/-- The bytes of a channel outside the device reserve. -/
def channelKeys (d : Dp) (ch : Nat) : List Nat :=
  ((List.range openBytes).map (ch / 16 * Config.stackBytes + ·)).filter (fun k => channelAt d k == ch)

/-- What byte `i` of a channel holds after a run that wrote it (log 3): after a whole sequential sweep that R295 gives the pattern of,
zeros, ones, 0x55 and 0xAA burst by burst, or each 8-byte word's own address; after any other run a free value. -/
def tgByte (ctrl passes i free : Nat) : Nat :=
  if bits ctrl 55 54 = 0 ∧ bits ctrl 57 56 ≠ 3 ∧ 1 ≤ passes then
    match bits ctrl 61 58 with
    | 0 => 0
    | 1 => 255
    | 2 => if i / 32 % 2 = 0 then 0x55 else 0xAA
    | 5 => i / 8 * 8 / 256 ^ (i % 8) % 256
    | _ => (Config.freeByte free).toNat
  else (Config.freeByte free).toNat

/-- The generator writes a byte of HBM3E past the cache (R295): a sector that the cache holds keeps what it holds, and HBM3E's byte comes
to light when the line goes. -/
def writePast (d : Dp) (k b : Nat) : Dp :=
  let sec := k / 32
  match cacheFind d (sec / 4) with
  | some l =>
    if bit l.valid (sec % 4) then
      let s := sec % 4
      let shown := bit l.dirty s || bit l.stale s
      let old := if shown then kvGet 0 l.back s else sectorBytes d sec
      let o := old / 256 ^ (k % 32) % 256
      cachePut d { l with back := kvSet 0 l.back s (old + b * 256 ^ (k % 32) - o * 256 ^ (k % 32))
                          stale := if bit l.dirty s then l.stale else l.stale ||| 2 ^ s }
    else { d with mem := { d.mem with hbm := memSet d.mem.hbm k b } }
  | none => { d with mem := { d.mem with hbm := memSet d.mem.hbm k b } }

/-- Whether a byte of a channel lies in a selected pseudo-channel. -/
def inMask (d : Dp) (mask k : Nat) : Bool := bit mask (pseudoAt d k % 2)

/-- A run's writes: the channel's contents, and poison that whole-sector writes clear (R293). -/
def tgWrites (d : Dp) (ch ctrl passes : Nat) : Dp :=
  if bits ctrl 57 56 = 1 then d
  else
    let mask := bits ctrl 15 14
    let ks := (List.range (channelKeys d ch).length).zip (channelKeys d ch) |>.filter (fun p => inMask d mask p.2)
    let d1 := ks.foldl (fun d p => writePast d p.2 (tgByte ctrl passes p.1 (d.freeCtr + p.1))) d
    { d1 with
      poison := if 1 ≤ passes ∧ bits ctrl 55 54 = 0 then
          d.poison.filter (fun s => !(channelAt d (s * 32) == ch && inMask d mask (s * 32)))
        else d.poison
      freeCtr := d.freeCtr + (channelKeys d ch).length }

/-- What a run's accesses meet in each sector of the channel: corrected errors and parity retries count, and no sector is poisoned
(R296). -/
def tgErrors (d : Dp) (ch mask : Nat) : Dp :=
  (d.sev.filter (fun p => p.2 != 2 && channelAt d (p.1 * 32) == ch && inMask d mask (p.1 * 32))).foldl
    (fun d p => errorAt 0xFFFF d p.1 p.2) d

/-- TG_RUN_COMPLETE (R296): status, counts and the first 16 mismatches of a run. The bytes are those of partition 63, whose rate does not
hold the generator back (R281, log 81). -/
def execTgRunComplete (chan : Nat) (run : TgRun) (s : State) : Host.Outcome State Fault Refusal :=
  if 320 ≤ chan then .next s
  else live s (fun s =>
    let x := kvGet {} s.dp.tg chan
    if !x.running then s
    else
      let ctrl := s.obj (objKey chan kTgCtrl)
      let s1 := raiseDue (s.setDp (tgErrors (tgWrites s.dp chan ctrl run.passes) chan (bits ctrl 15 14)))
      let s2 := ((s1.bump (objKey chan kTgMismatch) run.mismatches.length).bump (objKey chan kTgBytes) run.bytes).bump
        (objKey 63 kRegBytes) run.bytes
      setTg s2 chan { done := true, fail := !run.mismatches.isEmpty, passes := run.passes, mbps := run.mbps
                      log := run.mismatches.take 16 })

/-! ## Flash translation layer -/

/-- FLASH_RELOCATION (R339): a block whose reads have reached the limit gives its unit to another and is erased. Its contents read as
before. -/
def execFlashRelocation (block : Nat) (s : State) : Host.Outcome State Fault Refusal :=
  live s (fun s =>
    let f := s.dp.ftl
    if s.obj kFtlRdLimit ≤ kvGet 0 f.reads block then
      (s.setDp { s.dp with ftl := f.relocate block }).bump kFtlRelocations (b2n (f.unitOf block).isSome)
    else s)

/-- FLASH_WEAR_LEVELLING (R338): a cold block's unit moves onto a worn block when their erase counts differ too far. -/
def execFlashWearLevelling (cold worn : Nat) (s : State) : Host.Outcome State Fault Refusal :=
  live s (fun s =>
    let f := s.dp.ftl
    if kvGet 0 f.erases cold + s.obj kFtlWearSpread < kvGet 0 f.erases worn then
      (s.setDp { s.dp with ftl := f.level cold worn }).bump kFtlRelocations (f.levelMoves cold worn)
    else s)

end Sys2Proof.Machine
end

