-- ==== Sys2Proof/Machine/Boot.lean ====
section
/-! DEFINITION. Start-up (R644 to R654): the nine stages, their failures, configuration records (R563), pairing, and the
reports to the leaf manager; and the ends of a bay test and of a loopback run (R658, R659). -/

namespace Sys2Proof.Machine

/-! ## Stages -/

/-- Whether a stage can complete now: it has not, those it waits on have, and start-up has not failed (R644, R651). -/
def stageReady (s : State) (n : Nat) (after : List Nat) : Bool :=
  !s.boot.done.contains n && after.all s.boot.done.contains && s.obj kBootFail == 0

def stageDone (s : State) (n : Nat) : State :=
  if s.boot.done.contains n then s else { s with boot := { s.boot with done := s.boot.done ++ [n] } }

/-- A failure of start-up (R651): the cause, the unit, one log entry but for causes of stage 1, and idle Soune and tether ports.
`FAULT_N` follows from the cause. -/
def bootFail (s : State) (cause unit : Nat) : State :=
  let s1 := (s.setObj kBootFail cause).setObj kStFailUnit unit
  let s2 : State := { s1 with soune := List.replicate 36 {} }
  if cause = 0x0F20 ∨ cause = 0x0F21 then s2 else s2.log { source := 0x9000, code := cause, sev := 3, data := dataAt 624 unit }

/-- `ST_FAIL_UNIT` where no unit is named. -/
def noUnit : Nat := 0xFFFF

def isWarm (s : State) : Bool := s.obj kResetKind == 3

/-! ## Stage 1 (R578, R582, R584) -/

/-- The slots with a TRYING one rejected. -/
def rejectTrying (f : Fw) : Fw :=
  { f with a := if f.a.st = 4 then { f.a with st := 7 } else f.a, b := if f.b.st = 4 then { f.b with st := 7 } else f.b }

/-- The slot about to boot: the other one where a slot was TRYING, else a TRIAL slot, else the ACTIVE one. -/
def bootChoice (f : Fw) : Nat :=
  if f.a.st = 4 then 1 else if f.b.st = 4 then 0
  else if f.a.st = 3 then 0 else if f.b.st = 3 then 1
  else if f.b.st = 5 then 1 else 0

/-- The slot boots; a TRIAL slot becomes TRYING. -/
def bootSlot (f : Fw) (k : Nat) : Fw :=
  let x := f.slot k
  { f.setSlot k (if x.st = 3 then { x with st := 4 } else x) with running := k }

/-- Chooses and checks the slot; none where neither passes. A slot that fails becomes REJECTED. -/
def chooseSlot (f : Fw) (ok : Nat → Bool) : Fw × Bool :=
  let k := bootChoice f
  let f1 := rejectTrying f
  if ok k then (bootSlot f1 k, true)
  else
    let f2 := f1.setSlot k { f1.slot k with st := 7 }
    if ok (1 - k) then (bootSlot f2 (1 - k), true)
    else (f2.setSlot (1 - k) { f2.slot (1 - k) with st := 7 }, false)

/-- STAGE_ROM (R578, R582, R584): the root secret and both slots' verdicts. -/
def execStageRom (pufOk slotAOk slotBOk : Bool) (s : State) : Host.Outcome State Fault Refusal :=
  live s (fun s =>
    if !stageReady s 1 [] then s
    else if !pufOk then bootFail s 0x0F20 noUnit
    else
      let r := chooseSlot s.fw (fun k => if k = 0 then slotAOk else slotBOk)
      let s1 : State := { s with fw := r.1 }
      if r.2 then stageDone s1 1 else bootFail s1 0x0F21 noUnit)

/-! ## Stage 2: configuration records (R563) -/

/-- An entry's bytes in its record, padded. -/
def entryBytes (e : CfgEntry) : List Nat :=
  leBytes (roundUp (6 + e.len) 8)
    (leNat (leBytes 2 e.index ++ leBytes 1 e.sub ++ leBytes 1 (b2n e.lock) ++ leBytes 2 e.len ++ leBytes e.len e.value))

/-- The entries of a payload. -/
def entriesOf : Nat → List Nat → List CfgEntry
  | 0, _ => []
  | f + 1, bs =>
    if bs.length < 6 then []
    else
      let n := leNat ((bs.drop 4).take 2)
      { index := leNat (bs.take 2), sub := bs.getD 2 0, lock := bit (bs.getD 3 0) 0, value := leNat ((bs.drop 6).take n), len := n } ::
        entriesOf f (bs.drop (roundUp (6 + n) 8))

/-- An installed record (R583) as it applies. -/
def installedRecord (p : Nat × List Nat) : CfgRecord :=
  let n := leNat ((p.2.drop 24).take 8)
  { number := p.1, entries := entriesOf n ((p.2.drop 256).take n), operators := Config.recordOperators p.2 }

def insertRecord (r : CfgRecord) : List CfgRecord → List CfgRecord
  | [] => [r]
  | x :: xs => if r.number ≤ x.number then r :: x :: xs else x :: insertRecord r xs

/-- The records to apply, in ascending number: those installed, and of those that came with the device the ones that no
installed record replaces. -/
def recordsToApply (s : State) (given : List CfgRecord) : List CfgRecord :=
  let own := s.fw.records.map installedRecord
  (own ++ given.filter (fun r => !own.any (fun x => x.number == r.number))).foldr insertRecord []

def entryWrite (e : CfgEntry) : Staged := { index := e.index, sub := e.sub, bytes := leBytes e.len e.value }

/-- Applies a record's entries with the critical right; the first that fails stops them, with its status. -/
def applyEntries : List CfgEntry → State → State × Option (Nat × CfgEntry)
  | [], s => (s, none)
  | e :: es, s =>
    let w := entryWrite e
    let code := checkWrite s 0 true w
    if code ≠ 0 then (s, some (code, e))
    else
      let r := writeNow s 0 w
      if r.2 = 0 then applyEntries es r.1 else (r.1, some (if r.2 < 0x10000 then r.2 else 0x0807, e))

/-- A record that fails at an entry leaves the state as it was, and one log entry. -/
def skipRecord (s : State) (r : CfgRecord) (code : Nat) (e : CfgEntry) : State :=
  s.log { source := 0x1211, code := code, sev := 1, data := dataAt 624 r.number + dataAt 608 e.index + dataAt 600 e.sub }

/-- Applies one record, or skips it. -/
def applyRecord (s : State) (r : CfgRecord) : State :=
  let x := applyEntries r.entries s
  match x.2 with
  | some f => skipRecord s r f.1 f.2
  | none =>
    match r.entries.find? (fun e => setFails x.1 (entryWrite e)) with
    | some e => skipRecord s r 0x0807 e
    | none =>
      let m := x.1.mgmt
      let m1 : Mgmt := { m with
          operators := (m.operators ++ r.operators).take 16
          locks := m.locks ++ (r.entries.filter (fun (e : CfgEntry) => e.lock)).map (fun (e : CfgEntry) => objNo e.index e.sub)
          cfgBytes := m.cfgBytes ++ r.entries.flatMap entryBytes }
      let s1 : State := { x.1 with mgmt := m1 }
      s1.setObj kCfgRecords (x.1.obj kCfgRecords ||| 2 ^ r.number)

/-- STAGE_MGMT (R563, R584, R644): the configuration records apply, and `RB_COUNTER` rises to the running image's. -/
def execStageMgmt (records : List CfgRecord) (s : State) : Host.Outcome State Fault Refusal :=
  live s (fun s =>
    if !stageReady s 2 [1] then s
    else
      let s1 := (recordsToApply s records).foldl applyRecord s
      stageDone (raiseRb s1 (s1.fw.slot s1.fw.running).secVersion) 2)

/-! ## Stages 3 and 4: memory (R646 to R649) -/

/-- A row is repaired: one log entry, one more in `ST_REPAIRS`, and its errors are gone. -/
def repairRow (hard : Bool) (s : State) (row : Nat) : State :=
  let k := row * 32 * 32
  let d := { s.dp with sev := s.dp.sev.filter (fun p => p.1 / 32 ≠ row) }
  let data := dataAt 576 (physAt d k) + dataAt 560 (channelAt d k) + dataAt 552 (if hard then 1 else 2)
  let s1 := (s.setDp d).log { source := 0x9001, code := 0x9001, sev := 0, data := data }
  s1.setObj kStRepairs (min (s1.obj kStRepairs + 1) (2 ^ 32 - 1))

/-- STAGE_HBM (R646, R649): a stack that fails training, or the rows named for repair, hard where a spare row remains. -/
def execStageHbm (failed : Option Nat) (spareRows : List Nat) (s : State) : Host.Outcome State Fault Refusal :=
  live s (fun s =>
    if !stageReady s 3 [2] then s
    else if failed.isSome then bootFail s 0x0F22 noUnit
    else if isWarm s then stageDone s 3
    else
      let s1 := s.dp.repairRows.foldl (fun s r => repairRow (spareRows.contains r) s r) s
      stageDone (s1.setDp { s1.dp with repairRows := [] }) 3)

/-- Repairs after one channel's mismatches: hard while spare rows remain, soft after that. -/
def repairChannel (s : State) (t : ChanTest) : State :=
  let s1 := (t.rows.take t.hard).foldl (repairRow true) s
  (t.rows.drop t.hard).foldl (repairRow false) s1

/-- Full rate of a channel, MB/s (R295). -/
def fullRate : Nat := 76800

/-- Every channel's result (R648). -/
def channelResults (s : State) (results : List ChanTest) : State :=
  (List.range 320).foldl (fun s ch =>
    setTg s ch { done := true, fail := results.any (fun t => t.chan == ch && t.stillFails), passes := 1, mbps := fullRate }) s

/-- Every byte outside the device reserve reads 0, and no sector is poisoned. -/
def zeroFill (d : Dp) : Dp :=
  { d with mem := { d.mem with hbm := d.mem.hbm.filter (fun c => decide (openBytes ≤ c.1 % Config.stackBytes)) }, poison := [] }

/-- STAGE_HBMTEST (R647 to R649): the traffic tests of all channels, repairs, and the zero fill. -/
def execStageHbmtest (results : List ChanTest) (s : State) : Host.Outcome State Fault Refusal :=
  live s (fun s =>
    if !stageReady s 4 [3] then s
    else if isWarm s then stageDone s 4
    else
      let s1 := channelResults (results.foldl repairChannel s) results
      match results.find? (·.stillFails) with
      | some t => bootFail s1 0x0F23 (512 + t.chan)
      | none => stageDone (s1.setDp (zeroFill s1.dp)) 4)

/-! ## Stages 5 to 7 -/

/-- STAGE_BAYTEST (R650): passed, or the failing unit with its cause. -/
def execStageBaytest (failed : Option (Nat × Nat)) (s : State) : Host.Outcome State Fault Refusal :=
  live s (fun s =>
    if !stageReady s 5 [2] then s
    else match failed with
      | none => stageDone s 5
      | some f => bootFail s (if f.2 = 0x0F25 then 0x0F25 else 0x0F24) f.1)

/-- STAGE_FTL (R337, R651): the translation layer with its spare, or a journal that cannot be read. -/
def execStageFtl (journalOk : Bool) (spare lifeUsed badBlocks : Nat) (s : State) : Host.Outcome State Fault Refusal :=
  live s (fun s =>
    if !stageReady s 6 [2] then s
    else if !journalOk then bootFail s 0x0F26 noUnit
    else stageDone (s.setDp { s.dp with ftl := { s.dp.ftl with spare := spare, lifeUsed := lifeUsed, badBlocks := badBlocks } }) 6)

/-- STAGE_LINKS (R644, R651): complete once a ZelugLink port is ACTIVE, also after a failure of stages 3 to 6. -/
def execStageLinks (s : State) : Host.Outcome State Fault Refusal :=
  live s (fun s => if mgmtUp s ∧ (portUp s 0 || portUp s 1) then stageDone s 7 else s)

/-! ## Pairing (R652, R653) -/

/-- Why a twin does not pair. -/
def pairRefused (p : PairOffer) : Bool :=
  !p.sigOk || p.state == 3 || p.state == 4 || p.state == 5 || p.id == Config.deviceId.toNat

/-- The twins become PAIRED; `BOOT_TIME_MS` is kept from the first completion of stage 8. -/
def pairWith (s : State) (p : PairOffer) : State :=
  let t := s.twin
  let s1 := setTwin s { t with st := 2, member := if Config.deviceId.toNat < p.id then 0 else 1, epoch := (t.epoch + 1) % 2 ^ 32,
                               partner := p.id, addr := p.addr, paired := true, missed := 0, beat := false, probeAt := none }
  let s2 : State := { s1.setDp { s1.dp with partnerPages := p.pages } with boot := { s1.boot with refusedAt := none } }
  if s2.boot.done.contains 8 then s2
  else stageDone (s2.setObj kBootTimeMs ((s2.time - s2.boot.since) / 1000000)) 8

/-- Whether pairing can begin: stages 4, 5 and 6 have completed, a tether port is ACTIVE, and the device is UNPAIRED. -/
def pairReady (s : State) : Bool :=
  [4, 5, 6].all s.boot.done.contains && s.obj kBootFail == 0 && !(tetherPorts s).isEmpty && s.twin.st == 0

/-- One attempt at pairing. -/
def tryPair (s : State) (p : PairOffer) : State :=
  if pairRefused p then { s.bump kPairRefusedCount 1 with boot := { s.boot with refusedAt := some s.time } } else pairWith s p

/-- STAGE_PAIR (R652, R653). -/
def execStagePair (offer : PairOffer) (s : State) : Host.Outcome State Fault Refusal :=
  live s (fun s => if pairReady s ∧ s.boot.refusedAt.isNone then tryPair s offer else s)

/-- PAIR_RETRY (R653): every 100 ms after a refusal. -/
def execPairRetry (offer : PairOffer) (s : State) : Host.Outcome State Fault Refusal :=
  live s (fun s =>
    match s.boot.refusedAt with
    | some t => if pairReady s ∧ s.expired t 100000000 then tryPair s offer else s
    | none => s)

/-! ## Stage 9 (R654) -/

/-- The report of the pair to the leaf manager. -/
def pairReport (s : State) : State :=
  { leafReport s [5, Config.deviceId.toNat, s.twin.partner, s.twin.member] with boot := { s.boot with reportAt := some s.time } }

/-- STAGE_JOIN (R654): the first report, where a leaf manager's address is set. -/
def execStageJoin (s : State) : Host.Outcome State Fault Refusal :=
  live s (fun s => if stageReady s 9 [8] ∧ s.boot.reportAt.isNone ∧ s.obj kLeafMgrAddr ≠ 0 then pairReport s else s)

/-- MANAGER_REPORT_RETRY (R654): again after 1 s. -/
def execManagerReportRetry (s : State) : Host.Outcome State Fault Refusal :=
  live s (fun s =>
    match s.boot.reportAt with
    | some t => if s.expired t 1000000000 ∧ s.obj kLeafMgrAddr ≠ 0 then pairReport s else s
    | none => s)

/-- MANAGER_REPORT_ACK (R654): stage 9 completes. -/
def execManagerReportAck (s : State) : Host.Outcome State Fault Refusal :=
  live s (fun s => if s.boot.reportAt.isSome then stageDone { s with boot := { s.boot with reportAt := none } } 9 else s)

/-! ## Diagnostics -/

/-- BAY_TEST_COMPLETE (R658): results 2 pass to 6; a failure adds one log entry. -/
def execBayTestComplete (bay result : Nat) (s : State) : Host.Outcome State Fault Refusal :=
  if Config.bays ≤ bay then .next s
  else live s (fun s =>
    if s.boot.testing ≠ some bay ∨ result < 2 ∨ 6 < result then s
    else
      let s1 : State := { s.setObj (objKey bay kBtResult) result with boot := { s.boot with testing := none } }
      if result = 2 then s1 else s1.log { source := 0x9030, code := 0x9030, sev := 2, data := dataAt 632 bay + dataAt 624 result })

/-- LB_RUN_END (R659): results are kept, and the port returns to DETECT. -/
def execLbRunEnd (port bits errors worstLane : Nat) (s : State) : Host.Outcome State Fault Refusal :=
  live s (fun s =>
    match s.boot.loops.find? (fun l => l.1 == port) with
    | none => s
    | some l =>
      if s.time < l.2 then s
      else
        let s1 := ((s.setObj (objKey port kLbBits) bits).setObj (objKey port kLbErrors) errors).setObj (objKey port kLbWorstLane) worstLane
        let s2 : State := { s1 with boot := { s1.boot with loops := s1.boot.loops.filter (fun x => x.1 ≠ port) } }
        if port < 36 then s2.setPort false port { st := 0, since := s.time, downs := (s.port false port).downs }
        else if port = 64 ∨ port = 65 then s2.setPort true (port - 64) { st := 0, since := s.time, downs := (s.port true (port - 64)).downs }
        else s2)

end Sys2Proof.Machine
end

