-- ==== Sys2Proof/Machine/DictCmd.lean ====
section
/-! DEFINITION. The commands that write one object (R561, log 11), each for its own object or value, and writes to the control
window (R472, R473). -/

namespace Sys2Proof.Machine

/-! ## Context commands (R437) -/

/-- CTX_CREATE (R437). -/
def execCtxCreate (sess : Nat) (s : State) : Host.Outcome State Fault Refusal := onWrite s sess [stagedOf kCtxCmd 1]

/-- KILL (R437). -/
def execKill (sess : Nat) (s : State) : Host.Outcome State Fault Refusal := onWrite s sess [stagedOf kCtxCmd 2]

/-- RESTART (R437). -/
def execRestart (sess : Nat) (s : State) : Host.Outcome State Fault Refusal := onWrite s sess [stagedOf kCtxCmd 3]

/-- DESTROY (R437). -/
def execDestroy (sess : Nat) (s : State) : Host.Outcome State Fault Refusal := onWrite s sess [stagedOf kCtxCmd 4]

/-! ## Memory system -/

/-- CACHE_FLUSH (R276). -/
def execCacheFlush (value : Nat) (s : State) : Host.Outcome State Fault Refusal := onWrite s 0 [stagedOf kCacheFlush value]

/-- TG_START (R295): a write of `TG_CTRL` with `START`. -/
def execTgStart (sess value : Nat) (s : State) : Host.Outcome State Fault Refusal :=
  onWrite s sess [stagedOf kTgCtrl (2 ^ 63 + value % 2 ^ 63)]

/-- TG_STOP (R295): a write of `TG_CTRL` with `STOP` and without `START`. -/
def execTgStop (sess value : Nat) (s : State) : Host.Outcome State Fault Refusal :=
  onWrite s sess [stagedOf kTgCtrl (2 ^ 62 + value % 2 ^ 62)]

/-- HBM_REGION_WRITE (R267, R268). A region past the eight names an object that the dictionary does not have (R561). -/
def execHbmRegionWrite (region value : Nat) (s : State) : Host.Outcome State Fault Refusal :=
  onWrite s 0 [stagedOf (kHbmRegion + min region 254) value]

/-- TWIN_WINDOW_WRITE (R325): sub 1 is `TWIN_WINDOW_BASE`, sub 2 `TWIN_WINDOW_PAGES`, any other an object that the dictionary does not
have (R561). -/
def execTwinWindowWrite (sub value : Nat) (s : State) : Host.Outcome State Fault Refusal :=
  onWrite s 0 [stagedOf (objNo 0x3102 (min sub 255)) value]

/-! ## Tables, widening, serving, injection -/

/-- TBL_OWNER_WRITE (R113). -/
def execTblOwnerWrite (sess slot value : Nat) (s : State) : Host.Outcome State Fault Refusal :=
  if slot < 16 then onWrite s sess [stagedOf (kTblOwner + slot) value] else onWrite s sess [stagedOf (objNo (kTblOwner / 256) 255) value]

/-- WID_TABLE_WRITE (R217): sub 1 is `WID_TABLE`, sub 2 `WID_LAYERS`. -/
def execWidTableWrite (sub value : Nat) (s : State) : Host.Outcome State Fault Refusal :=
  onWrite s 0 [stagedOf (if sub = 1 then kWidTable else if sub = 2 then kWidLayers else objNo (kWidTable / 256) 255) value]

/-- SERVE_REC_WRITE (R349, R350). -/
def execServeRecWrite (value : Nat) (s : State) : Host.Outcome State Fault Refusal := onWrite s 0 [stagedOf kServeRec value]

/-- CKS_INJECT_WRITE (R96). -/
def execCksInjectWrite (sess value : Nat) (s : State) : Host.Outcome State Fault Refusal := onWrite s sess [stagedOf kCksInject value]

/-! ## Ports and the twin -/

/-- PORT_ENABLE (R488): one transaction that selects the port and writes the object. -/
def execPortEnable (port value : Nat) (s : State) : Host.Outcome State Fault Refusal :=
  onWrite s 0 [stagedOf kPortSel port, stagedOf kPortEnable value]

/-- UNPAIR (R554): `TWIN_CMD` 2. -/
def execUnpair (sess : Nat) (s : State) : Host.Outcome State Fault Refusal := onWrite s sess [stagedOf kTwinCmd 2]

/-- DICT_WRITE (R561): a write to any object. -/
def execDictWrite (sess index sub value : Nat) (s : State) : Host.Outcome State Fault Refusal :=
  onWrite s sess [stagedOf (objNo (index % 2 ^ 16) (sub % 2 ^ 8)) value]

/-! ## Firmware (R582, R583) -/

/-- FW_STAGE (R583): a segment of an image. -/
def execFwStage (sess offset : Nat) (bytes : List Nat) (s : State) : Host.Outcome State Fault Refusal :=
  onWrite s sess [{ index := kFwStage / 256, sub := kFwStage % 256, offset := offset, bytes := bytes }]

/-- VERIFY (R582). -/
def execFwVerify (sess : Nat) (s : State) : Host.Outcome State Fault Refusal := onWrite s sess [stagedOf kFwCmd 1]

/-- ACTIVATE (R583). -/
def execFwActivate (sess : Nat) (s : State) : Host.Outcome State Fault Refusal := onWrite s sess [stagedOf kFwCmd 2]

/-- CONFIRM (R583). -/
def execFwConfirm (sess : Nat) (s : State) : Host.Outcome State Fault Refusal := onWrite s sess [stagedOf kFwCmd 3]

/-- DISCARD (R583). -/
def execFwDiscard (sess : Nat) (s : State) : Host.Outcome State Fault Refusal := onWrite s sess [stagedOf kFwCmd 4]

/-! ## Diagnostics -/

/-- BT_CMD (R658). -/
def execBtCmd (sess : Nat) (s : State) : Host.Outcome State Fault Refusal := onWrite s sess [stagedOf kBtCmd 1]

/-- LB_START (R659): a write of `LB_CTRL` with `START`. -/
def execLbStart (sess value : Nat) (s : State) : Host.Outcome State Fault Refusal :=
  onWrite s sess [stagedOf kLbCtrl (128 + value % 128)]

/-! ## The control window (R472, R473) -/

/-- Bytes stored into a buffer from an offset on. -/
def putBytes (l : List Nat) (off : Nat) (bs : List Nat) : List Nat :=
  (List.range (max l.length (off + bs.length))).map (fun i =>
    if off ≤ i ∧ i < off + bs.length then bs.getD (i - off) 0 else l.getD i 0)

/-- Bits [31:0] of `MBX_STATUS` (R472). -/
def mbxStatus (s : State) : Nat := b2n s.mbx.busy * 2 ^ 31 + b2n s.mbx.done * 2 ^ 30 + s.mbx.respLen

/-- What a read of the control window returns, as `size` bytes (R473, log 89): a doorbell at its exact size and alignment its latest
accepted value, a mailbox buffer its bytes, `MBX_STATUS` the mailbox's state, and any other read zeros. It has no effect. -/
def windowRead (s : State) (offset size : Nat) : List Nat :=
  let c := offset / 4096
  let at_ := offset % 4096
  if (c < 256 ∧ (at_ = 0 ∨ at_ = 8) ∧ size = 4) ∨ (c < 256 ∧ at_ = 16 ∧ size = 8) ∨ (offset = 0x102000 ∧ size = 4) then
    leBytes size (kvGet 0 s.db offset)
  else if c = 256 ∧ at_ + size ≤ 4096 then (List.range size).map (fun i => s.mbx.req.getD (at_ + i) 0)
  else if c = 257 ∧ at_ + size ≤ 4096 then (List.range size).map (fun i => s.mbx.resp.getD (at_ + i) 0)
  else if offset = 0x102008 ∧ size = 4 then leBytes 4 (mbxStatus s)
  else List.replicate size 0

/-- CONTROL_WINDOW_WRITE (R472, R473): a doorbell at its exact size and alignment, a write within the mailbox request buffer,
or a write that is ignored and counted. -/
def execControlWindowWrite (offset size value : Nat) (s : State) : Host.Outcome State Fault Refusal :=
  live s (fun s =>
    let c := offset / 4096
    let at_ := offset % 4096
    if c < 256 then
      if at_ = 0 ∧ size = 4 then sqDoorbell s c (value % 2 ^ 32)
      else if at_ = 8 ∧ size = 4 then cqDoorbell s c (value % 2 ^ 32)
      else if at_ = 16 ∧ size = 8 then tickDoor s c (value % 2 ^ 64)
      else s.bump kCtrlIgnoredCount 1
    else if c = 256 ∧ at_ + size ≤ 4096 then { s with mbx := { s.mbx with req := putBytes s.mbx.req at_ (leBytes size value) } }
    else if offset = 0x102000 ∧ size = 4 then mailboxDoorbell s (value % 2 ^ 32)
    else s.bump kCtrlIgnoredCount 1)

end Sys2Proof.Machine
end

