-- ==== Sys2Proof/Machine/IngCmd.lean ====
section
/-! DEFINITION. The commands of ING: batches from lists, host and device decodes, deadlines and carry entries, and live
streams (R399 to R405, R417 to R425). -/

namespace Sys2Proof.Machine

/-- Whether a `LIVE_GROUP` lives on this device with at most 64 members (R418). -/
def liveGroupOk (s : State) (g : Nat) : Bool := (findGroup s g).any (fun x => decide (x.roster.size ≤ 64))

/-- The checks of a started ING, with its descriptor, auxiliary block and list. -/
def ingChecked (s : State) (o : Op) : Except Nat IngEnv × Eff := (ingIssue (s.opEnv o) o.desc (liveGroupOk s)).run {}

/-- Stores what an op has worked out so far, without completing it. -/
def settlePart (s : State) (o : Op) (e : Eff) : State :=
  match e.hw with
  | some h => hwFault s h.1 h.2.1 h.2.2
  | none => s.effect (s.opEnv o) e

/-! ## Batches from lists -/

/-- Starts decodes that wait, and finishes the batch once every sample has its pictures or has left it. -/
def ingProgress (s : State) (o : Op) (I : IngEnv) (xs : List IngSample) (e : Eff) : State :=
  let E := s.opEnv o
  match ((startWaiting s E o.id I xs [] 0).run e : Except Nat (List IngSample) × Eff) with
  | (.error c, e1) => dropIng (settle s o e1 c) o.id
  | (.ok ys, e1) =>
    if ys.all (fun x => decide (2 ≤ x.st)) then
      match ((batchPlan E I ys).run e1 : Except Nat Unit × Eff) with
      | (.error c, e2) => dropIng (settle s o e2 c) o.id
      | (.ok _, e2) => dropIng (settle s o e2 (firstCode ingOrder e2.codes)) o.id
    else putIng (settlePart s o e1) (jobNow o.id I ys)

/-- The carry entries of a context after an ING that claims the given keys (R405): claimed ones leave, others grow older, and
those that sixteen later INGs left unclaimed are dropped and counted. -/
def ageCarries (s : State) (c : Nat) (keys : List Nat) : State :=
  let mine := s.carries.filter (fun x => x.ctx == c && !keys.contains (ingEntry x.sample.entry).key)
  let gone := (mine.filter (fun x => decide (15 ≤ x.age))).length
  let older : List Carry := (mine.filter (fun x => decide (x.age < 15))).map (fun x => { x with age := x.age + 1 })
  ({ s with carries := s.carries.filter (fun x => x.ctx != c) ++ older } : State).bump kIngCarryDrop gone

/-- Goes on with `k` once every read of host memory that an ING has worked out so far has come (R469). -/
def onRead (s : State) (o : Op) (e : Eff) (k : State) : State :=
  match waitsForHost o e with
  | some ts => readOn s o ts
  | none => k

/-- An ING that has not begun its batch: sources are chosen in list order. -/
def ingBegin (s : State) (o : Op) : State :=
  match ingChecked s o with
  | (.error c, e) => onRead s o e (settle s o e c)
  | (.ok I, e) =>
    match ((chooseAll s (s.opEnv o) o I ((List.range I.list.length).zip I.list) []).run e : Except Nat (List IngSample) × Eff) with
    | (.error c, e1) => onRead s o e1 (settle s o e1 c)
    | (.ok xs, e1) =>
      let s1 := ageCarries s o.ctx (I.list.map (fun w => (ingEntry w).key))
      onRead s o e1 (ingProgress { s1 with ing := s1.ing ++ [jobNow o.id I xs] } o I xs e1)

/-- An ING goes on with its batch. -/
def ingGoOn (s : State) (o : Op) : State :=
  match ingJob? s o.id, ingChecked s o with
  | some j, (.ok I, _) => ingProgress s o I j.samples {}
  | _, _ => s

/-- ING (R399). -/
def execIng (op : Nat) (s : State) : Host.Outcome State Fault Refusal :=
  live s (onWork .ing op (fun s o => if (ingJob? s o.id).isSome then ingGoOn s o else ingBegin s o))

/-! ## Decodes -/

/-- Whether a sample is the running decode that `op` began for its list entry `sample`. -/
def isDecode (op sample : Nat) (host : Bool) (x : IngSample) : Bool :=
  x.origin == (op, sample) && x.st == 1 && (x.ring != 0) == host

/-- The ING whose batch waits for a decode, the context whose carry entry does, and the sample. -/
def findDecode (s : State) (op sample : Nat) (host : Bool) : Option (Option Op × Nat × IngSample) :=
  match s.ing.findSome? (fun j => (j.samples.find? (isDecode op sample host)).map (fun x => (j.op, x))) with
  | some p => (s.op? p.1).map (fun o => (some o, o.ctx, p.2))
  | none => (s.carries.find? (fun c => isDecode op sample host c.sample)).map (fun c => (none, c.ctx, c.sample))

/-- A decode's sample takes its new form, in its batch or its carry entry, and the batch goes on. -/
def putDecode (s : State) (o : Option Op) (old new : IngSample) : State :=
  match o with
  | none => { s with carries := s.carries.map (fun c => if c.sample = old then { c with sample := new } else c) }
  | some o =>
    let s1 : State := { s with ing := s.ing.map (fun j =>
      if j.op = o.id then { j with samples := j.samples.map (fun x => if x = old then new else x) } else j) }
    ingGoOn s1 o

/-- DEVICE_DECODE_COMPLETE (R401, R404): the sample has its pictures; `ps` is the decode's time per luma sample. -/
def execDeviceDecodeComplete (op sample ps : Nat) (s : State) : Host.Outcome State Fault Refusal :=
  live s (fun s =>
    match findDecode s op sample false with
    | none => s
    | some (o, c, x) =>
      let E := s.env c
      let r : Except Nat (List Config.Picture) × Eff := (clipPlan E x).run {}
      let s1 := s.effect E r.2
      match r.1, o with
      | .error code, some o => dropIng (finishOp s1 o.id code 0) o.id
      | .error _, none => putDecode s1 none x { x with st := 2 }
      | .ok pics, _ => putDecode (noteTime s1 c ps) o x { x with st := 2, pics := kept (ingEntry x.begun) pics })

/-- Frames that the host wrote: dense NV12 or P010, one after another (R402). -/
def hostFrames (E : Env) (x : IngSample) (w : Nat) : Plan (List Config.Picture) := do
  let e := ingEntry x.begun
  let layout := b2n (bit w 29)
  let eb := layoutBytes layout
  let cw := 2 * ceilDiv e.width 2
  let size := (e.width * e.height + cw * ceilDiv e.height 2) * eb
  let live : LiveEntry := { ring := 0, log2 := 0, control := false, layout := layout, matrix := 0, range := 0, width := e.width
                            height := e.height, pitch := e.width * eb, chroma := e.width * e.height * eb, producer := 0, consumer := 0 }
  (List.range e.frames).mapM (fun i => do
    let p ← rdLive E live (x.frameAddr + i * size)
    pure { p with matrix := bits w 27 20, fullRange := bit w 28 })

/-- The result of a host decode: none while its word is zero; else the consumer advances, and the frames are read where the word
says that they are good (R402). -/
def hostResult (E : Env) (x : IngSample) : Plan (Option (List Config.Picture)) := do
  let w ← rdNat E (x.ring + 64 + 64 * (x.slot % 2 ^ x.ringLog2)) 4
  if bits w 31 30 = 0 then pure none
  else do
    let cons ← rdNat E (x.ring + 4) 4
    let next := (x.slot + 1) % 2 ^ 32
    if 2 ^ 31 ≤ (cons + 2 ^ 32 - next) % 2 ^ 32 then wr E (x.ring + 4) (leBytes 4 next)
    if bits w 31 30 = 1 then do pure (some (← hostFrames E x w)) else pure (some [])

/-- HOST_DECODE_RESULT (R402): a non-zero result word is taken and the consumer advances; `RESULT` 2 or 3 makes the sample
corrupt. -/
def execHostDecodeResult (op sample : Nat) (s : State) : Host.Outcome State Fault Refusal :=
  live s (fun s =>
    match findDecode s op sample true with
    | none => s
    | some (o, c, x) =>
      let E := s.env c
      let r : Except Nat (Option (List Config.Picture)) × Eff := (hostResult E x).run {}
      let s1 := s.effect E r.2
      match r.1, o with
      | .ok none, _ => s
      | .ok (some ps), _ =>
        let e := ingEntry x.begun
        putDecode (noteTime s1 c ((s.time - x.since) * 1000 / max 1 (lumaOf e))) o x { x with st := 2, pics := ps }
      | .error code, some o => dropIng (finishOp s1 o.id code 0) o.id
      | .error _, none => putDecode s1 none x { x with st := 2 })

/-- ING_DECODE_DEADLINE (R403, R404): the sample leaves the batch, and its decode goes on into a carry entry. -/
def execIngDecodeDeadline (op sample : Nat) (s : State) : Host.Outcome State Fault Refusal :=
  live s (fun s =>
    match (ingJob? s op).bind (fun j => j.samples.find? (fun x => x.origin == (op, sample) && x.st == 1 && !x.carried)), s.op? op with
    | some x, some o =>
      let times := timesOf s o.ctx
      let limit := s.obj kIngDeferFactor * median times * lumaOf (ingEntry x.entry) / 1000
      if (ingDesc o.desc).strict ∨ times.length < 16 ∨ !s.expired x.since limit then s
      else
        let s1 : State := { s with carries := s.carries ++ [{ ctx := o.ctx, sample := x }] }
        putDecode (s1.bump kIngDeferred 1) (some o) x { x with st := 3, event := 2 }
    | _, _ => s)

/-! ## Live streams -/

/-- Takes the batch of a live op at a time bound (R418, R419). -/
def takeLive (s : State) (o : Op) (aligned : Bool) (upto : IngEnv → Nat) (ready : IngEnv → Bool) : State :=
  match ingChecked s o with
  | (.error c, e) => onRead s o e (dropIng (settle s o e c) o.id)
  | (.ok I, e) =>
    if !ready I then (if (ingJob? s o.id).isSome then s else { s with ing := s.ing ++ [{ op := o.id }] })
    else match ((livePlan (s.opEnv o) I aligned (upto I)).run e : Except Nat Unit × Eff) with
      | (.error c, e1) => onRead s o e1 (dropIng (settle (ageCarries s o.ctx []) o e1 c) o.id)
      | (.ok _, e1) => onRead s o e1 (dropIng (settle (ageCarries s o.ctx []) o e1 (firstCode ingOrder e1.codes)) o.id)

/-- Whether every stream of an aligned op holds an entry stamped after T. -/
def allMet (s : State) (o : Op) (I : IngEnv) : Bool :=
  let now := match ((streamsMet (s.opEnv o) I).run {} : Except Nat (List Nat) × Eff) with
    | (.ok l, _) => l
    | (.error _, _) => List.range I.list.length
  let seen := ((ingJob? s o.id).map (·.met)).getD []
  (List.range I.list.length).all (fun k => now.contains k || seen.contains k)

/-- T of an aligned op. -/
def alignT (s : State) (I : IngEnv) : Nat := liveT s.dp I.d

/-- ING with `LIVE` = 1 (R418): the batch is taken once every stream holds an entry after T. -/
def execIngLiveAligned (op : Nat) (s : State) : Host.Outcome State Fault Refusal :=
  live s (onWork .ingAligned op (fun s o => takeLive s o true (alignT s) (allMet s o)))

/-- ING with `LIVE` = 2 (R419): now is the op's start. -/
def execIngLiveStamped (op : Nat) (s : State) : Host.Outcome State Fault Refusal :=
  live s (onWork .ingStamped op (fun s o => takeLive s o false (fun _ => o.startedAt) (fun _ => true)))

/-- LIVE_ALIGN_WAIT_EXPIRY (R418). -/
def execLiveAlignWaitExpiry (op : Nat) (s : State) : Host.Outcome State Fault Refusal :=
  live s (onWork .ingAligned op (fun s o =>
    takeLive s o true (alignT s) (fun I => allMet s o I || s.expired (alignT s I) (s.obj kLiveAlignWaitNs))))

/-- LIVE_ENTRY_PUBLISHED (R418): a stream has an entry after T. -/
def execLiveEntryPublished (op stream : Nat) (s : State) : Host.Outcome State Fault Refusal :=
  live s (onWork .ingAligned op (fun s o =>
    let j := (ingJob? s o.id).getD { op := o.id }
    let s1 : State := if (ingJob? s o.id).isSome then s else { s with ing := s.ing ++ [j] }
    let s2 := if j.met.contains stream then s1 else putIng s1 { j with met := stream :: j.met }
    takeLive s2 o true (alignT s2) (allMet s2 o)))

end Sys2Proof.Machine
end

