-- ==== Sys2Proof/Machine/Sense.lean ====
section
/-! DEFINITION. Temperature sensors and thermal trips (R588, R589, R601, R602), the management processors' faults (R557, R558), the
timebase (R591 to R593), and the network's answers (R590). -/

namespace Sys2Proof.Machine

/-! ## Sensors -/

/-- Warning limit of a sensor in °C (R589, R601). -/
def warnLimit (s : State) (n : Nat) : Nat :=
  if n < 364 then s.obj kThermWarnC
  else if n < 388 then 105
  else if n = 388 then 45
  else if n = 389 then 65
  else if n < 400 then 85
  else 60

/-- Trip limit of a sensor in °C; air sensors have none. -/
def tripLimit (s : State) (n : Nat) : Option Nat :=
  if n < 364 then some (s.obj kThermTripC)
  else if n < 388 then some 125
  else if n = 388 then some 55
  else if n = 389 then some 75
  else if n < 400 then some 100
  else none

/-- Whether a temperature in 1/16 °C is at or above a sensor's trip limit. -/
def atTrip (s : State) (n : Nat) (t : Int) : Bool :=
  match tripLimit s n with
  | some l => decide (((16 * l : Nat) : Int) ≤ t)
  | none => false

/-- A crossing of the warning limit. -/
def warnCross (s : State) (n : Nat) (old t : Int) : State :=
  let l : Int := ((16 * warnLimit s n : Nat) : Int)
  if old < l ∧ l ≤ t then
    (s.bump kThermWarnCount 1).log
      { source := 0x2101, code := 0x2101, sev := 1, data := dataAt 624 n + dataAt 608 (ofSigned 16 t) }
  else s

/-- Two consecutive samples at the trip limit are a hardware fault; the trip stands until a sample lies below the limit. -/
def tripCheck (s : State) (n : Nat) (old t : Int) : State :=
  if !atTrip s n t then setPins s { s.pins with trips := s.pins.trips.filter (· ≠ n) }
  else if atTrip s n old && !s.pins.trips.contains n then
    setPins (s.inside (hwFault s 8 0x2101 (n * 2 ^ 48))) { s.pins with trips := s.pins.trips ++ [n] }
  else s

/-- SENSOR_SAMPLE (R588, R589, R601, R602): the comparator sees every sample, the firmware those after stage 2. -/
def execSensorSample (sensor : Nat) (temp : Int) (s : State) : Host.Outcome State Fault Refusal :=
  if 404 ≤ sensor then .next s
  else
    let old := kvGet 0 s.temps sensor
    let s1 : State := { s with temps := kvSet 0 s.temps sensor temp }
    let s2 := if s1.off || !mgmtUp s1 then s1 else tripCheck (warnCross s1 sensor old temp) sensor old temp
    .next (setTrip s2)

/-! ## Management processors -/

/-- MGMT_WATCHDOG_EXPIRY (R558). -/
def execMgmtWatchdogExpiry (s : State) : Host.Outcome State Fault Refusal := live s (fun s => hwFault s 9 0x9000 0)

/-- LOCKSTEP_ERROR (R557). -/
def execLockstepError (s : State) : Host.Outcome State Fault Refusal := live s (fun s => hwFault s 6 0x9000 0)

/-! ## Timebase -/

/-- The timebase under an offset of the device from its master: before the first LOCKED it is stepped, forward only; after that
the correction is by rate, and one above 1 µs is counted. -/
def disciplined (s : State) (offset : Int) : State :=
  if s.ptp.locked then (if 1000 < offset.natAbs then s.bump kPtpSlewCount 1 else s)
  else if offset < 0 then s.setDp { s.dp with time := s.dp.time + offset.natAbs }
  else s

/-- PTP_MESSAGE (R591 to R593): an offset estimate on a port; the port in use is the port of the latest message. -/
def execPtpMessage (port : Nat) (offset : Int) (s : State) : Host.Outcome State Fault Refusal :=
  if 2 ≤ port then .next s
  else live s (fun s =>
    if !mgmtUp s then s
    else
      let s1 := ((disciplined s offset).setObj kPtpOffsetNs (ofSigned 32 offset)).setObj kPtpPort port
      if offset.natAbs ≤ 10 then { s1 with ptp := { st := 2, locked := true } }
      else if s1.ptp.st = 2 then s1
      else { s1 with ptp := { s1.ptp with st := 1 } })

/-- PTP_HOLDOVER (R592): sync messages, which had come, stop for 3 intervals. -/
def execPtpHoldover (s : State) : Host.Outcome State Fault Refusal :=
  live s (fun s => if s.ptp.st = 0 then s else { s with ptp := { s.ptp with st := 3 } })

/-! ## Network answers (R590) -/

/-- The link-local address whose interface identifier is `DEVICE_ID`, as 16 octets. -/
def linkLocal : Nat := leNat ([0xFE, 0x80, 0, 0, 0, 0, 0, 0] ++ beBytes 8 Config.deviceId.toNat)

/-- ICMPV6_ECHO (R590). -/
def execIcmpv6Echo (port : Nat) (payload : List Nat) (s : State) : Host.Outcome State Fault Refusal :=
  if 2 ≤ port then .next s else live s (fun s => if mgmtUp s then s.send .icmp port payload else s)

/-- NEIGHBOUR_DISCOVERY (R590): for an address of the port. -/
def execNeighbourDiscovery (port target : Nat) (s : State) : Host.Outcome State Fault Refusal :=
  if 2 ≤ port then .next s
  else live s (fun s =>
    if mgmtUp s && (target == linkLocal || (target != 0 && target == s.obj (kNetAddr0 + port))) then s.send .neighbour port [target]
    else s)

end Sys2Proof.Machine
end

