-- ==== Sys2Proof/Machine/Power.lean ====
section
/-! DEFINITION. The power arbiter (R632 to R637, R639) and the charging of energy (R641, R643). Powers are in mW, voltages in mV,
currents in mA. -/

namespace Sys2Proof.Machine

/-! ## Rates and predictions (R625, R633) -/

/-- The rate table of R625 in M beats/s. -/
def rateRows : List (Nat × Nat) :=
  [(550, 900), (580, 1030), (600, 1110), (620, 1200), (640, 1300), (660, 1370), (700, 1500), (750, 1650), (800, 1800)]

/-- Linear interpolation between the rows around `v`; below the first and above the last row, that row's value. -/
def interpolate : List (Nat × Nat) → Nat → Rat
  | (v0, r0) :: (v1, r1) :: rest, v =>
    if v ≤ v0 then r0
    else if v ≤ v1 then (r0 : Rat) + ((r1 - r0 : Nat) : Rat) * ((v - v0 : Nat) : Rat) / ((v1 - v0 : Nat) : Rat)
    else interpolate ((v1, r1) :: rest) v
  | [(_, r0)], _ => r0
  | [], _ => 0

/-- `r_min` at up to 85 °C, in M beats/s. -/
def rMin (v : Nat) : Rat := interpolate rateRows v

/-- A bay as the arbiter sees it: busy now, busy throughout the previous interval with its power and mean voltage, protected, its
cap. -/
structure ArbBay where
  busy : Bool := false
  steady : Bool := false
  mw : Nat := 0
  mv : Nat := 0
  prot : Bool := false
  cap : Nat := 550
deriving DecidableEq, Repr, Inhabited

/-- Predicted power of a busy bay at a voltage (R633). -/
def predict (b : ArbBay) (v : Nat) : Rat :=
  if b.steady ∧ b.mv ≠ 0 then
    (b.mw : Rat) * ((v : Rat) / b.mv) * ((v : Rat) / b.mv) * (rMin v / rMin b.mv)
  else 24000 * ((v : Rat) / 700) * ((v : Rat) / 700) * (rMin v / 1500)

/-! ## Grant (R634) -/

/-- Predicted power of all busy bays at a protected and a shared level. -/
def grantCost (bays : List ArbBay) (vp vs : Nat) : Rat :=
  ((bays.filter (·.busy)).map (fun b => predict b (min (if b.prot then vp else vs) b.cap))).sum

/-- Raises a level in steps of 5 mV while it stays within a limit and the cost within the budget. -/
def raiseLevel (limit : Nat) (ok : Nat → Bool) : Nat → Nat → Nat
  | 0, v => v
  | f + 1, v => if v + 5 ≤ limit ∧ ok (v + 5) then raiseLevel limit ok f (v + 5) else v

/-- `vp` and `vs` of R634. -/
def grantLevels (left : Rat) (bays : List ArbBay) (protVmin : Nat) : Nat × Nat :=
  let vmax := ((bays.filter (·.busy)).map (·.cap)).foldl max 550
  let fits := fun (p q : Nat) => decide (grantCost bays p q ≤ left)
  let vp := raiseLevel (min protVmin vmax) (fun v => fits v 550) 50 550
  let vs := raiseLevel vp (fun v => fits vp v) 50 550
  if vs = vp then
    let v := raiseLevel vmax (fun v => fits v v) 50 vp
    (v, v)
  else (vp, vs)

/-- A bay's grant: 550 mV where it is idle. -/
def grantOf (lv : Nat × Nat) (b : ArbBay) : Nat := if !b.busy then 550 else min (if b.prot then lv.1 else lv.2) b.cap

/-! ## Intervals (R632, R633, R635, R636) -/

/-- Whether a bay has a started op or a non-empty queue. -/
def bayBusy (s : State) (b : Nat) : Bool := s.ops.any (fun o => o.queue == b && o.phase != .done)

/-- A bay's thermal cap in this interval, from that of the interval before; `none` is a cap that stands at `BAY_VMAX_MV` (R636). -/
def thermalCap (s : State) (b : Nat) (old : Option Nat) : Option Nat :=
  let vmax := s.obj kBayVmaxMv
  let t0 := kvGet 0 s.temps (2 * b)
  let t1 := kvGet 0 s.temps (2 * b + 1)
  let warn : Int := ((16 * s.obj kThermWarnC : Nat) : Int)
  if warn ≤ t0 ∨ warn ≤ t1 then some (max 550 (old.getD vmax - 10))
  else if t0 ≤ warn - 48 ∧ t1 ≤ warn - 48 then (old.map (· + 5)).filter (fun c => c < vmax)
  else old

/-- A rail moves by at most 25 mV toward its grant (R635). -/
def moveRail (now goal : Nat) : Nat := if now ≤ goal then min goal (now + 25) else max goal (now - 25)

/-- Peak credit at its cap, in units of 10 nJ (R632). -/
def creditCap (s : State) : Nat := (s.obj kPwrPeakW - s.obj kPwrLimitW) * 1000000

/-- The credit after an interval with input power `p` under the limit `l`. -/
def creditAfter (s : State) (l p : Nat) : Nat :=
  min (creditCap s) (if l < p then s.pwr.credit - (p - l) else s.pwr.credit + (l - p))

/-- L and B of an interval (R632). -/
def budget (s : State) (vin credit : Nat) : Nat × Nat :=
  let l := min (s.obj kPwrLimitW * 1000) (vin * 625 / 10)
  (l, min (min (s.obj kPwrPeakW * 1000) (vin * 6875 / 100)) (l + credit))

/-- The input objects: means of the latest 100 µs, and the highest mean power (R607). -/
def inputObjects (s : State) (m : PowerSample) : State :=
  let w := ((m.vinMv, m.iinMa, m.inMw) :: s.pwr.window).take 10
  let mean := fun (f : Nat × Nat × Nat → Nat) => (w.map f).sum / w.length
  let pw := mean (·.2.2) / 1000
  let s1 : State := { s with pwr := { s.pwr with window := w } }
  let s2 := ((s1.setObj kVinMv (mean (·.1) % 2 ^ 32)).setObj kIinMa (mean (·.2.1) % 2 ^ 32)).setObj kPinW (pw % 2 ^ 16)
  s2.setObj kPinPeakW (max (s2.obj kPinPeakW) (pw % 2 ^ 16))

/-- What the arbiter sees of bay `b`, with its new thermal cap. -/
def arbBay (s : State) (m : PowerSample) (b : Nat) (cap : Option Nat) : ArbBay :=
  let x := m.bays.getD b (0, 0, 0)
  { busy := bayBusy s b, steady := bayBusy s b && (bayPwr s b).busy, mw := x.1, mv := x.2.1
    prot := bit (s.obj kProtBays) b, cap := min (s.obj kBayVmaxMv) (cap.getD (s.obj kBayVmaxMv)) }

/-- The next record of a bay: its rail moves, and its ceiling is its predicted current at its grant times 1.10 (R637). -/
def nextBay (s : State) (m : PowerSample) (b : Nat) (cap : Option Nat) (grant : Nat) (a : ArbBay) : BayPwr :=
  let x := m.bays.getD b (0, 0, 0)
  { bayPwr s b with
    set := moveRail (bayPwr s b).set grant, grant := grant, cap := cap, mw := x.1, mv := x.2.1 % 2 ^ 16, ma := x.2.2 % 2 ^ 32
    busy := a.busy, ceiling := if a.busy then (predict a grant * 1100 / (grant : Rat)).floor.toNat else 0 }

/-- ARBITER_INTERVAL (R632 to R636, R639): the measurements of the previous interval, budget, grants and rails. -/
def arbitrate (s : State) (m : PowerSample) : State :=
  let s1 := inputObjects s m
  let credit := match s1.pwr.limit with
    | some l => creditAfter s1 l m.inMw
    | none => creditCap s1
  let lb := budget s1 m.vinMv credit
  let bs := List.range Config.bays
  let caps := bs.map (fun b => thermalCap s1 b (bayPwr s1 b).cap)
  let seen := bs.map (fun b => arbBay s1 m b (caps.getD b none))
  let bayMw := (bs.map (fun b => (m.bays.getD b (0, 0, 0)).1)).sum
  let idleMw := ((seen.filter (fun a => !a.busy)).map (·.mw)).sum
  let left : Rat := (lb.2 : Rat) - ((m.inMw : Rat) - bayMw) - idleMw
  let fixed := s1.obj kArbMode == 1
  let lv := grantLevels left seen (s1.obj kProtVminMv)
  let grant := fun (a : ArbBay) => if fixed then (if a.busy then a.cap else 550) else grantOf lv a
  let next := bs.foldl (fun l b =>
    let a := seen.getD b {}
    kvSet {} l b (nextBay s1 m b (caps.getD b none) (grant a) a)) s1.pwr.bays
  let s2 : State := { s1 with pwr := { s1.pwr with credit := credit, limit := some lb.1, bays := next } }
  let s3 := if fixed then s2 else s2.setObj kGrantSharedMv lv.2
  (s3.bump kPwrPeakIntervals (b2n (decide (s3.obj kPwrLimitW * 1000 < lb.2)))).bump kThermCapCount (b2n (seen.any (fun a => a.cap < s3.obj kBayVmaxMv)))

/-- ARBITER_INTERVAL (R632): the arbiter runs from stage 2 on (R644). -/
def execArbiterInterval (m : PowerSample) (s : State) : Host.Outcome State Fault Refusal :=
  live s (fun s => if mgmtUp s then arbitrate s m else s)

/-- BAY_CURRENT_LIMIT (R637): a busy bay's current, averaged over 200 ns; each crossing of its ceiling counts. -/
def execBayCurrentLimit (bay current : Nat) (s : State) : Host.Outcome State Fault Refusal :=
  if Config.bays ≤ bay then .next s
  else live s (fun s =>
    let x := bayPwr s bay
    let put := fun (y : BayPwr) => ({ s with pwr := { s.pwr with bays := kvSet {} s.pwr.bays bay y } } : State)
    if !x.busy then s
    else if current ≤ x.ceiling then put { x with above := false }
    else if x.above then s
    else (put { x with above := true }).bump (objKey bay kBayLimitCount) 1)

/-! ## Energy (R640, R641) -/

/-- Shares of an amount, in fJ, in proportion to weights by context; what the division leaves, or all where no weight is, is idle
energy. -/
def shares (amount : Nat) (ws : List (Nat × Nat)) : List (Nat × Nat) × Nat :=
  let total := (ws.map (·.2)).sum
  if total = 0 then ([], amount)
  else
    let l := ws.map (fun w => (w.1, amount * w.2 / total))
    (l, amount - (l.map (·.2)).sum)

/-- fJ of one mJ, and of one nJ. -/
def fJperMJ : Nat := 10 ^ 12
def fJperNJ : Nat := 10 ^ 6

/-- Adds to a context's counter, carrying the fraction of a mJ. -/
def chargeCtx (s : State) (p : Nat × Nat) : State :=
  let t := kvGet 0 s.energy.ctx p.1 + p.2
  ({ s with energy := { s.energy with ctx := kvSet 0 s.energy.ctx p.1 (t % fJperMJ) } } : State).bump (objKey p.1 kAcctEnergyMj) (t / fJperMJ)

def chargeIdle (s : State) (n : Nat) : State :=
  let t := s.energy.idle + n
  ({ s with energy := { s.energy with idle := t % fJperMJ } } : State).bump kEnergyIdleMj (t / fJperMJ)

/-- The objects of one bay: its energy, and the array beats of the latest busy µs; `BAY_BEATS` counts as the ops run. -/
def countBay (s : State) (b : Nat) (e : Nat) (uses : List (Nat × Nat × Nat)) : State :=
  let beats := (uses.map (·.2.1)).sum
  let t := kvGet 0 s.energy.bay b + e * fJperNJ
  let s1 : State := { s with energy := { s.energy with bay := kvSet 0 s.energy.bay b (t % fJperMJ) } }
  let s2 := s1.bump (objKey b kBayEnergyMj) (t / fJperMJ)
  if beats = 0 then s2 else s2.setObj (objKey b kBayBeatsPerUs) (beats % 2 ^ 16)

/-- Steps 1 and 2 of R641: what each context and idle time are charged for bays and other rails. -/
def directShares (m : EnergySample) : List (Nat × Nat) × Nat :=
  let bays := m.bays.map (fun b => shares (b.1 * fJperNJ) (b.2.map (fun u => (u.1, 4 * u.2.1 + u.2.2))))
  let rails := shares (m.rails * fJperNJ) m.bytes
  (bays.flatMap (·.1) ++ rails.1, (bays.map (·.2)).sum + rails.2)

/-- MEASUREMENT_SAMPLE (R640, R641, R643). -/
def chargeSample (s : State) (m : EnergySample) : State :=
  let d := directShares m
  let used := (m.bays.map (·.1)).sum + m.rails
  let rest := (m.input - used) * fJperNJ
  let all := (d.1.map (·.2)).sum + d.2
  let extra := if all = 0 then [] else d.1.map (fun p => (p.1, rest * p.2 / all))
  let s1 := (d.1 ++ extra).foldl chargeCtx s
  let s2 := chargeIdle s1 (d.2 + (rest - (extra.map (·.2)).sum))
  ((List.range m.bays.length).zip m.bays).foldl (fun s p => countBay s p.1 p.2.1 p.2.2) s2

/-- MEASUREMENT_SAMPLE (R641). -/
def execMeasurementSample (m : EnergySample) (s : State) : Host.Outcome State Fault Refusal :=
  live s (fun s => if mgmtUp s then chargeSample s m else s)

end Sys2Proof.Machine
end

