-- ==== Sys2Proof/Machine/Qop.lean ====
section
/-! DEFINITION. QOP frames, sessions and transactions (R564 to R577), attestation (R579) and the reading of the log (R585 to
R587). -/

namespace Sys2Proof.Machine

/-! ## Frames (R564 to R566) -/

def qVer (h : Nat) : Nat := bits h 255 248
def qCmd (h : Nat) : Nat := bits h 247 240
def qMacEn (h : Nat) : Bool := bit h 233
def qSession (h : Nat) : Nat := bits h 231 216
def qBodyLen (h : Nat) : Nat := bits h 199 184
def qReqId (h : Nat) : Nat := bits h 183 152
def qTxn (h : Nat) : Nat := bits h 151 120
def qCounter (h : Nat) : Nat := bits h 119 56

/-- Bytes that a frame of a transport may have. -/
def frameLimit (net : Bool) : Nat := if net then 1452 else 4096

def frameHdr (f : Frame) : Nat := leNat (f.bytes.take 32)

def frameBody (f : Frame) : List Nat := (f.bytes.drop 32).take (qBodyLen (frameHdr f))

/-- The faults for which a frame is dropped without a response (R564). -/
def malformed (f : Frame) : Bool :=
  let h := frameHdr f
  decide (f.bytes.length < 32) || decide (frameLimit f.net < f.bytes.length) || qVer h != 1 || bits h 239 234 != 0 || bits h 55 0 != 0 ||
  f.bytes.length != 32 + qBodyLen h + 16 * b2n (qMacEn h) ||
  ((qCmd h == 1 || qCmd h == 2) && (frameBody f).getD 3 0 != 0)

/-- The request that a frame spells. -/
def reqOf (f : Frame) : Req :=
  let h := frameHdr f
  { net := f.net, cmd := qCmd h, sess := qSession h, txn := qTxn h, reqId := qReqId h, body := frameBody f }

/-! ## Responses -/

/-- The mailbox request ends with a response, which may be empty (R482). -/
def mailboxAnswer (s : State) (bs : List Nat) : State :=
  let s1 : State := { s with mbx := { s.mbx with resp := bs ++ s.mbx.resp.drop bs.length, busy := false, done := true, respLen := bs.length } }
  let s2 := s1.send .mailboxResponse 0 bs
  if s.obj kMbxVector = 0xFFFF then s2 else sendInt s2 0 (s.obj kMbxVector)

def setSession (s : State) (x : Session) : State :=
  { s with mgmt := { s.mgmt with sessions := s.mgmt.sessions.map (fun y => if y.id = x.id then x else y) } }

/-- The MAC of a frame's header and body under a key (R575). -/
def macOf (key bs : List Nat) : List Nat := (hmac256 key bs).take 16

/-- The bytes of a response, with its MAC where it carries one. -/
def responseBytes (r : Req) (status : Nat) (body : List Nat) (x : Option Session) : List Nat :=
  let ctr := match x with | some y => y.outCtr | none => 0
  let h := 2 ^ 248 + r.cmd % 256 * 2 ^ 240 + b2n x.isSome * 2 ^ 233 + 2 ^ 232 + r.sess * 2 ^ 216 + status * 2 ^ 200 +
    body.length * 2 ^ 184 + r.reqId * 2 ^ 152 + r.txn * 2 ^ 120 + ctr % 2 ^ 64 * 2 ^ 56
  let bs := leBytes 32 h ++ body
  match x with
  | some y => bs ++ macOf (y.keys.drop 32) bs
  | none => bs

/-- Sends a response on the request's transport. In an OPEN session it carries a MAC and the device's next counter. -/
def respond (s : State) (r : Req) (status : Nat) (body : List Nat) : State :=
  let x := if r.mac then (session? s r.sess).map (fun y => { y with outCtr := y.outCtr + 1 }) else none
  let s1 := match x with | some y => setSession s y | none => s
  let bs := responseBytes r status body x
  if r.net then s1.send .netResponse r.sess bs else mailboxAnswer s1 bs

/-- Bytes of a value that a response frame holds after the header and, in a session, the MAC (R566). -/
def respRoom (r : Req) : Nat := frameLimit r.net - 32 - 16 * b2n r.mac

/-! ## Serving a request (R482, R567, R575) -/

/-- What is accepted without an open session: on the network HELLO, KEYX and the exchange's objects; through the mailbox
everything, with critical writes refused object by object. -/
def freeRequest (r : Req) : Bool :=
  let index := leNat (r.body.take 2)
  let sub := r.body.getD 2 0
  r.cmd == 6 || r.cmd == 7 || (r.cmd == 1 && (index == 0x1000 || (index == 0x1102 && sub == 1))) ||
  (r.cmd == 2 && index == 0x1102 && sub == 2)

/-- Whether the mailbox holds a frame as its request in service. -/
def isMailboxReq (s : State) (f : Frame) : Bool := f.net || (s.mbx.busy && s.mbx.cur == f.bytes)

/-- A request refused for its MAC or counter: counted, answered without a MAC. -/
def authFail (s : State) (r : Req) (code : Nat) : State := respond (s.bump kQopAuthFail 1) r code []

/-- Whether the boot ROM alone answers, and then only mailbox READs of 0x9000 with `SESSION` 0 (R651). -/
def romServes (s : State) (r : Req) : Bool :=
  romOnly s && !r.net && r.sess == 0 && r.cmd == 1 && leNat (r.body.take 2) == 0x9000

/-- Notes that a frame of a session names a transaction (R571). -/
def touchTxn (s : State) (r : Req) : State :=
  { s with mgmt := { s.mgmt with txns := s.mgmt.txns.map (fun t => if t.id = r.txn ∧ t.sess = r.sess then { t with since := s.time } else t) } }

/-- The frame check of a session, then `k` on the request. -/
def inSession (s : State) (f : Frame) (r : Req) (k : State → Req → State) : State :=
  let h := frameHdr f
  if r.sess = 0 then (if r.net && !freeRequest r then respond s r 0x0801 [] else k s r)
  else match session? s r.sess with
    | none => respond s r 0x0801 []
    | some x =>
      if !x.opened then
        (if freeRequest r then k (setSession s x) r else respond s r 0x0801 [])
      else if !qMacEn h ∨ macOf (x.keys.take 32) (f.bytes.take (32 + r.body.length)) ≠ f.bytes.drop (32 + r.body.length) then
        authFail s r 0x0802
      else if qCounter h ≤ x.inCtr then authFail s r 0x0803
      else k (setSession s { x with inCtr := qCounter h, since := s.time }) { r with mac := true }

/-- Serves a QOP request of a command: requests are served one at a time, so none while a COMMIT waits for its safe point. -/
def serveQop (p : Nat → Bool) (f : Frame) (s : State) (k : State → Req → State) : Host.Outcome State Fault Refusal :=
  live s (fun s =>
    let r := reqOf f
    if !isMailboxReq s f ∨ !(mgmtUp s || romServes s r) ∨ s.mgmt.txns.any (fun t => t.commit.isSome) then s
    else if malformed f then
      (let t := s.bump kQopMalformed 1
       if f.net then t else mailboxAnswer t [])
    else if !p r.cmd then s
    else inSession s f r (fun s r => k (touchTxn s r) r))

/-- An ignored request (R572): answered with 0x0000, counted, without effect. -/
def ignoreReq (s : State) (r : Req) : State := respond (ignoreMgmt s) r 0 []

/-- A body of a length that the command does not have is of the wrong length. -/
def needBody (ok : Bool) (s : State) (r : Req) (k : State → Req → State) : State := if ok then k s r else respond s r 0x0807 []

/-! ## READ and WRITE (R566, R568, R569) -/

def refIndex (r : Req) : Nat := leNat (r.body.take 2)
def refSub (r : Req) : Nat := r.body.getD 2 0
def refOffset (r : Req) : Nat := leNat ((r.body.drop 4).take 4)

/-- READ (R566). -/
def execQopRead (frame : Frame) (s : State) : Host.Outcome State Fault Refusal :=
  serveQop (· == 1) frame s (fun s r => needBody (r.body.length == 12) s r (fun s r =>
    match readObj s r.sess (refIndex r) (refSub r) (refOffset r) (leNat (r.body.drop 8)) (respRoom r) with
    | .ok bs => respond s r 0 bs
    | .error c => respond s r c []))

/-- The open transaction that a request names. -/
def txnOf (s : State) (r : Req) : Option Txn := s.mgmt.txns.find? (fun t => t.id == r.txn && t.sess == r.sess)

def wasExpired (s : State) (r : Req) : Bool := s.mgmt.expired.contains (r.sess, r.txn)

def putTxn (s : State) (t : Txn) : State :=
  { s with mgmt := { s.mgmt with txns := s.mgmt.txns.map (fun x => if x.id = t.id then t else x) } }

def dropTxn (s : State) (id : Nat) : State := { s with mgmt := { s.mgmt with txns := s.mgmt.txns.filter (fun t => t.id ≠ id) } }

/-- The state that staged writes would leave in the objects they set, so that a selector directs the writes staged after it
and sums are checked as they will stand (log 51). -/
def overlay (s : State) (ws : List Staged) : State :=
  ws.foldl (fun s w =>
    match objRow w.index w.sub with
    | some r => if r.ty = 3 ∨ r.acc = 2 ∨ r.counter then s else s.setObj (heldKey s (objNo w.index w.sub)) (leNat w.bytes)
    | none => s) s

/-- A WRITE within a transaction: checked, then staged. -/
def stageWrite (s : State) (r : Req) (t : Txn) (w : Staged) : State :=
  let code := checkWrite (overlay s t.writes) r.sess false w
  if code ≠ 0 then respond s r code []
  else if counterIgnored w then ignoreReq s r
  else if 256 ≤ t.writes.length ∨ 16384 < ((t.writes.map (·.bytes.length)).sum + w.bytes.length) then respond s r 0x0809 []
  else respond (putTxn s { t with writes := t.writes ++ [w] }) r 0 []

/-- WRITE (R566 to R569, R571, R572). One outside a transaction waits for the safe point. -/
def execQopWrite (frame : Frame) (s : State) : Host.Outcome State Fault Refusal :=
  if (reqOf frame).txn = 0 ∧ !safePoint s then .next s
  else serveQop (· == 2) frame s (fun s r => needBody (decide (8 ≤ r.body.length)) s r (fun s r =>
    let w : Staged := { index := refIndex r, sub := refSub r, offset := refOffset r, bytes := r.body.drop 8 }
    if r.txn = 0 then
      let x := writeAlone s r.sess [w]
      respond x.1 r x.2 []
    else match txnOf s r with
      | some t => stageWrite s r t w
      | none => if wasExpired s r then respond s r 0x080A [] else ignoreReq s r))

/-! ## Transactions (R568 to R572) -/

/-- BEGIN (R568): one open transaction for each session, and one for the mailbox. -/
def execQopBegin (frame : Frame) (s : State) : Host.Outcome State Fault Refusal :=
  serveQop (· == 3) frame s (fun s r => needBody r.body.isEmpty s r (fun s r =>
    if s.mgmt.txns.any (fun t => t.sess == r.sess) then ignoreReq s r
    else
      let n := if s.mgmt.lastTxn + 1 < 2 ^ 32 then s.mgmt.lastTxn + 1 else 1
      let t : Txn := { id := n, sess := r.sess, since := s.time }
      respond { s with mgmt := { s.mgmt with lastTxn := n, txns := s.mgmt.txns ++ [t] } } { r with txn := n } 0 []))

/-- COMMIT (R570): it waits for its safe point. -/
def execQopCommit (frame : Frame) (s : State) : Host.Outcome State Fault Refusal :=
  serveQop (· == 4) frame s (fun s r => needBody r.body.isEmpty s r (fun s r =>
    match txnOf s r with
    | some t => putTxn s { t with commit := some r }
    | none => if wasExpired s r then respond s r 0x080A [] else ignoreReq s r))

/-- COMMIT_SAFE_POINT (R570): every staged write is applied at one moment, or none is and the transaction rolls back. -/
def execCommitSafePoint (txn : Nat) (s : State) : Host.Outcome State Fault Refusal :=
  live s (fun s =>
    match s.mgmt.txns.find? (fun t => t.id == txn) with
    | none => s
    | some t =>
      match t.commit with
      | none => s
      | some r =>
        if !safePoint s then s
        else
          let x := applyTxn s t.sess t.writes
          let s1 := dropTxn x.1 t.id
          if x.2.1 = 0 then respond (s1.bump kTxnCommits 1) r 0 []
          else respond (s1.bump kTxnRollbacks 1) r x.2.1
            (match x.2.2 with | some w => leBytes 2 w.index ++ [w.sub] | none => []))

/-- ROLLBACK (R571). -/
def execQopRollback (frame : Frame) (s : State) : Host.Outcome State Fault Refusal :=
  serveQop (· == 5) frame s (fun s r => needBody r.body.isEmpty s r (fun s r =>
    match txnOf s r with
    | some t => respond ((dropTxn s t.id).bump kTxnRollbacks 1) r 0 []
    | none => if wasExpired s r then respond s r 0x080A [] else ignoreReq s r))

/-- TXN_EXPIRY (R571): 5 s without a frame that names it; its number is remembered among the last 16 of its session. -/
def execTxnExpiry (txn : Nat) (s : State) : Host.Outcome State Fault Refusal :=
  live s (fun s =>
    match s.mgmt.txns.find? (fun t => t.id == txn) with
    | none => s
    | some t =>
      if t.commit.isSome ∨ !s.expired t.since 5000000000 then s
      else
        let s1 := (dropTxn s t.id).bump kTxnExpired 1
        let mine := s1.mgmt.expired.filter (fun e => e.1 == t.sess)
        let rest := s1.mgmt.expired.filter (fun e => e.1 != t.sess)
        { s1 with mgmt := { s1.mgmt with expired := rest ++ (mine ++ [(t.sess, t.id)]).drop ((mine.length + 1) - 16) } })

/-! ## Sessions (R573 to R577) -/

/-- A session ends: its transaction rolls back, and its remembered transactions are forgotten. -/
def endSession (s : State) (id : Nat) : State :=
  let n := (s.mgmt.txns.filter (fun t => t.sess == id)).length
  let m : Mgmt := { s.mgmt with
    sessions := s.mgmt.sessions.filter (fun x => x.id ≠ id), txns := s.mgmt.txns.filter (fun t => t.sess ≠ id)
    expired := s.mgmt.expired.filter (fun e => e.1 ≠ id) }
  ({ s with mgmt := m }).bump kTxnRollbacks n

/-- The next session number: ascending modulo 65,536, without 0 and those in use (R577). -/
def nextSession (s : State) : Nat :=
  (((List.range 10).map (fun i => (s.mgmt.lastSess + 1 + i) % 65536)).find?
    (fun n => n != 0 && !s.mgmt.sessions.any (fun x => x.id == n))).getD 1

/-- The 64 B that both sides derive (R574): the salt is T, the info is the string "QOP session". -/
def sessionKeys (transcript exchange : List Nat) : List Nat :=
  hkdf384 transcript (fit 80 ((Config.sharedSecrets exchange).map (· % 256)))
    [0x51, 0x4F, 0x50, 0x20, 0x73, 0x65, 0x73, 0x73, 0x69, 0x6F, 0x6E]

/-- HELLO (R573 steps 1 to 3): a PENDING session with the device's proof; at most eight sessions. -/
def execQopHello (frame : Frame) (s : State) : Host.Outcome State Fault Refusal :=
  serveQop (· == 6) frame s (fun s r => needBody (r.body.length == 1314) s r (fun s r =>
    if 8 ≤ s.mgmt.sessions.length then respond s r 0x080D []
    else
      let n := nextSession s
      let answer := fit 1217 ((Config.helloAnswer s.dp.freeCtr r.body).map (· % 256))
      let t := sha384 (r.body ++ answer)
      let x : Session := { id := n, operator := r.body.getD 1313 0, since := s.time, transcript := t
                           proof := fit 3405 ((Config.deviceProof t).map (· % 256)), exchange := r.body ++ answer }
      let s1 : State := { s with dp := { s.dp with freeCtr := s.dp.freeCtr + 1 }
                                 mgmt := { s.mgmt with lastSess := n, sessions := s.mgmt.sessions ++ [x] } }
      respond s1 { r with sess := n, mac := false } 0 answer))

/-- KEYX (R573 step 6): both signatures of the client's proof verify, and the session is OPEN; otherwise it ends. -/
def execQopKeyx (frame : Frame) (s : State) : Host.Outcome State Fault Refusal :=
  serveQop (· == 7) frame s (fun s r => needBody r.body.isEmpty s r (fun s r =>
    match session? s r.sess with
    | none => respond s r 0x0801 []
    | some x =>
      if x.opened then respond s r 0x0804 []
      else if s.mgmt.operators.any (fun o => o.1 == x.operator) && Config.proofOk x.operator x.transcript x.client then
        let keys := sessionKeys x.transcript x.exchange
        respond (setSession s { x with opened := true, since := s.time, keys := keys, outCtr := 0 }) { r with mac := true } 0 []
      else endSession (respond s r 0x0804 []) x.id))

/-- CLOSE (R571, R577): the session ends; through the mailbox without a session, its transaction rolls back. -/
def execQopClose (frame : Frame) (s : State) : Host.Outcome State Fault Refusal :=
  serveQop (· == 8) frame s (fun s r => needBody r.body.isEmpty s r (fun s r => endSession (respond s r 0 []) r.sess))

/-- SESSION_PENDING_EXPIRY (R573): PENDING for more than 10 s. -/
def execSessionPendingExpiry (sess : Nat) (s : State) : Host.Outcome State Fault Refusal :=
  live s (fun s => match session? s sess with
    | some x => if !x.opened ∧ s.expired x.since 10000000000 then endSession s sess else s
    | none => s)

/-- SESSION_IDLE_EXPIRY (R577). -/
def execSessionIdleExpiry (sess : Nat) (s : State) : Host.Outcome State Fault Refusal :=
  live s (fun s => match session? s sess with
    | some x => if x.opened ∧ s.expired x.since (s.obj kSessionIdleS * 1000000000) then endSession s sess else s
    | none => s)

/-! ## The event log in management flash (R585 to R587) -/

/-- Bits [1023:256] of an entry as bytes 32 to 127. -/
def entryTail (e : LogEntry) : List Nat :=
  leBytes 96 (e.ev.data + e.ev.ctx % 2 ^ 16 * 2 ^ 584 + e.ev.sev % 2 ^ 8 * 2 ^ 600 + e.ev.code % 2 ^ 16 * 2 ^ 608 +
    e.ev.source % 2 ^ 16 * 2 ^ 624 + e.time % 2 ^ 64 * 2 ^ 640 + e.seq % 2 ^ 64 * 2 ^ 704)

/-- What the next entry of management flash chains from. -/
def chainFrom (l : Log) : List Nat := if l.flash.isEmpty then sha256 (leBytes 8 Config.deviceId.toNat) else l.headChain

/-- Entries that management flash holds (R586). -/
def logKept : Nat := 65536

/-- One waiting entry reaches management flash; when the log wraps, the oldest entry is overwritten. -/
def flushOne (l : Log) : Log :=
  match l.sram with
  | [] => l
  | e :: rest =>
    let c := sha256 (chainFrom l ++ entryTail e)
    let all := l.flash ++ [{ e with chain := c }]
    let over_ := all.length - logKept
    { l with sram := rest, flash := all.drop over_, headChain := c
             anchor := if over_ = 0 then (if l.flash.isEmpty then chainFrom l else l.anchor) else ((all[over_ - 1]?).map (·.chain)).getD l.anchor }

def flushMany : Nat → Log → Log
  | 0, l => l
  | n + 1, l => flushMany n (flushOne l)

/-- The entry that tells how many events were dropped, once there is room. -/
def noteDropped (d : Dp) : Dp :=
  if d.log.dropFrom = 0 ∨ 1024 ≤ d.log.sram.length then d
  else logEvent { d with log := { d.log with dropFrom := 0 } }
    { source := 0xA000, code := 0x0F01, sev := 1, data := dataAt 576 (objGet d kLogDropped) }

/-- LOG_FLUSH (R586): waiting entries reach management flash in `SEQ` order. -/
def execLogFlush (count : Nat) (s : State) : Host.Outcome State Fault Refusal :=
  live s (fun s =>
    let l := flushMany (min count s.dp.log.sram.length) s.dp.log
    s.setDp (noteDropped { s.dp with log := l }))

/-- Entries that one LOG_READ returns (R587). -/
def logPage (net : Bool) : Nat := if net then 10 else 31

/-- LOG_READ (R587). -/
def execLogRead (frame : Frame) (s : State) : Host.Outcome State Fault Refusal :=
  serveQop (· == 9) frame s (fun s r => needBody (r.body.length == 10) s r (fun s r =>
    let n := min (leNat (r.body.drop 8)) (logPage r.net)
    let es := (s.dp.log.flash.filter (fun e => decide (leNat (r.body.take 8) ≤ e.seq))).take n
    respond s r 0 (es.flatMap (fun e => fit 32 e.chain ++ entryTail e))))

/-! ## Attestation and group messages (R566, R579) -/

/-- The attestation record (R579). -/
def attestRecord (s : State) (nonce : List Nat) : List Nat :=
  let run := s.fw.slot s.fw.running
  fit 32 nonce ++ leBytes 8 Config.deviceId.toNat ++ leBytes 8 s.time ++ leBytes 8 (rbCounter s) ++ leBytes 4 run.version ++
    [s.fw.running, 0, 0, 0] ++ sha384 (run.bytes 0 256) ++ sha384 (Config.mediaFw run.whole) ++ sha384 s.mgmt.cfgBytes ++
    leBytes 8 (logHead s) ++ fit 32 s.dp.log.headChain ++ leBytes 8 0

/-- ATTEST (R579): the record and its signatures can be read until the next. -/
def execAttest (frame : Frame) (s : State) : Host.Outcome State Fault Refusal :=
  serveQop (· == 10) frame s (fun s r => needBody (r.body.length == 32) s r (fun s r =>
    let rec_ := attestRecord s r.body
    let s1 := s.setObj kAttestRecord (leNat rec_)
    respond (s1.setObj kAttestSig (leNat (fit 3405 ((Config.attestSigs rec_).map (· % 256))))) r 0 []))

/-- MGR (R566): a group-management message is taken and answered; what it says comes as a command of its own (log 18). -/
def execMgr (frame : Frame) (s : State) : Host.Outcome State Fault Refusal :=
  serveQop (· == 16) frame s (fun s r => respond s r 0 [])

/-- UNKNOWN_QCMD (R566): any other `QCMD` is answered with 0x0806. -/
def execUnknownQcmd (frame : Frame) (s : State) : Host.Outcome State Fault Refusal :=
  serveQop (fun c => !(decide (1 ≤ c) && decide (c ≤ 10)) && c != 16) frame s (fun s r => respond s r 0x0806 [])

end Sys2Proof.Machine
end

