-- ==== Sys2Proof/Machine/Dispatch.lean ====
section
/-! DEFINITION. One arm for each command: its meaning. -/

namespace Sys2Proof.Machine

/-- What a command does to the state (everything but the queue's front, which `step` has taken). -/
def exec (i : Instr) (s : State) : Host.Outcome State Fault Refusal :=
  match i with
  | .mma op => Sys2Proof.Machine.execMma op s
  | .mmg op => Sys2Proof.Machine.execMmg op s
  | .mmgIndexForm op => Sys2Proof.Machine.execMmgIndexForm op s
  | .att op => Sys2Proof.Machine.execAtt op s
  | .atgStatistics op => Sys2Proof.Machine.execAtgStatistics op s
  | .atgGradient op => Sys2Proof.Machine.execAtgGradient op s
  | .cnv op => Sys2Proof.Machine.execCnv op s
  | .cnt op => Sys2Proof.Machine.execCnt op s
  | .vec op v => Sys2Proof.Machine.execVec op v s
  | .eval op => Sys2Proof.Machine.execEval op s
  | .mul op => Sys2Proof.Machine.execMul op s
  | .sincos op => Sys2Proof.Machine.execSincos op s
  | .rope op => Sys2Proof.Machine.execRope op s
  | .tblLoad op => Sys2Proof.Machine.execTblLoad op s
  | .rms op => Sys2Proof.Machine.execRms op s
  | .rmsBackward op => Sys2Proof.Machine.execRmsBackward op s
  | .smx op => Sys2Proof.Machine.execSmx op s
  | .upd op => Sys2Proof.Machine.execUpd op s
  | .psh op => Sys2Proof.Machine.execPsh op s
  | .pop op => Sys2Proof.Machine.execPop op s
  | .mrkOpen op => Sys2Proof.Machine.execMrkOpen op s
  | .mrkClose op => Sys2Proof.Machine.execMrkClose op s
  | .mrkDrop op => Sys2Proof.Machine.execMrkDrop op s
  | .copy op => Sys2Proof.Machine.execCopy op s
  | .fill op => Sys2Proof.Machine.execFill op s
  | .slotOut op => Sys2Proof.Machine.execSlotOut op s
  | .pftRun op => Sys2Proof.Machine.execPftRun op s
  | .pftCancel op => Sys2Proof.Machine.execPftCancel op s
  | .fnc op => Sys2Proof.Machine.execFnc op s
  | .bcs op => Sys2Proof.Machine.execBcs op s
  | .rdo op => Sys2Proof.Machine.execRdo op s
  | .rdoAll op => Sys2Proof.Machine.execRdoAll op s
  | .mdc op => Sys2Proof.Machine.execMdc op s
  | .men op => Sys2Proof.Machine.execMen op s
  | .ing op => Sys2Proof.Machine.execIng op s
  | .ingLiveAligned op => Sys2Proof.Machine.execIngLiveAligned op s
  | .ingLiveStamped op => Sys2Proof.Machine.execIngLiveStamped op s
  | .dispatch ctx => Sys2Proof.Machine.execDispatch ctx s
  | .opStart op => Sys2Proof.Machine.execOpStart op s
  | .opComplete op => Sys2Proof.Machine.execOpComplete op s
  | .cqFullWaitExpiry ctx => Sys2Proof.Machine.execCqFullWaitExpiry ctx s
  | .opWatchdogExpiry op => Sys2Proof.Machine.execOpWatchdogExpiry op s
  | .fncTimeout op => Sys2Proof.Machine.execFncTimeout op s
  | .sqDb ctx index => Sys2Proof.Machine.execSqDb ctx index s
  | .cqDb ctx index => Sys2Proof.Machine.execCqDb ctx index s
  | .mbxDb len => Sys2Proof.Machine.execMbxDb len s
  | .controlWindowWrite offset size value => Sys2Proof.Machine.execControlWindowWrite offset size value s
  | .zlFlitReceive port flit => Sys2Proof.Machine.execZlFlitReceive port flit s
  | .zlReceiverDetect port lanes => Sys2Proof.Machine.execZlReceiverDetect port lanes s
  | .zlLinkStateTimeout port => Sys2Proof.Machine.execZlLinkStateTimeout port s
  | .hostReadCompletion port ttag err => Sys2Proof.Machine.execHostReadCompletion port ttag err s
  | .hostReadTimeout port ttag => Sys2Proof.Machine.execHostReadTimeout port ttag s
  | .build ctx word => Sys2Proof.Machine.execBuild ctx word s
  | .tickCommit ctx word => Sys2Proof.Machine.execTickCommit ctx word s
  | .tickAbort ctx word => Sys2Proof.Machine.execTickAbort ctx word s
  | .ctxCreate sess => Sys2Proof.Machine.execCtxCreate sess s
  | .kill sess => Sys2Proof.Machine.execKill sess s
  | .restart sess => Sys2Proof.Machine.execRestart sess s
  | .destroy sess => Sys2Proof.Machine.execDestroy sess s
  | .pftGateMet ctx sched => Sys2Proof.Machine.execPftGateMet ctx sched s
  | .pftCopyComplete ctx sched entry => Sys2Proof.Machine.execPftCopyComplete ctx sched entry s
  | .pftHoldLimit op => Sys2Proof.Machine.execPftHoldLimit op s
  | .reelSpill ctx bay => Sys2Proof.Machine.execReelSpill ctx bay s
  | .reelFetch ctx bay bad1 bad2 => Sys2Proof.Machine.execReelFetch ctx bay bad1 bad2 s
  | .reelWaitLimit op => Sys2Proof.Machine.execReelWaitLimit op s
  | .cacheFlush value => Sys2Proof.Machine.execCacheFlush value s
  | .tgStart sess value => Sys2Proof.Machine.execTgStart sess value s
  | .tgStop sess value => Sys2Proof.Machine.execTgStop sess value s
  | .tgRunComplete chan run => Sys2Proof.Machine.execTgRunComplete chan run s
  | .patrolScrub sector severity lastOfPass => Sys2Proof.Machine.execPatrolScrub sector severity lastOfPass s
  | .flashRelocation block => Sys2Proof.Machine.execFlashRelocation block s
  | .flashWearLevelling cold worn => Sys2Proof.Machine.execFlashWearLevelling cold worn s
  | .tblOwnerWrite sess slot value => Sys2Proof.Machine.execTblOwnerWrite sess slot value s
  | .widTableWrite sub value => Sys2Proof.Machine.execWidTableWrite sub value s
  | .serveRecWrite value => Sys2Proof.Machine.execServeRecWrite value s
  | .hbmRegionWrite region value => Sys2Proof.Machine.execHbmRegionWrite region value s
  | .twinWindowWrite sub value => Sys2Proof.Machine.execTwinWindowWrite sub value s
  | .cksInjectWrite sess value => Sys2Proof.Machine.execCksInjectWrite sess value s
  | .portEnable port value => Sys2Proof.Machine.execPortEnable port value s
  | .unpair sess => Sys2Proof.Machine.execUnpair sess s
  | .dictWrite sess index sub value => Sys2Proof.Machine.execDictWrite sess index sub value s
  | .qopRead frame => Sys2Proof.Machine.execQopRead frame s
  | .qopWrite frame => Sys2Proof.Machine.execQopWrite frame s
  | .qopBegin frame => Sys2Proof.Machine.execQopBegin frame s
  | .qopCommit frame => Sys2Proof.Machine.execQopCommit frame s
  | .commitSafePoint txn => Sys2Proof.Machine.execCommitSafePoint txn s
  | .qopRollback frame => Sys2Proof.Machine.execQopRollback frame s
  | .txnExpiry txn => Sys2Proof.Machine.execTxnExpiry txn s
  | .qopHello frame => Sys2Proof.Machine.execQopHello frame s
  | .qopKeyx frame => Sys2Proof.Machine.execQopKeyx frame s
  | .qopClose frame => Sys2Proof.Machine.execQopClose frame s
  | .sessionPendingExpiry sess => Sys2Proof.Machine.execSessionPendingExpiry sess s
  | .sessionIdleExpiry sess => Sys2Proof.Machine.execSessionIdleExpiry sess s
  | .logRead frame => Sys2Proof.Machine.execLogRead frame s
  | .attest frame => Sys2Proof.Machine.execAttest frame s
  | .mgr frame => Sys2Proof.Machine.execMgr frame s
  | .fwStage sess offset bytes => Sys2Proof.Machine.execFwStage sess offset bytes s
  | .fwVerify sess => Sys2Proof.Machine.execFwVerify sess s
  | .fwActivate sess => Sys2Proof.Machine.execFwActivate sess s
  | .fwConfirm sess => Sys2Proof.Machine.execFwConfirm sess s
  | .fwDiscard sess => Sys2Proof.Machine.execFwDiscard sess s
  | .resetWarm sess => Sys2Proof.Machine.execResetWarm sess s
  | .resetHard sess => Sys2Proof.Machine.execResetHard sess s
  | .btCmd sess => Sys2Proof.Machine.execBtCmd sess s
  | .bayTestComplete bay result => Sys2Proof.Machine.execBayTestComplete bay result s
  | .lbStart sess value => Sys2Proof.Machine.execLbStart sess value s
  | .lbRunEnd port bits errors worstLane => Sys2Proof.Machine.execLbRunEnd port bits errors worstLane s
  | .logFlush count => Sys2Proof.Machine.execLogFlush count s
  | .sensorSample sensor temp => Sys2Proof.Machine.execSensorSample sensor temp s
  | .mgmtWatchdogExpiry => Sys2Proof.Machine.execMgmtWatchdogExpiry s
  | .lockstepError => Sys2Proof.Machine.execLockstepError s
  | .ptpMessage port offset => Sys2Proof.Machine.execPtpMessage port offset s
  | .ptpHoldover => Sys2Proof.Machine.execPtpHoldover s
  | .arbiterInterval m => Sys2Proof.Machine.execArbiterInterval m s
  | .bayCurrentLimit bay current => Sys2Proof.Machine.execBayCurrentLimit bay current s
  | .vinDip mv => Sys2Proof.Machine.execVinDip mv s
  | .vinUndervoltage mv ns => Sys2Proof.Machine.execVinUndervoltage mv ns s
  | .vinOvervoltage mv ns => Sys2Proof.Machine.execVinOvervoltage mv ns s
  | .railFault rail ns => Sys2Proof.Machine.execRailFault rail ns s
  | .thermTripTimeout => Sys2Proof.Machine.execThermTripTimeout s
  | .pwrEnAssert => Sys2Proof.Machine.execPwrEnAssert s
  | .pwrEnRemove => Sys2Proof.Machine.execPwrEnRemove s
  | .modRstNAssert pwrGoodLow => Sys2Proof.Machine.execModRstNAssert pwrGoodLow s
  | .modRstNRelease => Sys2Proof.Machine.execModRstNRelease s
  | .alertAck => Sys2Proof.Machine.execAlertAck s
  | .stageRom pufOk slotAOk slotBOk => Sys2Proof.Machine.execStageRom pufOk slotAOk slotBOk s
  | .stageMgmt records => Sys2Proof.Machine.execStageMgmt records s
  | .stageHbm failed spareRows => Sys2Proof.Machine.execStageHbm failed spareRows s
  | .stageHbmtest results => Sys2Proof.Machine.execStageHbmtest results s
  | .stageBaytest failed => Sys2Proof.Machine.execStageBaytest failed s
  | .stageFtl journalOk spare lifeUsed badBlocks => Sys2Proof.Machine.execStageFtl journalOk spare lifeUsed badBlocks s
  | .stageLinks => Sys2Proof.Machine.execStageLinks s
  | .stagePair offer => Sys2Proof.Machine.execStagePair offer s
  | .stageJoin => Sys2Proof.Machine.execStageJoin s
  | .pairRetry offer => Sys2Proof.Machine.execPairRetry offer s
  | .managerReportRetry => Sys2Proof.Machine.execManagerReportRetry s
  | .souneFrameReceive port frame => Sys2Proof.Machine.execSouneFrameReceive port frame s
  | .sounePortTimeout port => Sys2Proof.Machine.execSounePortTimeout port s
  | .collJoin pkt => Sys2Proof.Machine.execCollJoin pkt s
  | .collGo pkt => Sys2Proof.Machine.execCollGo pkt s
  | .collAbort pkt => Sys2Proof.Machine.execCollAbort pkt s
  | .chunk pkt => Sys2Proof.Machine.execChunk pkt s
  | .chunkAck pkt => Sys2Proof.Machine.execChunkAck pkt s
  | .resend pkt => Sys2Proof.Machine.execResend pkt s
  | .ticketReq pkt => Sys2Proof.Machine.execTicketReq pkt s
  | .ticket pkt => Sys2Proof.Machine.execTicket pkt s
  | .collectiveStart op => Sys2Proof.Machine.execCollectiveStart op s
  | .remoteSignal pkt => Sys2Proof.Machine.execRemoteSignal pkt s
  | .withheld pkt => Sys2Proof.Machine.execWithheld pkt s
  | .collectiveWaitExpiry op => Sys2Proof.Machine.execCollectiveWaitExpiry op s
  | .heartbeatSend => Sys2Proof.Machine.execHeartbeatSend s
  | .heartbeat pkt => Sys2Proof.Machine.execHeartbeat pkt s
  | .heartbeatIntervalMiss => Sys2Proof.Machine.execHeartbeatIntervalMiss s
  | .mirror pkt => Sys2Proof.Machine.execMirror pkt s
  | .mirrorAck pkt => Sys2Proof.Machine.execMirrorAck pkt s
  | .tetherFault pkt => Sys2Proof.Machine.execTetherFault pkt s
  | .probeRequest pkt => Sys2Proof.Machine.execProbeRequest pkt s
  | .probeAnswer pkt => Sys2Proof.Machine.execProbeAnswer pkt s
  | .probeTimeout => Sys2Proof.Machine.execProbeTimeout s
  | .digest pkt => Sys2Proof.Machine.execDigest pkt s
  | .leafReport member fenced => Sys2Proof.Machine.execLeafReport member fenced s
  | .prepare roster => Sys2Proof.Machine.execPrepare roster s
  | .prepareAck group member => Sys2Proof.Machine.execPrepareAck group member s
  | .prepareTimeout group member => Sys2Proof.Machine.execPrepareTimeout group member s
  | .reformCommit roster => Sys2Proof.Machine.execReformCommit roster s
  | .synced group member => Sys2Proof.Machine.execSynced group member s
  | .beaconSend group => Sys2Proof.Machine.execBeaconSend group s
  | .tokenBeacon group epoch => Sys2Proof.Machine.execTokenBeacon group epoch s
  | .lease group epoch => Sys2Proof.Machine.execLease group epoch s
  | .tokenLeaseExpiry group => Sys2Proof.Machine.execTokenLeaseExpiry group s
  | .mdcParseLimit op => Sys2Proof.Machine.execMdcParseLimit op s
  | .hostDecodeResult op sample => Sys2Proof.Machine.execHostDecodeResult op sample s
  | .ingDecodeDeadline op sample => Sys2Proof.Machine.execIngDecodeDeadline op sample s
  | .liveAlignWaitExpiry op => Sys2Proof.Machine.execLiveAlignWaitExpiry op s
  | .souneReceiverDetect port lanes => Sys2Proof.Machine.execSouneReceiverDetect port lanes s
  | .deviceDecodeComplete op sample ps => Sys2Proof.Machine.execDeviceDecodeComplete op sample ps s
  | .liveEntryPublished op stream => Sys2Proof.Machine.execLiveEntryPublished op stream s
  | .leaseSend group => Sys2Proof.Machine.execLeaseSend group s
  | .unknownQcmd frame => Sys2Proof.Machine.execUnknownQcmd frame s
  | .icmpv6Echo port payload => Sys2Proof.Machine.execIcmpv6Echo port payload s
  | .neighbourDiscovery port target => Sys2Proof.Machine.execNeighbourDiscovery port target s
  | .pwrGoodRelease => Sys2Proof.Machine.execPwrGoodRelease s
  | .thermTripComparator => Sys2Proof.Machine.execThermTripComparator s
  | .cqModExpiry ctx => Sys2Proof.Machine.execCqModExpiry ctx s
  | .managerReportAck => Sys2Proof.Machine.execManagerReportAck s
  | .cacheFlushComplete => Sys2Proof.Machine.execCacheFlushComplete s
  | .measurementSample m => Sys2Proof.Machine.execMeasurementSample m s

end Sys2Proof.Machine
end

