-- ==== Sys2Proof/Safety.lean ====
section
/-! DEFINITION. The terms in which claims about the block are stated: its signals, the commands of its signals, ops that run and
end, the bytes of its memories, and writes of objects. -/

namespace Sys2Proof.Machine

/-! ## Signals (R613 to R618) -/

/-- What the levels of the module's signals say of each other: the device is in reset exactly while `MOD_RST_N` or `PWR_GOOD` is
low, `PWR_GOOD` is high only while the regulators run, and they run only while `PWR_EN` is asserted. -/
def SignalsAgree (s : State) : Prop :=
  s.off = !(s.pins.modRst && s.pins.pwrGood) ∧ (s.pins.pwrGood = true → s.pins.regs = true) ∧
  (s.pins.regs = true → s.pins.pwrEn = true)

/-- Commands of the module's signals, supply and sensors, which act on a device in reset too. -/
def signalCommand : Instr → Bool
  | .sensorSample _ _ | .vinUndervoltage _ _ | .vinOvervoltage _ _ | .thermTripTimeout | .pwrEnAssert | .pwrEnRemove
  | .modRstNAssert _ | .modRstNRelease | .alertAck | .pwrGoodRelease | .thermTripComparator => true
  | _ => false

/-! ## Ops -/

/-- Op `id` of a form has started and works on. -/
def Started (s : State) (id : Nat) (o : Op) (f : Form) : Prop :=
  s.off = false ∧ s.op? id = some o ∧ o.phase = .started ∧ formOf o.desc = some f

/-- Op `id` works on, and its partition's buckets gain tokens or may borrow: no access of it waits for ever (R282, R283, log 79). -/
def Works (s : State) (id : Nat) (o : Op) (f : Form) : Prop :=
  Started s id o f ∧ dryPartition s.dp (cPartition (s.ctx o.ctx).record) = false

/-- No error awaits the accesses of the memory system, and HBM3E holds nothing under the cache's lines that only the cache hides. -/
def MemoriesSound (s : State) : Prop :=
  s.dp.sev = [] ∧ s.dp.sram = [] ∧ s.dp.hwDue = none ∧ ∀ l ∈ s.dp.cache, l.stale = 0

/-- Op `id` has completed with a status and `INFO`, and its completion waits to be posted. -/
def EndedAs (t : State) (id status info : Nat) : Prop :=
  ∃ o, t.op? id = some o ∧ o.phase = .done ∧ o.status = status ∧ o.info = info

/-- The op commands whose effect is the working of their form, with the op and the form. -/
def workForm : Instr → Option (Nat × Form)
  | .mma op => some (op, .mma)
  | .mmg op => some (op, .mmg)
  | .mmgIndexForm op => some (op, .mmgIndex)
  | .att op => some (op, .att)
  | .atgStatistics op => some (op, .atgStat)
  | .atgGradient op => some (op, .atgGrad)
  | .cnv op => some (op, .cnv)
  | .cnt op => some (op, .cnt)
  | .eval op => some (op, .eval)
  | .mul op => some (op, .mul)
  | .sincos op => some (op, .sincos)
  | .rope op => some (op, .rope)
  | .rms op => some (op, .rms)
  | .rmsBackward op => some (op, .rmsBack)
  | .smx op => some (op, .smx)
  | .upd op => some (op, .upd)
  | .copy op => some (op, .copy)
  | .fill op => some (op, .fill)
  | .slotOut op => some (op, .slotOut)
  | _ => none

/-- A state from which `t` differs only in what has been sent and in the ports' own state. -/
def Sends (s t : State) : Prop := t = { s with out := t.out, zl := t.zl, soune := t.soune }

/-! ## Memories and objects -/

/-- One byte of a tier. -/
def byteAt (s : State) (tier k : Nat) : Nat := memByte (s.dp.mem.tier tier) k

/-- The memories are in canonical form. -/
abbrev MemoryWf (s : State) : Prop := s.dp.mem.wf = true

/-- The commands that write objects: the session and the writes. -/
def writesOf : Instr → Option (Nat × List Staged)
  | .ctxCreate x => some (x, [stagedOf kCtxCmd 1])
  | .kill x => some (x, [stagedOf kCtxCmd 2])
  | .restart x => some (x, [stagedOf kCtxCmd 3])
  | .destroy x => some (x, [stagedOf kCtxCmd 4])
  | .cacheFlush v => some (0, [stagedOf kCacheFlush v])
  | .tgStart x v => some (x, [stagedOf kTgCtrl (2 ^ 63 + v % 2 ^ 63)])
  | .tgStop x v => some (x, [stagedOf kTgCtrl (2 ^ 62 + v % 2 ^ 62)])
  | .tblOwnerWrite x k v => some (x, [stagedOf (if k < 16 then kTblOwner + k else objNo (kTblOwner / 256) 255) v])
  | .widTableWrite b v => some (0, [stagedOf (if b = 1 then kWidTable else if b = 2 then kWidLayers else objNo (kWidTable / 256) 255) v])
  | .serveRecWrite v => some (0, [stagedOf kServeRec v])
  | .hbmRegionWrite r v => some (0, [stagedOf (kHbmRegion + min r 254) v])
  | .twinWindowWrite b v => some (0, [stagedOf (objNo 0x3102 (min b 255)) v])
  | .cksInjectWrite x v => some (x, [stagedOf kCksInject v])
  | .portEnable p v => some (0, [stagedOf kPortSel p, stagedOf kPortEnable v])
  | .unpair x => some (x, [stagedOf kTwinCmd 2])
  | .dictWrite x i b v => some (x, [stagedOf (objNo (i % 2 ^ 16) (b % 2 ^ 8)) v])
  | .fwStage x o bs => some (x, [{ index := kFwStage / 256, sub := kFwStage % 256, offset := o, bytes := bs }])
  | .fwVerify x => some (x, [stagedOf kFwCmd 1])
  | .fwActivate x => some (x, [stagedOf kFwCmd 2])
  | .fwConfirm x => some (x, [stagedOf kFwCmd 3])
  | .fwDiscard x => some (x, [stagedOf kFwCmd 4])
  | .resetWarm x => some (x, [stagedOf kResetCmd 1])
  | .resetHard x => some (x, [stagedOf kResetCmd 2])
  | .btCmd x => some (x, [stagedOf kBtCmd 1])
  | .lbStart x v => some (x, [stagedOf kLbCtrl (128 + v % 128)])
  | _ => none

/-- Whether the device serves writes of objects now: it runs, its firmware is up, and the moment is a safe point (R570). -/
abbrev ServesWrites (s : State) : Prop := s.off = false ∧ mgmtUp s = true ∧ safePoint s = true

/-- One write that passes every check of R561 has the effect `t`. -/
def Accepted (s : State) (sess : Nat) (w : Staged) (t : State) : Prop :=
  checkWrite s sess false w = 0 ∧ writeNow s sess w = (t, 0) ∧ setFails t w = false

/-- The QOP commands: the frame, and the `QCMD` codes that each serves. -/
def qopFrame : Instr → Option (Frame × (Nat → Bool))
  | .qopRead f => some (f, (· == 1))
  | .qopWrite f => some (f, (· == 2))
  | .qopBegin f => some (f, (· == 3))
  | .qopCommit f => some (f, (· == 4))
  | .qopRollback f => some (f, (· == 5))
  | .qopHello f => some (f, (· == 6))
  | .qopKeyx f => some (f, (· == 7))
  | .qopClose f => some (f, (· == 8))
  | .logRead f => some (f, (· == 9))
  | .attest f => some (f, (· == 10))
  | .mgr f => some (f, (· == 16))
  | .unknownQcmd f => some (f, fun c => !(decide (1 ≤ c) && decide (c ≤ 10)) && c != 16)
  | _ => none

/-- Whether requests are served now: the device runs, its firmware is up, a mailbox frame is the request in service, no COMMIT waits
for its safe point, and the moment is a safe point. -/
def ServesFrame (s : State) (f : Frame) : Prop :=
  s.off = false ∧ mgmtUp s = true ∧ isMailboxReq s f = true ∧ s.mgmt.txns.any (fun t => t.commit.isSome) = false ∧ safePoint s = true

/-- A well-formed frame passes the checks of its session: it is served as request `q` in state `u`. -/
def Passes (s : State) (f : Frame) (u : State) (q : Req) : Prop :=
  ServesFrame s f ∧ malformed f = false ∧ q.cmd = (reqOf f).cmd ∧ q.body = (reqOf f).body ∧ q.sess = (reqOf f).sess ∧
  q.txn = (reqOf f).txn ∧ ∀ k, inSession (touchTxn s (reqOf f)) f (reqOf f) k = k u q

end Sys2Proof.Machine
end

