-- ==== Sys2Proof/WellFormed.lean ====
section
/-! DEFINITION. Which commands the interface can carry: each operand lies within the width that its rule gives it. -/

namespace Sys2Proof

/-- A value of `n` bits. -/
def fitsBits (n v : Nat) : Bool := decide (v < 2 ^ n)

/-- A string of at most `n` bytes. -/
def bytesOk (n : Nat) (bs : List Nat) : Bool := decide (bs.length ≤ n) && bs.all (fun b => decide (b < 256))

/-- A fabric or tether packet: a 32-byte header, a CHUNK prefix, data of at most 2 MiB (R490, R500, R530). -/
def Packet.wf (p : Packet) : Bool :=
  fitsBits 256 p.hdr && fitsBits 64 p.pre && bytesOk 2097152 p.data && fitsBits 64 p.crc

/-- A ZelugLink flit (R461): a 32-byte control area and 256 B of data. -/
def Flit.wf (f : Flit) : Bool := fitsBits 256 f.ctrl && fitsBits 2048 f.data

/-- A Soune frame (R485): a 16-byte control area and 512 B of data. -/
def SouneFrame.wf (f : SouneFrame) : Bool := fitsBits 128 f.ctrl && fitsBits 4096 f.data

/-- A QOP frame: at most 1,452 B over UDP and 4,096 B through the mailbox (R564). -/
def Frame.wf (f : Frame) : Bool := bytesOk (if f.net then 1452 else 4096) f.bytes

/-- A VEC op's fields (log 14): 5-bit format codes (R20), rounding codes (R33), addresses of 56 bits (R17). -/
def VecFields.wf (v : VecFields) : Bool :=
  decide (v.fn ≤ 15) && fitsBits 5 v.xFmt && fitsBits 5 v.gFmt && fitsBits 5 v.yFmt && fitsBits 3 v.rnd && fitsBits 1 v.ovf &&
  fitsBits 64 v.seed && fitsBits 32 v.tag && fitsBits 24 v.rows && fitsBits 24 v.cols && fitsBits 56 v.xAddr &&
  fitsBits 56 v.gAddr && fitsBits 56 v.yAddr && fitsBits 32 v.xPitch && fitsBits 32 v.gPitch && fitsBits 32 v.yPitch

/-- A context number (R12), a session number (R565), a bay (R12). -/
def ctxOk (c : Nat) : Bool := fitsBits 8 c
def sessOk (x : Nat) : Bool := fitsBits 16 x
def bayOk (b : Nat) : Bool := decide (b < Config.bays)

/-- A configuration record's number (R581) and entries (R563). -/
def CfgRecord.wf (r : CfgRecord) : Bool :=
  fitsBits 4 r.number && r.entries.all (fun e => fitsBits 16 e.index && fitsBits 8 e.sub && fitsBits 16 e.len && fitsBits (8 * e.len) e.value)

/-- A roster: 16-bit group, 32-bit epoch and member numbers (R490, R545). -/
def Roster.wf (r : Roster) : Bool :=
  fitsBits 16 r.group && fitsBits 32 r.epoch && fitsBits 32 r.size && fitsBits 32 r.member && decide (r.role ≤ 4)

/-- A channel's test: its number, and no more hard repairs than rows (R648). -/
def ChanTest.wf (t : ChanTest) : Bool := decide (t.chan < 320) && decide (t.hard ≤ t.rows.length)

/-- Whether the operands of a command fit their fields. -/
def Instr.wf : Instr → Bool
  | .mma _ | .mmg _ | .mmgIndexForm _ | .att _ | .atgStatistics _ | .atgGradient _ | .cnv _ | .cnt _ => true
  | .vec _ v => v.wf
  | .eval _ | .mul _ | .sincos _ | .rope _ | .tblLoad _ | .rms _ | .rmsBackward _ | .smx _ | .upd _ => true
  | .psh _ | .pop _ | .mrkOpen _ | .mrkClose _ | .mrkDrop _ | .copy _ | .fill _ | .slotOut _ => true
  | .pftRun _ | .pftCancel _ | .fnc _ | .bcs _ | .rdo _ | .rdoAll _ | .mdc _ | .men _ => true
  | .ing _ | .ingLiveAligned _ | .ingLiveStamped _ => true
  | .dispatch c => ctxOk c
  | .opStart _ | .opComplete _ => true
  | .cqFullWaitExpiry c => ctxOk c
  | .opWatchdogExpiry _ | .fncTimeout _ => true
  | .sqDb c i => ctxOk c && fitsBits 32 i
  | .cqDb c i => ctxOk c && fitsBits 32 i
  | .mbxDb n => fitsBits 32 n
  | .controlWindowWrite o n v => fitsBits 32 o && decide (1 ≤ n) && decide (n ≤ 4096) && fitsBits (8 * n) v
  | .zlFlitReceive p f => decide (p < 2) && f.wf
  | .zlReceiverDetect p n => decide (p < 2) && decide (n ≤ 16)
  | .zlLinkStateTimeout p => decide (p < 2)
  | .hostReadCompletion p t e => decide (p < 2) && fitsBits 12 t && fitsBits 8 e
  | .hostReadTimeout p t => decide (p < 2) && fitsBits 12 t
  | .build c w => ctxOk c && fitsBits 64 w && decide (w >>> 62 = 0)
  | .tickCommit c w => ctxOk c && fitsBits 64 w && decide (w >>> 62 = 1)
  | .tickAbort c w => ctxOk c && fitsBits 64 w && decide (w >>> 62 = 2)
  | .ctxCreate x => sessOk x
  | .kill x => sessOk x
  | .restart x => sessOk x
  | .destroy x => sessOk x
  | .pftGateMet c n => ctxOk c && fitsBits 8 n
  | .pftCopyComplete c n e => ctxOk c && fitsBits 8 n && fitsBits 32 e
  | .pftHoldLimit _ => true
  | .reelSpill c b => ctxOk c && bayOk b
  | .reelFetch c b _ _ => ctxOk c && bayOk b
  | .reelWaitLimit _ => true
  | .cacheFlush v => decide (v ≤ 1)
  | .tgStart x v => sessOk x && fitsBits 64 v && decide (v.testBit 63)
  | .tgStop x v => sessOk x && fitsBits 64 v && decide (v.testBit 62 ∧ !v.testBit 63)
  | .tgRunComplete c r => decide (c < 320) && fitsBits 16 r.passes && fitsBits 32 r.mbps
  | .patrolScrub x v _ => decide (x * 32 < Config.stackCount * Config.stackBytes) && decide (v ≤ 6)
  | .flashRelocation _ | .flashWearLevelling _ _ => true
  | .tblOwnerWrite x i v => sessOk x && decide (i < 16) && fitsBits 16 v
  | .widTableWrite b v => (decide (b = 1) && fitsBits 64 v) || (decide (b = 2) && fitsBits 16 v)
  | .serveRecWrite v => fitsBits 64 v
  | .hbmRegionWrite r v => decide (r < 8) && fitsBits 64 v
  | .twinWindowWrite b v => (decide (b = 1) || decide (b = 2)) && fitsBits 32 v
  | .cksInjectWrite x v => sessOk x && fitsBits 64 v
  | .portEnable p v => decide (p < 36) && decide (v ≤ 1)
  | .unpair x => sessOk x
  | .dictWrite x i b _ => sessOk x && fitsBits 16 i && fitsBits 8 b
  | .qopRead f | .qopWrite f | .qopBegin f | .qopCommit f | .qopRollback f | .qopHello f | .qopKeyx f | .qopClose f => f.wf
  | .commitSafePoint t => fitsBits 32 t
  | .txnExpiry t => fitsBits 32 t
  | .sessionPendingExpiry x => sessOk x
  | .sessionIdleExpiry x => sessOk x
  | .logRead f | .attest f | .mgr f | .unknownQcmd f => f.wf
  | .fwStage x o bs => sessOk x && fitsBits 32 o && bytesOk 4096 bs
  | .fwVerify x => sessOk x
  | .fwActivate x => sessOk x
  | .fwConfirm x => sessOk x
  | .fwDiscard x => sessOk x
  | .resetWarm x => sessOk x
  | .resetHard x => sessOk x
  | .btCmd x => sessOk x
  | .bayTestComplete b r => bayOk b && decide (2 ≤ r) && decide (r ≤ 6)
  | .lbStart x v => sessOk x && fitsBits 8 v && decide (v.testBit 7)
  | .lbRunEnd p b e w => (decide (p < 36) || p == 64 || p == 65 || p == 80 || p == 81) && fitsBits 64 b && fitsBits 64 e && fitsBits 8 w
  | .logFlush _ => true
  | .sensorSample n t => decide (n < 404) && decide (-32768 ≤ t) && decide (t < 32768)
  | .mgmtWatchdogExpiry | .lockstepError => true
  | .ptpMessage p o => decide (p < 2) && decide (-2147483648 ≤ o) && decide (o < 2147483648)
  | .ptpHoldover => true
  | .arbiterInterval m => decide (m.bays.length = Config.bays)
  | .bayCurrentLimit b _ => bayOk b
  | .vinDip _ | .vinUndervoltage _ _ | .vinOvervoltage _ _ => true
  | .railFault r _ => decide (r ≤ 128)
  | .thermTripTimeout | .pwrEnAssert | .pwrEnRemove | .modRstNAssert _ | .modRstNRelease | .alertAck | .stageRom _ _ _ => true
  | .stageMgmt rs => rs.all (·.wf)
  | .stageHbm f _ => f.all (fun n => decide (n < Config.stackCount))
  | .stageHbmtest ts => ts.all (·.wf)
  | .stageBaytest f => f.all (fun u => fitsBits 16 u.1 && (u.2 == 0x0F24 || u.2 == 0x0F25))
  | .stageFtl _ p l b => decide (p ≤ 1000) && fitsBits 16 l && fitsBits 32 b
  | .stageLinks => true
  | .stagePair p => fitsBits 64 p.id && decide (p.state ≤ 5)
  | .stageJoin => true
  | .pairRetry p => fitsBits 64 p.id && decide (p.state ≤ 5)
  | .managerReportRetry => true
  | .souneFrameReceive p f => decide (p < 36) && f.wf
  | .sounePortTimeout p => decide (p < 36)
  | .collJoin p | .collGo p | .collAbort p | .chunk p | .chunkAck p | .resend p | .ticketReq p | .ticket p => p.wf
  | .collectiveStart _ => true
  | .remoteSignal p | .withheld p => p.wf
  | .collectiveWaitExpiry _ | .heartbeatSend => true
  | .heartbeat p => p.wf
  | .heartbeatIntervalMiss => true
  | .mirror p | .mirrorAck p | .tetherFault p | .probeRequest p | .probeAnswer p => p.wf
  | .probeTimeout => true
  | .digest p => p.wf
  | .leafReport m _ => fitsBits 32 m
  | .prepare r => r.wf
  | .prepareAck g m => fitsBits 16 g && fitsBits 32 m
  | .prepareTimeout g m => fitsBits 16 g && fitsBits 32 m
  | .reformCommit r => r.wf
  | .synced g m => fitsBits 16 g && fitsBits 32 m
  | .beaconSend g => fitsBits 16 g
  | .tokenBeacon g e => fitsBits 16 g && fitsBits 32 e
  | .lease g e => fitsBits 16 g && fitsBits 32 e
  | .tokenLeaseExpiry g => fitsBits 16 g
  | .mdcParseLimit _ => true
  | .hostDecodeResult _ _ | .ingDecodeDeadline _ _ | .liveAlignWaitExpiry _ => true
  | .souneReceiverDetect p n => decide (p < 36) && decide (n ≤ 4)
  | .deviceDecodeComplete _ _ p => fitsBits 16 p
  | .liveEntryPublished _ _ => true
  | .leaseSend g => fitsBits 16 g
  | .icmpv6Echo p bs => decide (p < 2) && bytesOk 1500 bs
  | .neighbourDiscovery p t => decide (p < 2) && fitsBits 128 t
  | .pwrGoodRelease | .thermTripComparator => true
  | .cqModExpiry c => ctxOk c
  | .managerReportAck | .cacheFlushComplete | .measurementSample _ => true

end Sys2Proof
end

