-- ==== Sys2Proof/Certificates/Slice0/Obligations.lean ====
section
/-! DEFINITION. The statements about the model, for the provers. -/

open Sys2Proof Sys2Proof.Machine

/-! ## Steps, signals and reset -/

/-- A step runs the command at the front of the queue with the rest of the queue, and on an empty queue lets a nanosecond pass
(the model's choice, log 1). -/
def Obligations.StepRunsFrontCommand : Prop :=
  (∀ (c : Instr) (rest : List Instr) (s : State),
    step { s with pending := c :: rest } = exec c { s with pending := rest }) ∧
  (∀ s : State, s.pending = [] → step s = .next (idle s))

/-- Whatever a step does, it takes exactly the front command off the queue and adds none. -/
def Obligations.StepTakesOneCommand : Prop :=
  ∀ s t : State, step s = .next t → t.pending = s.pending.tail

/-- R617, R616 and R605: in every state that a step leads to from a state whose signals agree, the device is in reset exactly
while `MOD_RST_N` or `PWR_GOOD` is low, `PWR_GOOD` is high only while the regulators run, and they run only under `PWR_EN`. -/
def Obligations.SignalsAgreeAfterEveryStep : Prop :=
  ∀ s t : State, SignalsAgree s → step s = .next t → SignalsAgree t

/-- The state after reset: signals agree, nothing waits, has been sent or is in flight, every context is FREE, no stage of start-up
has completed, and the memories and stored objects are in canonical form (R644, R655; the powered and released device is log 12). -/
def Obligations.ResetLeavesDeviceIdle : Prop :=
  SignalsAgree State.reset ∧ State.reset.pending = [] ∧ State.reset.out = [] ∧ State.reset.ops = [] ∧
  (∀ c, (State.reset.ctx c).st = .free) ∧ bootStage State.reset = 1 ∧ MemoryWf State.reset ∧
  kvWf objDefault State.reset.dp.objs = true

/-- R617 with log 2: a device that is held in reset takes no command but those of its signals, supply and sensors. -/
def Obligations.HeldDeviceTakesNoCommand : Prop :=
  ∀ (i : Instr) (s : State), signalCommand i = false → s.off = true → exec i s = .next s

/-- A command of the device leaves the levels of the module's signals, the temperatures and the waiting commands alone, and does not
take the device into or out of reset. -/
def Obligations.DeviceCommandsKeepSignals : Prop :=
  ∀ (i : Instr) (s t : State), signalCommand i = false → exec i s = .next t →
    t.pins = s.pins ∧ t.off = s.off ∧ t.temps = s.temps ∧ t.pending = s.pending

/-- Every command has a next state, in every state: no data end a run. -/
def Obligations.CarriedCommandsContinue : Prop :=
  ∀ (i : Instr) (s : State), ∃ t, exec i s = .next t

/-- A command that names a port, context, channel, bay or sensor that the device does not have leaves the state as it is (R12, R465,
R488, R588; the model's choice, log 2). -/
def Obligations.AbsentUnitsTakeNothing : Prop :=
  ∀ s : State,
    (∀ p, 2 ≤ p → (∀ f, exec (.zlFlitReceive p f) s = .next s) ∧ (∀ n, exec (.zlReceiverDetect p n) s = .next s) ∧
      exec (.zlLinkStateTimeout p) s = .next s) ∧
    (∀ p, 36 ≤ p → (∀ f, exec (.souneFrameReceive p f) s = .next s) ∧ (∀ n, exec (.souneReceiverDetect p n) s = .next s) ∧
      exec (.sounePortTimeout p) s = .next s) ∧
    (∀ c, 256 ≤ c → exec (.dispatch c) s = .next s ∧ ∀ n, exec (.sqDb c n) s = .next s ∧ exec (.cqDb c n) s = .next s) ∧
    (∀ n x, 404 ≤ n → exec (.sensorSample n x) s = .next s) ∧
    (∀ b, 128 ≤ b → ∀ n, exec (.bayCurrentLimit b n) s = .next s ∧ exec (.bayTestComplete b n) s = .next s) ∧
    (∀ c r, 320 ≤ c → exec (.tgRunComplete c r) s = .next s)

/-! ## Doorbells and the control window (R472 to R482) -/

/-- R475 and R457: a submission doorbell for a context that is not ACTIVE is ignored and counted; one for an ACTIVE context is
accepted when it lies within the queue's size of the consumer and not behind the latest accepted producer, and else ignored and
counted. A write of `SQ_DB` at its exact offset and size is that doorbell. -/
def Obligations.SubmissionDoorbellRules : Prop :=
  ∀ (s : State) (c p : Nat), s.off = false → c < 256 → p < 2 ^ 32 →
    exec (.controlWindowWrite (4096 * c) 4 p) s = exec (.sqDb c p) s ∧
    ((s.ctx c).st ≠ .active → exec (.sqDb c p) s = .next (s.bump kSqInactiveIgnored 1)) ∧
    ((s.ctx c).st = .active →
      (p + 2 ^ 32 - (s.ctx c).sqCons) % 2 ^ 32 ≤ 2 ^ s.obj (objKey c kSqLog2) →
      ((s.ctx c).sqProd + 2 ^ 32 - (s.ctx c).sqCons) % 2 ^ 32 ≤ (p + 2 ^ 32 - (s.ctx c).sqCons) % 2 ^ 32 →
      exec (.sqDb c p) s = .next { s.setCtx c { s.ctx c with sqProd := p } with db := kvSet 0 s.db (4096 * c) p }) ∧
    ((s.ctx c).st = .active →
      (2 ^ s.obj (objKey c kSqLog2) < (p + 2 ^ 32 - (s.ctx c).sqCons) % 2 ^ 32 ∨
       (p + 2 ^ 32 - (s.ctx c).sqCons) % 2 ^ 32 < ((s.ctx c).sqProd + 2 ^ 32 - (s.ctx c).sqCons) % 2 ^ 32) →
      exec (.sqDb c p) s = .next (s.bump kSqDoorbellIgnored 1))

/-- R477 and R457: a completion doorbell is accepted from the latest accepted consumer up to the producer, and then the next entry
raises an interrupt; any other is ignored and counted. A write of `CQ_DB` at its exact offset and size is that doorbell. An interrupt
that `CQ_MOD_US` held is sent once that time has passed since the latest one. -/
def Obligations.CompletionDoorbellRules : Prop :=
  ∀ (s : State) (c : Nat), s.off = false → c < 256 →
    (∀ q, q < 2 ^ 32 →
      exec (.controlWindowWrite (4096 * c + 8) 4 q) s = exec (.cqDb c q) s ∧
      ((q + 2 ^ 32 - (s.ctx c).cqCons) % 2 ^ 32 ≤ ((s.ctx c).cqProd + 2 ^ 32 - (s.ctx c).cqCons) % 2 ^ 32 →
        exec (.cqDb c q) s =
          .next { s.setCtx c { s.ctx c with cqCons := q, intArmed := true } with db := kvSet 0 s.db (4096 * c + 8) q }) ∧
      (((s.ctx c).cqProd + 2 ^ 32 - (s.ctx c).cqCons) % 2 ^ 32 < (q + 2 ^ 32 - (s.ctx c).cqCons) % 2 ^ 32 →
        exec (.cqDb c q) s = .next (s.bump kCtrlIgnoredCount 1))) ∧
    (∀ t, (s.ctx c).intHeld = true → (s.ctx c).lastInt = some t →
      (t + s.obj (objKey c kCqModUs) * 1000 ≤ s.time →
        exec (.cqModExpiry c) s = .next (s.inside (sendInt
          (s.setCtx c { s.ctx c with intHeld := false, lastInt := some s.time }) c (s.obj (objKey c kCqVector))))) ∧
      (s.time < t + s.obj (objKey c kCqModUs) * 1000 → exec (.cqModExpiry c) s = .next s))

/-- R482: an `MBX_DB` write while `BUSY`, or with a length of 0 or above 4,096, is ignored and counted; any other copies the request,
sets `BUSY` and clears `DONE`, so that later writes to the buffer do not affect it. -/
def Obligations.MailboxDoorbellRules : Prop :=
  ∀ (s : State) (n : Nat), s.off = false →
    ((s.mbx.busy = true ∨ n = 0 ∨ 4096 < n) → exec (.mbxDb n) s = .next (s.bump kMbxIgnored 1)) ∧
    (s.mbx.busy = false → 1 ≤ n → n ≤ 4096 → exec (.mbxDb n) s = .next
      { s with mbx := { s.mbx with cur := (List.range n).map (fun i => s.mbx.req.getD i 0), busy := true, done := false },
               db := kvSet 0 s.db 0x102000 n })

/-- R472 and R473: a write within the mailbox request buffer is stored there; a write to a doorbell page that is no doorbell at
its exact size, to the response buffer or to a reserved offset is ignored and counted. -/
def Obligations.ControlWindowRules : Prop :=
  ∀ (s : State) (o n v : Nat), s.off = false → 1 ≤ n →
    (0x100000 ≤ o → o + n ≤ 0x101000 → exec (.controlWindowWrite o n v) s =
      .next { s with mbx := { s.mbx with req := putBytes s.mbx.req (o - 0x100000) (leBytes n v) } }) ∧
    ((o < 0x100000 ∧ ¬ (o % 4096 = 0 ∧ n = 4) ∧ ¬ (o % 4096 = 8 ∧ n = 4) ∧ ¬ (o % 4096 = 16 ∧ n = 8)) ∨
      (0x101000 ≤ o ∧ ¬ (o = 0x102000 ∧ n = 4)) →
      exec (.controlWindowWrite o n v) s = .next (s.bump kCtrlIgnoredCount 1))

/-! ## Dispatch, start and completion of ops (R440 to R454, R474 to R478) -/

/-- R441, R442, R480 and R663: the next op of a context whose turn has come enters its queue with the number `nextOp`; a CONTEXT
fence waits in the dispatcher; an op that a check rejects completes with the check's status; a collective then asks for its ticket;
and a context whose next op cannot be placed, or whose turn has not come, keeps it. -/
def Obligations.DispatchPlacesNextOp : Prop :=
  ∀ (s : State) (c : Nat), s.off = false → c < 256 →
    let x := nextDesc s c
    let o : Op := { id := s.nextOp, ctx := c, queue := hQueue x, opc := hOpc x, desc := x }
    (canPlace s c = true → isTurn s c = true →
      (∀ q, targetOf s c x = .queue q →
        newOp s c = { o with queue := q } ∧
        (isColl (hOpc x) = false → exec (.dispatch c) s = .next (s.inside (noteFences (taken s c)))) ∧
        (isColl (hOpc x) = true →
          exec (.dispatch c) s = .next (s.inside (collPlaced (noteFences (taken s c)) { o with queue := q })))) ∧
      (targetOf s c x = .fence → newOp s c = { o with phase := .started, startedAt := s.time } ∧
        exec (.dispatch c) s = .next (s.inside (noteFences (taken s c)))) ∧
      (∀ st, targetOf s c x = .reject st →
        newOp s c = o ∧ exec (.dispatch c) s = .next (s.inside (finishOp (taken s c) s.nextOp st 0)))) ∧
    ((canPlace s c = false ∨ isTurn s c = false) → exec (.dispatch c) s = .next s) ∧
    (taken s c).ops = s.ops ++ [newOp s c] ∧ ((taken s c).ctx c).sqCons = ((s.ctx c).sqCons + 1) % 2 ^ 32 ∧
    (taken s c).nextOp = s.nextOp + 1 ∧ (taken s c).dp = s.dp

/-- R57, R58, R108, R308, R309 and R445: an op whose turn in its queue has come and whose units are free starts with what it takes and
reads then, and is a start event of the schedules, unless a prefetch schedule holds it; an op whose turn has not come, or whose units
are busy, stays as it is; one whose selector names no form ends with its check's code. -/
def Obligations.OpStartRules : Prop :=
  ∀ (s : State) (id : Nat) (o : Op), s.off = false → s.op? id = some o → o.phase = .placed → s.twin.st ≠ 5 →
    isColl o.opc = false →
    (queueTurn s o = false → exec (.opStart id) s = .next s) ∧
    (o.opc ≠ opFNC → (mediaTurn s o = false ∨ engineFree s o.queue = false ∨ o.opc = opMDC ∧ ingAhead s = true) →
      exec (.opStart id) s = .next s) ∧
    (queueTurn s o = true →
      (o.opc ≠ opFNC → mediaTurn s o = true ∧ engineFree s o.queue = true ∧ (o.opc = opMDC → ingAhead s = false)) →
      (unitsFor o.desc (busyUnits s o.queue) = none → exec (.opStart id) s = .next s) ∧
      (∀ u, unitsFor o.desc (busyUnits s o.queue) = some u →
        (prefetchHeld s o = true →
          (o.heldSince = none → exec (.opStart id) s = .next (s.putOp { o with heldSince := some s.time })) ∧
          (o.heldSince.isSome = true → exec (.opStart id) s = .next s)) ∧
        (prefetchHeld s o = false →
          let t : State := { s.putOp (captured s o u) with scheds := s.scheds.map (startEvent (s.putOp (captured s o u)) o) }
          ((formOf o.desc).isSome = true → o.opc ≠ opFNC → exec (.opStart id) s = .next t) ∧
          ((formOf o.desc).isSome = true → o.opc = opFNC → exec (.opStart id) s = .next (s.inside (noteFences t))) ∧
          (formOf o.desc = none → o.opc ≠ opFNC →
            exec (.opStart id) s = .next (s.inside (finishOp t o.id (formless t o) 0))))))

/-- R476 and R474: the completion entry of the op that completed first in its context is 32 bytes at the queue's next slot in host
memory: TAG, STATUS, op code, context, queue, INFO, the consumer index, and a phase bit that changes with each pass over the queue.
The producer index advances, the op leaves the device, and no other byte of host memory changes. -/
def Obligations.CompletionEntryPosted : Prop :=
  ∀ (s : State) (id : Nat) (o : Op), s.off = false → s.op? id = some o → o.phase = .done →
    (s.ctx o.ctx).doneQ.head? = some id → (s.ctx o.ctx).st = .active → cqFull s o.ctx = false →
    let k := s.obj (objKey o.ctx kCqLog2)
    let at_ := s.obj (objKey o.ctx kCqBase) + 32 * ((s.ctx o.ctx).cqProd % 2 ^ k)
    let phase := if (s.ctx o.ctx).cqProd / 2 ^ k % 2 = 0 then 1 else 0
    ∃ t, exec (.opComplete id) s = .next t ∧
      (∀ e ∈ t.ops, e.id ≠ id) ∧ (t.ctx o.ctx).cqProd = ((s.ctx o.ctx).cqProd + 1) % 2 ^ 32 ∧
      hostRead t.dp.mem at_ 32 = leBytes 32 (hTag o.desc * 2 ^ 192 + o.status * 2 ^ 176 + o.opc * 2 ^ 168 + o.ctx * 2 ^ 160 +
        o.queue * 2 ^ 152 + o.info * 2 ^ 120 + (s.ctx o.ctx).sqCons * 2 ^ 88 + phase) ∧
      (∀ a, a < at_ ∨ at_ + 32 ≤ a → byteAt t 2 a = byteAt s 2 a) ∧
      t.dp.mem.near = s.dp.mem.near ∧ t.dp.mem.hbm = s.dp.mem.hbm ∧ t.dp.mem.flash = s.dp.mem.flash ∧
      t.sig = s.sig ∧ t.groups = s.groups ∧ t.twin = s.twin

/-- R478: while the completion queue of an ACTIVE context is full, the wait of its first completed op begins and nothing is posted;
in TEARDOWN the entry is discarded and counted. -/
def Obligations.FullCompletionQueue : Prop :=
  ∀ (s : State) (id : Nat) (o : Op), s.off = false → s.op? id = some o → o.phase = .done →
    (s.ctx o.ctx).doneQ.head? = some id → cqFull s o.ctx = true →
    ((s.ctx o.ctx).st ≠ .teardown → o.cqSince = none →
      exec (.opComplete id) s = .next (s.putOp { o with cqSince := some s.time })) ∧
    ((s.ctx o.ctx).st = .teardown →
      exec (.opComplete id) s = .next (s.inside (removeOp (s.bump (objKey o.ctx kCqLost) 1) o)))

/-- R451, R453, R454 and R478: a context whose completion queue has been full for `CQ_FULL_WAIT_US` suffers a job fault with cause 4, one
whose op has been started for longer than `OP_LIMIT_MS` one with cause 3; a fence whose wait expires is counted, and ends with 0x01B0 or
with a job fault of cause 2, as its `TO_ACT` says. -/
def Obligations.WaitsThatEndInAJobFault : Prop :=
  ∀ (s : State) (id : Nat) (o : Op), s.off = false → s.op? id = some o → o.ctx < 256 → (s.ctx o.ctx).st = .active →
    -- R478: a full completion queue for CQ_FULL_WAIT_US
    (∀ t, (s.ctx o.ctx).doneQ.head? = some id → o.cqSince = some t → cqFull s o.ctx = true →
      s.expired t (s.obj (objKey o.ctx kCqFullWaitUs) * 1000) = true →
      exec (.cqFullWaitExpiry o.ctx) s = .next (s.inside (jobFault s o.ctx 4 0))) ∧
    -- R453: an op in work for longer than its context's limit
    (o.phase = .started → cOpLimitMs (s.ctx o.ctx).record ≠ 0 → isMedia o.opc = false →
      s.expired o.startedAt (cOpLimitMs (s.ctx o.ctx).record * 1000000) = true →
      exec (.opWatchdogExpiry id) s = .next (s.inside (jobFault s o.ctx 3 0))) ∧
    -- R451: a fence's wait for its signal
    (∀ t, o.phase = .started → formOf o.desc = some .fnc → o.waitSince = some t → (fncOf o.desc).timeoutUs ≠ 0 →
      kvGet 0 s.sig (fncOf o.desc).waitSig < (fncOf o.desc).thresh →
      s.expired t ((fncOf o.desc).timeoutUs * 1000) = true →
      ((fncOf o.desc).toAct = true →
        exec (.fncTimeout id) s = .next (s.inside (finishOp (s.bump kFncTimeoutCount 1) id 0x01B0 0))) ∧
      ((fncOf o.desc).toAct = false →
        exec (.fncTimeout id) s = .next (s.inside (jobFault (s.bump kFncTimeoutCount 1) o.ctx 2 0))))

/-- R303, R447: a fence waits for its earlier ops and its signal; with `INVAL` it then drops its context's cached translations; it adds
its value to its signal word, completes with status 0, and with `STEP_EN` closes a step. -/
def Obligations.FenceRules : Prop :=
  ∀ (s : State) (id : Nat) (o : Op), Started s id o .fnc →
    let f := fncOf o.desc
    ((fenceStep1 s o = false ∨ (f.waitEn = true ∧ kvGet 0 s.sig f.waitSig < f.thresh)) → exec (.fnc id) s = .next s) ∧
    (fenceStep1 s o = true → (f.waitEn = true → f.thresh ≤ kvGet 0 s.sig f.waitSig) →
      let s0 : State := if f.inval = true then { s with dp := { s.dp with xlat := s.dp.xlat.filter (fun p => p.1 / 2 ^ 35 ≠ o.ctx) } } else s
      let s1 : State :=
        if f.sigEn = false then s0
        else if f.remote = true then remoteSignal s0 f
        else { s0 with sig := kvSet 0 s.sig f.setSig ((kvGet 0 s.sig f.setSig + f.value) % 2 ^ 64) }
      (f.stepEn = false → exec (.fnc id) s = .next (s.inside (finishOp s1 o.id 0 0))) ∧
      (f.stepEn = true → exec (.fnc id) s = .next (s.inside (passStep (finishOp s1 o.id 0 0) o.ctx))))

/-- What every completion of an op leaves (R376, R476): the op done with its status and INFO at the end of its context's list of
completed ops, `ACCT_OPS` one higher, and of the state outside ops, contexts and counters nothing changed. -/
def Obligations.FinishedOpWaitsForItsEntry : Prop :=
  ∀ (s : State) (id status info : Nat) (o : Op), s.op? id = some o → o.phase ≠ .done →
    let t := finishOp s id status info
    EndedAs t id status info ∧ (t.ctx o.ctx).doneQ = (s.ctx o.ctx).doneQ ++ [id] ∧
    (∀ c, c ≠ o.ctx → t.ctx c = s.ctx c) ∧
    (s.obj (objKey o.ctx kAcctOps) < 2 ^ 64 - 1 → t.obj (objKey o.ctx kAcctOps) = s.obj (objKey o.ctx kAcctOps) + 1) ∧
    (∀ k, k ≠ objKey o.ctx kAcctOps → k ≠ objKey o.ctx kAcctEngineNs → t.obj k = s.obj k) ∧
    t = { s with dp := { s.dp with objs := t.dp.objs }, ops := t.ops, ctxs := t.ctxs }


/-! ## The working of ops (R74 to R334, R383 to R391) -/

/-- R13, R55, R92, R282, R537: an op whose form works on memories alone is carried out whole by its command and completes with the
status and INFO of its working; an op that needs host memory first sends the read; a hardware fault in its working fences the device;
an op that needs more tokens than buckets hold that never gain any waits (log 79). -/
def Obligations.WorkingOpsComplete : Prop :=
  ∀ (i : Instr) (s : State) (id : Nat) (f : Form) (o : Op) (p : Plan Unit),
    workForm i = some (id, f) → Started s id o f → opPlan s o f = some p →
    let r := runPlan p codeOrder
    let dry := cPartition (s.ctx o.ctx).record
    (starves s.dp (runOp s o p codeOrder).dp dry = true → exec i s = .next s) ∧
    (starves s.dp (runOp s o p codeOrder).dp dry = false →
      (∀ ts, waitsForHost o r.1 = some ts → exec i s = .next (s.inside (readOn s o ts))) ∧
      (waitsForHost o r.1 = none → exec i s = .next (s.inside (settle s o r.1 r.2))) ∧
      (waitsForHost o r.1 = none → ∀ h, r.1.hw = some h →
        exec i s = .next (s.inside (hwFault (carryOut s o r.1) h.1 h.2.1 h.2.2)))) ∧
    (Works s id o f → waitsForHost o r.1 = none → r.1.hw = none → (applyEff (s.opEnv o) r.1 s.dp).hwDue = none →
      (∀ n ∈ r.1.notes, n.1 < 10) →
      ∃ t, exec i s = .next t ∧ EndedAs t id r.2 r.1.info ∧ t.dp.mem = (applyEff (s.opEnv o) r.1 s.dp).mem ∧
        t = { s with dp := t.dp, ops := t.ops, ctxs := t.ctxs, zl := t.zl, out := t.out })

/-- R117 with log 14: VEC completes with the status and INFO of the working that its fields give. -/
def Obligations.VecCompletes : Prop :=
  ∀ (s : State) (id : Nat) (o : Op) (v : VecFields), Works s id o .vec →
    let r := runPlan (vecPlan (s.opEnv o) v) codeOrder
    (∀ ts, waitsForHost o r.1 = some ts → exec (.vec id v) s = .next (s.inside (readOn s o ts))) ∧
    (waitsForHost o r.1 = none → exec (.vec id v) s = .next (s.inside (settle s o r.1 r.2))) ∧
    (waitsForHost o r.1 = none → r.1.hw = none → (applyEff (s.opEnv o) r.1 s.dp).hwDue = none → r.1.notes = [] →
      ∃ t, exec (.vec id v) s = .next t ∧ EndedAs t id r.2 r.1.info ∧ t.dp.mem = (applyEff (s.opEnv o) r.1 s.dp).mem ∧
        t = { s with dp := t.dp, ops := t.ops, ctxs := t.ctxs, zl := t.zl, out := t.out })

/-- R330: a FILL of one row outside HBM3E leaves the pattern repeated over the row's bytes, completes with status 0, and leaves every
other byte of the four memories as it was. -/
def Obligations.FillWritesThePattern : Prop :=
  ∀ (s : State) (id : Nat) (o : Op) (pl : Place), Works s id o .fill → MemoriesSound s →
    let d := movDesc o.desc
    ((movIssue (s.opEnv o) o.desc).run {} : Except Nat MovDesc × Eff) = (.ok d, {}) → d.rows = 1 → d.rowBytes % 8 = 0 →
    runsOf d.dst d.rowBytes = [(d.dst, d.rowBytes)] → translate (s.opEnv o) d.dst d.rowBytes true = .ok pl → pl.tier ≠ 1 →
    ∃ t, exec (.fill id) s = .next t ∧ EndedAs t id 0 0 ∧
      (∀ j, j < d.rowBytes → byteAt t pl.tier (pl.addr + j) = d.pattern / 256 ^ (j % 8) % 256) ∧
      (∀ tier k, tier < 4 → (tier ≠ pl.tier ∨ k < pl.addr ∨ pl.addr + d.rowBytes ≤ k) → byteAt t tier k = byteAt s tier k)

/-- R330: a COPY of one row between near store and host memory leaves the source's bytes at the destination, completes with status 0,
and leaves every other byte of the four memories as it was. -/
def Obligations.CopyMovesTheBytes : Prop :=
  ∀ (s : State) (id : Nat) (o : Op) (ps pd : Place), Works s id o .copy → MemoriesSound s → o.hostOk = true →
    let d := movDesc o.desc
    ((movIssue (s.opEnv o) o.desc).run {} : Except Nat MovDesc × Eff) = (.ok d, {}) → d.rows = 1 →
    runsOf d.src d.rowBytes = [(d.src, d.rowBytes)] → runsOf d.dst d.rowBytes = [(d.dst, d.rowBytes)] →
    translate (s.opEnv o) d.src d.rowBytes false = .ok ps → ps.tier = 0 ∨ ps.tier = 2 →
    translate { s.opEnv o with turn := 1 } d.dst d.rowBytes true = .ok pd → pd.tier = 0 ∨ pd.tier = 2 → dstFlash (s.opEnv o) d = false →
    ∃ t, exec (.copy id) s = .next t ∧ EndedAs t id 0 0 ∧
      (∀ j, j < d.rowBytes → byteAt t pd.tier (pd.addr + j) = byteAt s ps.tier (ps.addr + j)) ∧
      (∀ tier k, tier < 4 → (tier ≠ pd.tier ∨ k < pd.addr ∨ pd.addr + d.rowBytes ≤ k) → byteAt t tier k = byteAt s tier k)

/-- R109 to R111: a FUN LOAD waits for the loads of its slot that started before it; it reads and checks its image once; one that is
good waits until no started op holds the bank it writes, and then writes the shadow bank and makes it the active one with the next
generation; a table that fails its checks ends the op with their code and leaves both banks. -/
def Obligations.LoadExchangesTheBanks : Prop :=
  ∀ (s : State) (id : Nat) (o : Op), Works s id o .load →
    let r : Except Nat Nat × Eff := (loadPlan (s.opEnv o) o.banks o.desc).run {}
    let k := loadSlot o
    let b := kvGet {} s.dp.tables k
    let exchanged : State → Nat → State := fun u image =>
      let n : TableSlot := { active := some image, shadow := (kvGet {} u.dp.tables k).active
                             gen := ((kvGet {} u.dp.tables k).gen + 1) % 2 ^ 32, bank := !(kvGet {} u.dp.tables k).bank }
      { u with dp := { u.dp with tables := kvSet {} u.dp.tables k n } }
    (earlierLoad s o = true → exec (.tblLoad id) s = .next s) ∧
    (earlierLoad s o = false →
      (∀ image, o.image = some image →
        (shadowHeld s o = true → exec (.tblLoad id) s = .next s) ∧
        (shadowHeld s o = false → exec (.tblLoad id) s = .next (s.inside (finishOp (exchanged s image) o.id 0 0)) ∧
          ∃ t, exec (.tblLoad id) s = .next t ∧ EndedAs t id 0 0 ∧ kvGet {} t.dp.tables k =
            { active := some image, shadow := b.active, gen := (b.gen + 1) % 2 ^ 32, bank := !b.bank })) ∧
      (o.image = none → waitsForHost o r.2 = none →
        (∀ image, r.1 = .ok image →
          let s1 := (carryOut s o r.2).putOp { o with image := some image }
          (shadowHeld s1 o = true → exec (.tblLoad id) s = .next (s.inside s1)) ∧
          (shadowHeld s1 o = false → exec (.tblLoad id) s = .next (s.inside (finishOp (exchanged s1 image) o.id 0 0)))) ∧
        (∀ c, r.1 = .error c → r.2.hw = none → (applyEff (s.opEnv o) r.2 s.dp).hwDue = none → (∀ n ∈ r.2.notes, n.1 < 10) →
          ∃ t, exec (.tblLoad id) s = .next t ∧ EndedAs t id c r.2.info ∧ t.dp.tables = s.dp.tables)))

/-- R383, R389 and R391: MDC and MEN complete with the first code that their working raised, and unless the decoder found its state
block changed, the stream's state block is the new one; a parse limit ends the op with 0x0604. -/
def Obligations.MediaOpsComplete : Prop :=
  ∀ (s : State) (id : Nat) (o : Op),
    (Works s id o .mdc →
      let r : Except Nat MediaBlk × Eff := (mdcPlan (s.opEnv o) o.desc (mediaBlk s o)).run {}
      let st := firstCode mediaOrder r.2.codes
      (∀ ts, waitsForHost o r.2 = some ts → exec (.mdc id) s = .next (s.inside (readOn s o ts))) ∧
      (waitsForHost o r.2 = none →
        (∀ c, r.1 = .error c → exec (.mdc id) s = .next (s.inside (settle s o r.2 c))) ∧
        (∀ b, r.1 = .ok b → st ≠ 0x0608 → exec (.mdc id) s = .next (s.inside (setMedia (settle s o r.2 st) o b))) ∧
        (∀ b, r.1 = .ok b → st = 0x0608 → exec (.mdc id) s = .next (s.inside (settle s o r.2 st))))) ∧
    (Started s id o .mdc →
      (o.startedAt + 2000000 ≤ s.time → ∃ t, exec (.mdcParseLimit id) s = .next t ∧ EndedAs t id 0x0604 0 ∧ t.dp.mem = s.dp.mem ∧
        t.media = s.media)) ∧
    (Works s id o .men →
      let r : Except Nat MediaBlk × Eff := (menPlan (s.opEnv o) o.desc (mediaBlk s o)).run {}
      let st := firstCode mediaOrder r.2.codes
      (∀ ts, waitsForHost o r.2 = some ts → exec (.men id) s = .next (s.inside (readOn s o ts))) ∧
      (waitsForHost o r.2 = none →
        (∀ c, r.1 = .error c → exec (.men id) s = .next (s.inside (settle s o r.2 c))) ∧
        (∀ b, r.1 = .ok b → st ≠ 0x0608 → exec (.men id) s = .next (s.inside (setMedia (settle s o r.2 st) o b)))))

/-! ## The reel (R313 to R324) -/

/-- R313, R316 and R320: OPEN puts a frame at the top of its bay's reel unless the reel has no room for it or the tag names a frame;
CLOSE closes an OPEN frame; DROP takes the frame away; one that names no frame is ignored and counted. Each completes with status 0. -/
def Obligations.ReelMarks : Prop :=
  ∀ (s : State) (id : Nat) (o : Op),
    let d := reelDesc o.desc
    let issued := ((reelIssue 2 o.desc).run {} : Except Nat ReelDesc × Eff)
    let here := (findReel s.dp o.ctx d.bay).bind (fun r => (r.frame d.tag).map (fun f => (r, f)))
    let ignored : State := s.inside (finishOp (s.bump kReelIgnoredCount 1) o.id 0 0)
    (∀ c, issued.1 = .error c →
      (Works s id o .mrkOpen → exec (.mrkOpen id) s = .next (s.inside (finishOp s o.id c 0))) ∧
      (Works s id o .mrkClose → exec (.mrkClose id) s = .next (s.inside (finishOp s o.id c 0))) ∧
      (Works s id o .mrkDrop → exec (.mrkDrop id) s = .next (s.inside (finishOp s o.id c 0)))) ∧
    (issued.1 = .ok d →
      (Works s id o .mrkOpen →
        (here.isSome = true → exec (.mrkOpen id) s = .next ignored) ∧
        (∀ r, here = none → findReel s.dp o.ctx d.bay = some r →
          (r.frames.length < (reelRec r.record).maxFrames → exec (.mrkOpen id) s = .next (s.inside (finishOp
            (s.setDp (putReel s.dp { r with frames := r.frames ++ [{ tag := d.tag, rank := d.rank }] })) o.id 0 0))) ∧
          ((reelRec r.record).maxFrames ≤ r.frames.length → exec (.mrkOpen id) s = .next ignored)) ∧
        (findReel s.dp o.ctx d.bay = none → ∀ x e, ((reelRecord (s.opEnv o) d.bay).run {} : Except Nat Nat × Eff) = (.ok x, e) →
          (∀ ts, waitsForHost o e = some ts → exec (.mrkOpen id) s = .next (s.inside (readOn s o ts))) ∧
          (waitsForHost o e = none →
          let n : Reel := { ctx := o.ctx, bay := d.bay, record := x, frames := [{ tag := d.tag, rank := d.rank }] }
          exec (.mrkOpen id) s = .next (s.inside (settle (s.setDp (putReel s.dp n)) o e 0))))) ∧
      (Works s id o .mrkClose →
        (here = none → exec (.mrkClose id) s = .next ignored) ∧
        (∀ r f, here = some (r, f) →
          (f.st = .opened → exec (.mrkClose id) s = .next (s.inside (finishOp
            (s.setDp (putReel s.dp (r.putFrame { f with st := .closed }))) o.id 0 0))) ∧
          (f.st ≠ .opened → exec (.mrkClose id) s = .next (s.inside (finishOp s o.id 0 0))))) ∧
      (Works s id o .mrkDrop →
        (here = none → exec (.mrkDrop id) s = .next ignored) ∧
        (∀ r f, here = some (r, f) →
          exec (.mrkDrop id) s = .next (s.inside (finishOp (s.setDp (putReel s.dp (r.dropFrame d.tag))) o.id 0 0)))))

/-- R317, R319, R320, R321 and R324: a push onto an OPEN frame with room adds its entry on top; one without room waits; a pop of an
entry whose shape agrees writes it out and takes it away; a BROKEN or LOST frame ends the op with 0x01A3 or 0x01A5, and one that is not
there or not OPEN leaves it ignored; a push that waited too long ends with 0x01A3. -/
def Obligations.PushAndPop : Prop :=
  (∀ (s : State) (id : Nat) (o : Op),
    let d := reelDesc o.desc
    let here := (findReel s.dp o.ctx d.bay).bind (fun r => (r.frame d.tag).map (fun f => (r, f)))
    let ignored : State := s.inside (finishOp (s.bump kReelIgnoredCount 1) o.id 0 0)
    (Works s id o .psh → ((reelIssue 0 o.desc).run {} : Except Nat ReelDesc × Eff).1 = .ok d →
      (here = none → exec (.psh id) s = .next ignored) ∧
      (∀ r f, here = some (r, f) →
        (f.st = .broken → exec (.psh id) s = .next (s.inside (finishOp (endWait s o) o.id 0x01A3 0))) ∧
        (f.st = .lost → exec (.psh id) s = .next (s.inside (finishOp (endWait s o) o.id 0x01A5 0))) ∧
        (f.st = .closed → exec (.psh id) s = .next (s.inside (finishOp ((endWait s o).bump kReelIgnoredCount 1) o.id 0 0))) ∧
        (∀ x e, f.st = .opened → ((pshPlan (s.opEnv o) d).run {} : Except Nat (ReelEntry × List Nat) × Eff) = (.ok x, e) →
          waitsForHost o e = none →
          let w := reelWork s.dp r (pushEntry (s.opEnv o) d.tag x.1 x.2)
          (w.1 = .error 0 → o.waitSince = none →
            exec (.psh id) s = .next (s.inside ((s.afterReel o.ctx w.2).putOp { o with waitSince := some (s.afterReel o.ctx w.2).time }))) ∧
          (w.1 = .error 0 → o.waitSince.isSome = true → exec (.psh id) s = .next (s.inside (s.afterReel o.ctx w.2))) ∧
          (∀ u, w.1 = .ok u → exec (.psh id) s = .next (s.inside (settle (endWait (s.afterReel o.ctx w.2) o) o e 0)))))) ∧
    (Started s id o .psh → ∀ t, o.waitSince = some t → s.expired t (s.obj kReelWaitLimitUs * 1000) = true →
      ∃ u, exec (.reelWaitLimit id) s = .next u ∧ EndedAs u id 0x01A3 0 ∧ u.dp.mem = s.dp.mem) ∧
    (Works s id o .pop → ((reelIssue 1 o.desc).run {} : Except Nat ReelDesc × Eff).1 = .ok d →
      (here = none → exec (.pop id) s = .next ignored) ∧
      (∀ r f, here = some (r, f) →
        (f.st = .broken → exec (.pop id) s = .next (s.inside (finishOp s o.id 0x01A3 0))) ∧
        (f.st = .lost → exec (.pop id) s = .next (s.inside (finishOp s o.id 0x01A5 0))) ∧
        (f.st ≠ .broken → f.st ≠ .lost → f.entries = [] → exec (.pop id) s = .next ignored) ∧
        (∀ e es, f.st ≠ .broken → f.st ≠ .lost → f.entries = e :: es →
          (popAgrees d e = false → exec (.pop id) s = .next (s.inside (finishOp s o.id 0x01A4 0))) ∧
          (popAgrees d e = true →
            let w := reelWork s.dp r (topData (s.opEnv o) f e)
            let s1 := s.afterReel o.ctx w.2
            (w.1 = .error 0 → exec (.pop id) s = .next (s.inside s1)) ∧
            (∀ c, w.1 = .error c → c ≠ 0 → exec (.pop id) s = .next (s.inside (finishOp s1 o.id c 0))) ∧
            (∀ data x q, w.1 = .ok data → ((popPlan (s1.opEnv o) d e data).run {} : Except Nat Unit × Eff) = (.ok (), x) →
              findReel s1.dp o.ctx d.bay = some q →
              exec (.pop id) s =
                .next (s.inside (settle (s1.setDp (putReel s1.dp (popEntry q d.tag))) o x (firstCode codeOrder x.codes))))))))) ∧
  -- R317: the entry is the top one
  (∀ (E : Env) (tag : Nat) (e : ReelEntry) (data : List Nat) (w w1 : ReelSt) (f : ReelFrame), w.reel.frame tag = some f →
    ((pushEntry E tag e data).run w : Except Nat Unit × ReelSt) = (.ok (), w1) →
    ∃ g, w1.reel.frame tag = some g ∧ g.entries = e :: f.entries) ∧
  -- R316 and R319: a frame goes with its last entry, and is CLOSED by any other
  (∀ (r : Reel) (tag : Nat) (f : ReelFrame) (e : ReelEntry) (es : List ReelEntry), r.frame tag = some f → f.entries = e :: es →
    (es = [] → (popEntry r tag).frame tag = none) ∧
    (es ≠ [] → ∃ g, (popEntry r tag).frame tag = some g ∧ g.entries = es ∧ g.st = .closed))

/-- R322 and R323: once more than `SPILL_HI` % of a reel are resident, the engine spills its last block but those next to be popped and
keeps its check, until `SPILL_LO` % or fewer are; it fetches the first spilled block of those next to be popped, and loses the frame
of a block whose check fails twice. -/
def Obligations.ReelSpillsAndFetches : Prop :=
  ∀ (s : State) (c b : Nat) (r : Reel), s.off = false → findReel s.dp c b = some r →
    let R := reelRec r.record
    let E := s.env c
    (r.spills = false → exec (.reelSpill c b) s = .next s) ∧
    (r.spills = true →
      (r.victim (s.dp.partnerPages != 0) [] = none → exec (.reelSpill c b) s = .next (s.inside (raiseDue (s.setDp (putReel s.dp r))))) ∧
      (∀ v x j, r.victim (s.dp.partnerPages != 0) [] = some v → r.block? v.1 v.2 = some x → r.freeSpill = some j →
        -- to the partner's window the bytes cross the tether
        (R.spill = 2 → ∀ bs e, ((rd E (R.area + 65536 * x.slot) 65536).run {} : Except Nat (List Nat) × Eff) = (.ok bs, e) →
          let d := bump (bump (applyEff E e s.dp) (objKey r.ctx kAcctBytesFabric) 65536) kReelSpillBytes 65536
          exec (.reelSpill c b) s = .next (s.inside (raiseDue (hostWrites (s.setDp (putReel d
            (r.setBlock v.1 v.2 { slot := j, spilled := true, crc := crc64 bs, away := bs }))) c e.acts.reverse)))) ∧
        -- to host memory they are written there, and sent
        (R.spill = 1 → ∀ bs e e1, ((rd E (R.area + 65536 * x.slot) 65536).run {} : Except Nat (List Nat) × Eff) = (.ok bs, e) →
          ((wr { E with d := applyEff E e s.dp } (R.spillAddr + 65536 * j) bs).run {} : Except Nat Unit × Eff) = (.ok (), e1) →
          let d := bump (applyEff E e1 (applyEff E e s.dp)) kReelSpillBytes 65536
          exec (.reelSpill c b) s = .next (s.inside (raiseDue (hostWrites (s.setDp (putReel d
            (r.setBlock v.1 v.2 { slot := j, spilled := true, crc := crc64 bs }))) c (e1.acts ++ e.acts).reverse)))))) ∧
    (r.fetches = false → ∀ bad1 bad2, exec (.reelFetch c b bad1 bad2) s = .next s) ∧
    (r.fetches = true → ∀ q x k, r.nextFetch = some q → r.block? q.1 q.2 = some x → r.freeSlot = some k → R.spill = 2 →
      let d := bump (bump s.dp (objKey r.ctx kAcctBytesFabric) 65536) kReelFetchBytes 65536
      (∀ bad1 bad2 e, crc64 x.away = x.crc → (bad1 && bad2) = false →
        ((wr { E with d := d } (R.area + 65536 * k) x.away).run {} : Except Nat Unit × Eff) = (.ok (), e) →
        exec (.reelFetch c b bad1 bad2) s = .next (s.inside (raiseDue (hostWrites (s.setDp (putReel (applyEff E e d) (r.setBlock q.1 q.2 { slot := k }))) c e.acts.reverse)))) ∧
      (∀ bad1 bad2, (crc64 x.away ≠ x.crc ∨ bad1 = true ∧ bad2 = true) →
        let l := loseFrame d r q.1 1
        exec (.reelFetch c b bad1 bad2) s = .next (s.inside (raiseDue (s.setDp (putReel l.1 l.2))))))

/-! ## Collectives (R449, R492 to R512) -/

/-- R492, R493, R499, R513 and R514: a collective waits for GO; after it, one of no elements ends with 0x0310, and any other moves its
data, once those of its source that lie in host memory have come; once its data are moved, the op completes with the first code of the chunks that were withheld, or 0x0303 where a NaN of its data
became +0, and INFO their number where the member writes. -/
def Obligations.CollectiveWork : Prop :=
  ∀ (i : Instr) (f : Form) (s : State) (id : Nat) (o : Op) (c : Coll) (E : CollEnv),
    (i = .bcs id ∧ f = .bcs ∨ i = .rdo id ∧ f = .rdo ∨ i = .rdoAll id ∧ f = .rdoAll) → Works s id o f →
    s.coll? id = some c → collEnv s c = some E →
    (c.phase ≠ 2 → exec i s = .next s) ∧
    (c.phase = 2 → c.moved = false →
      (E.d.count = 0 → ∃ t, exec i s = .next t ∧ EndedAs t id 0x0310 (if writes E.d c.member then E.d.chunks - c.written.length else 0)) ∧
      (E.d.count ≠ 0 →
        let e := ((sources s E).run {} : Except Nat (List (List Nat)) × Eff).2
        (E.d.src = 0 ∨ waitsForHost o e = none → exec i s = .next (s.inside (moveColl s E c))) ∧
        (∀ ts, E.d.src ≠ 0 → waitsForHost o e = some ts → exec i s = .next (s.inside (readOn s o ts))))) ∧
    (c.phase = 2 → c.moved = true → collFinished E c = true →
      ∃ t, exec i s = .next t ∧ EndedAs t id (collCode c) (if writes E.d c.member then c.lost.length else 0) ∧ t.dp.mem = s.dp.mem ∧
        ((∃ x ∈ c.lost, x.2 = 0x0404) → collCode c = 0x0404) ∧ (c.lost = [] → collCode c = if c.subst then 0x0303 else 0))

/-- R510 and R449: a collective packet whose epoch is not its group's current one is discarded and counted, and changes nothing else;
a remote SIGNAL of such an epoch is dropped and counted. -/
def Obligations.StalePacketsAreDiscarded : Prop :=
  ∀ (i : Instr) (pkt : Packet) (s : State), s.off = false → epochOk s pkt.hdr = false →
    (i ∈ [.collJoin pkt, .collGo pkt, .collAbort pkt, .chunk pkt, .chunkAck pkt, .resend pkt, .withheld pkt, .ticketReq pkt,
        .ticket pkt] → exec i s = .next (s.bump kCollStaleCount 1)) ∧
    exec (.remoteSignal pkt) s = .next (s.bump kSigRemoteDrop 1)

/-- R494, R495, R508 and R510: a ticket reaches the collectives that wait for it, is late where the wait has expired, and stale where
none asked; the primary manager gives a triple that asks first the next
number, and the same number to every later request; a collective with its ticket starts once as many collectives of its sequence have
started as its PRIOR says, and sends JOIN. -/
def Obligations.TicketRules : Prop :=
  ∀ (pkt : Packet) (s : State), s.off = false → epochOk s pkt.hdr = true →
    let h := pkt.hdr
    let gseq := leNat (pkt.data.take 4)
    let prior := leNat ((pkt.data.drop 4).take 8)
    let asked := s.colls.any (fun c => asks c (pGroup h) (pEpoch h) gseq)
    (asked = true → exec (.ticket pkt) s = .next (s.inside (takeTicket s (pGroup h) (pEpoch h) (pTicket h) gseq prior))) ∧
    (asked = false → s.colls.any (fun c => c.ticket == some (pTicket h)) = true → exec (.ticket pkt) s = .next s) ∧
    (∀ g, findGroup s (pGroup h) = some g → asked = false → s.colls.any (fun c => c.ticket == some (pTicket h)) = false →
      let k := askKey (pGroup h) (pEpoch h) gseq
      let s1 := noteSkipped s g.roster prior
      (s.late.contains k = true → exec (.ticket pkt) s = .next (s.inside
        (({ s1 with late := pTicket h :: s1.late.filter (· ≠ k) } : State).bump kCollLateCount 1))) ∧
      (s.late.contains k = false → exec (.ticket pkt) s = .next (s.inside (s1.bump kCollStaleCount 1)))) ∧
    -- the turns of a sequence: its next collective, and those after it that ended before their own
    (∀ g : Group, s.skipped.all (fun x => x.1 != startedKey g.roster) = true →
      (noteStarted s g.roster).startedOf g.roster = s.startedOf g.roster + 1 ∧
      (noteSkipped s g.roster (s.startedOf g.roster)).startedOf g.roster = s.startedOf g.roster + 1 ∧
      (∀ p, s.startedOf g.roster < p → (noteSkipped s g.roster p).startedOf g.roster = s.startedOf g.roster) ∧
      (noteStarted (noteSkipped s g.roster (s.startedOf g.roster + 1)) g.roster).startedOf g.roster = s.startedOf g.roster + 2) ∧
    (∀ g, findGroup s (pGroup h) = some g →
      (isPrimary s g = false → exec (.ticketReq pkt) s = .next (s.inside (discardPacket s h))) ∧
      (isPrimary s g = true → s.twin.st ≠ 2 →
        (∀ n, (s.mgr.given.find? (fun x => x.1 == pGroup h && x.2.1 == pEpoch h && x.2.2.1 == leNat (pkt.data.take 4))) = some n →
          ∃ t, exec (.ticketReq pkt) s = .next t ∧ t.mgr = s.mgr) ∧
        ((s.mgr.given.find? (fun x => x.1 == pGroup h && x.2.1 == pEpoch h && x.2.2.1 == leNat (pkt.data.take 4))) = none →
          ∃ t, exec (.ticketReq pkt) s = .next t ∧ t.mgr.next = s.mgr.next + 1 ∧
            t.mgr.given = s.mgr.given ++ [(pGroup h, pEpoch h, leNat (pkt.data.take 4), s.mgr.next)]))) ∧
    (∀ id o g c, s.op? id = some o → o.phase = .placed → isColl o.opc = true → s.twin.st ≠ 5 →
      s.ops.any (fun e => e.opc == opFNC && e.queue == o.queue && e.ctx == o.ctx && e.phase != .done && decide (e.id < o.id)) = false →
      findGroup s (collDesc o.desc).group = some g → s.coll? id = some c → g.st = 1 → c.phase = 0 → c.ticket ≠ none →
      g.roster.epoch = (collDesc o.desc).epoch →
      (s.colls.filter (fun x => decide (1 ≤ x.phase))).length < 64 →
      (s.startedOf g.roster < c.prior → exec (.collectiveStart id) s = .next s) ∧
      (s.startedOf g.roster = c.prior →
        let c1 : Coll := { c with phase := 1, since := s.time, member := if c.member = g.roster.standin then c.member else g.roster.member }
        let s1 := noteStarted (s.bump kTicketWaitNs (s.time - c.since)) g.roster
        let s2 := (s1.putOp { o with phase := .started, startedAt := s.time }).putColl c1
        exec (.collectiveStart id) s = .next (s.inside (sendJoin s2 ⟨o.ctx, collDesc o.desc, g.roster⟩ c1))))

/-- R498, R499, R508, R509 and R510: a JOIN from a member that a collector waits for is held, and the collector forwards or decides
once its set is complete; GO lets the device's collectives of the ticket move and ABORT ends them with its cause, both passed on by a
collector; packets without a collective are discarded; a collective whose wait expires tells its group, ends with 0x0402, and its
ticket's later packets are late. -/
def Obligations.JoinGoAndAbort : Prop :=
  ∀ (pkt : Packet) (s : State), s.off = false →
    let h := pkt.hdr
    let cause := leNat (pkt.data.take 2)
    -- GO and ABORT of a collective that runs here
    (∀ p, packetColl s h = some p →
      (pLevel h = 1 → exec (.collGo pkt) s = .next (s.inside (decide1 s p.2 (pTicket h) none))) ∧
      (pLevel h ≠ 1 → exec (.collGo pkt) s = .next (s.inside
        ((s.colls.filter (fun c => c.ticket == some (pTicket h) && c.phase == 1)).foldl
          (fun s c => s.putColl { c with phase := 2, since := s.time }) s))) ∧
      (pLevel h = 1 → p.1.phase = 1 → exec (.collAbort pkt) s = .next (s.inside (decide1 s p.2 (pTicket h) (some cause)))) ∧
      ((pLevel h ≠ 1 ∨ p.1.phase ≠ 1) → exec (.collAbort pkt) s = .next (s.inside
        ((s.colls.filter (fun c => c.ticket == some (pTicket h) && (c.phase == 1 || c.phase == 2))).foldl (fun s c => endColl s c cause) s)))) ∧
    (packetColl s h = none → ∀ i ∈ [Instr.collGo pkt, .collAbort pkt, .chunk pkt, .withheld pkt], exec i s = .next (s.inside (discardPacket s h))) ∧
    -- JOIN at a collector
    (s.late.contains (pTicket h) = true → exec (.collJoin pkt) s = .next (s.inside (discardPacket s h))) ∧
    (∀ g, findGroup s (pGroup h) = some g → g.roster.epoch = pEpoch h → s.late.contains (pTicket h) = false →
      let lvl := if pLevel h = 1 then 1 else 0
      let E : CollEnv := ⟨0, { (default : CollDesc) with group := pGroup h, epoch := pEpoch h }, g.roster⟩
      let senders := if lvl = 1 then (List.range (setCount g.roster.size)).map (256 * ·)
        else ((List.range (setCount g.roster.size)).filter (fun j => addrIs g.roster s.self (256 * j))).flatMap (setMembers g.roster.size)
      let found := senders.find? (fun m => addrIs g.roster (pSrc h) m &&
        !s.joins.any (fun j => j.ticket == pTicket h && j.level == lvl && j.member == m))
      let k := pkt.data.length - 3
      (found = none → exec (.collJoin pkt) s = .next s) ∧
      (∀ m, found = some m →
        let one : CollJoin := { ticket := pTicket h, level := lvl, member := m, sig := pkt.data.take k
                                code := leNat ((pkt.data.drop k).take 2), differ := (pkt.data.drop (k + 2)).headD 0 == 1 }
        let s1 : State := { s with joins := one :: s.joins }
        (lvl = 1 → exec (.collJoin pkt) s = .next (s.inside (decideTop s1 E (pTicket h)))) ∧
        (lvl = 0 → exec (.collJoin pkt) s = .next (s.inside (collect0 s1 E (pTicket h) (m / 256)))))) ∧
    -- the wait of R508
    (∀ id c o, s.coll? id = some c → s.op? id = some o → o.phase ≠ .done → c.phase < 3 →
      let limit := (if (collDesc c.desc).timeoutUs = 0 then s.obj kCollTimeoutUs else (collDesc c.desc).timeoutUs) * 1000
      (s.expired c.since limit = false → exec (.collectiveWaitExpiry id) s = .next s) ∧
      (s.expired c.since limit = true →
        (∃ t, exec (.collectiveWaitExpiry id) s = .next t ∧ (∀ k, c.ticket = some k → t.late.contains k = true) ∧
          EndedAs t id 0x0402 (if c.phase = 2 ∧ writes (collDesc c.desc) c.member then (collDesc c.desc).chunks - c.written.length else 0)) ∧
        (c.ticket = none →
          let t := endColl s c 0x0402
          let d := collDesc c.desc
          exec (.collectiveWaitExpiry id) s = .next (s.inside { t with late := askKey d.group d.epoch d.gseq :: t.late })) ∧
        (∀ k g, c.ticket = some k → findGroup s (collDesc c.desc).group = some g →
          let others := (((List.range g.roster.size).filterMap (memberAddr g.roster)).filter (· ≠ s.self)).dedup
          let told := others.foldl (fun u a => sendPacket u
            { dst := a, src := u.self, kind := 2, group := g.roster.group, epoch := g.roster.epoch, ticket := k } 0 (leBytes 2 0x0402)) s
          let t := endColl told c 0x0402
          exec (.collectiveWaitExpiry id) s = .next (s.inside { t with late := k :: t.late }))))

/-- R503 and R504: a CHUNK that came before is discarded and counted; one whose check fails is asked for once more, and withheld and
counted where it fails again; a good one is acknowledged and reduced, held until GO, or written and passed on; an acknowledgement
releases the chunk, RESEND sends it once more, and WITHHELD stands for a chunk on its way up or down. -/
def Obligations.ChunkRules : Prop :=
  ∀ (pkt : Packet) (s : State), s.off = false →
    let h := pkt.hdr
    let t := pTicket h
    let k := pChunk h
    let l := pLevel h
    let answer : Nat → Hdr := fun kind =>
      { dst := pSrc h, src := s.self, kind := kind, group := pGroup h, epoch := pEpoch h, ticket := t, chunk := k, level := l }
    (∀ c E, packetColl s h = some (c, E) →
      (chunkSource s E c h = none → exec (.chunk pkt) s = .next (s.bump kCollDupCount 1)) ∧
      (∀ src, chunkSource s E c h = some src →
        let key := (k, l, src)
        let fresh : CollPart := { chunk := k, level := l, src := src }
        let ok := sendPacket (s.putColl { c with seen := key :: c.seen, since := s.time }) (answer 4) 0 []
        let lost := sendPacket ((s.putColl { c with seen := key :: c.seen, since := s.time }).bump kCollChunkFail 1) (answer 4) 0 []
        (packetCrc pkt.pre pkt.data ≠ pkt.crc → c.again.contains key = false →
          exec (.chunk pkt) s = .next (s.inside (sendPacket (s.putColl { c with again := key :: c.again, since := s.time }) (answer 5) 0 []))) ∧
        (packetCrc pkt.pre pkt.data ≠ pkt.crc → c.again.contains key = true →
          (l = 7 → exec (.chunk pkt) s = .next (s.inside (collProgress (takeDown lost E c.op t k (.error 0x0404)) E c.op))) ∧
          (l ≠ 7 → exec (.chunk pkt) s = .next (s.inside (collProgress (takePart lost E c.op t { fresh with bad := 0x0404 }) E c.op)))) ∧
        (packetCrc pkt.pre pkt.data = pkt.crc →
          (l ≠ 7 → exec (.chunk pkt) s = .next (s.inside (collProgress
            (takePart ok E c.op t { fresh with scale := pkt.pre % 256, bytes := pkt.data }) E c.op))) ∧
          (l = 7 → c.phase ≠ 1 → exec (.chunk pkt) s = .next (s.inside (collProgress (takeDown ok E c.op t k (.ok pkt.data)) E c.op))) ∧
          (l = 7 → c.phase = 1 → ∀ c1, ok.coll? c.op = some c1 → exec (.chunk pkt) s = .next (s.inside (collProgress
            (ok.putColl { c1 with parts := { fresh with bytes := pkt.data } :: c1.parts }) E c.op))))) ∧
      (let reason := if pkt.data.length < 2 then 0x0404 else leNat (pkt.data.take 2)
       let s1 := s.putColl { c with since := s.time }
       (l = 7 → exec (.withheld pkt) s = .next (s.inside (collProgress (takeDown s1 E c.op t k (.error reason)) E c.op))) ∧
       (l ≠ 7 → chunkSource s E c h = none → exec (.withheld pkt) s = .next (s.inside (collProgress s1 E c.op))) ∧
       (l ≠ 7 → ∀ src, chunkSource s E c h = some src → exec (.withheld pkt) s = .next (s.inside (collProgress
         (takePart s1 E c.op t { chunk := k, level := l, src := src, bad := reason }) E c.op))))) ∧
    (let mine := s.colls.filter (fun c => epochOk s h && c.ticket == some t)
     let this : CollSent → Bool := fun x => x.dst == pSrc h && x.chunk == k && x.level == l
     (∀ c, mine.find? (fun c => c.sent.any this) = some c →
       let s1 := s.putColl { c with since := s.time, sent := c.sent.filter (fun x => !this x) }
       (∀ E, collEnv s c = some E → exec (.chunkAck pkt) s = .next (s.inside (collProgress s1 E c.op))) ∧
       (collEnv s c = none → exec (.chunkAck pkt) s = .next (s.inside s1))) ∧
     (mine.find? (fun c => c.sent.any this) = none → exec (.chunkAck pkt) s = .next (s.inside (discardPacket s h))) ∧
     (∀ x, mine.findSome? (fun c => c.sent.find? this) = some x →
       exec (.resend pkt) s = .next (s.inside ((sendPacket s
         { dst := x.dst, src := s.self, kind := 3, group := pGroup h, epoch := pEpoch h, ticket := t, chunk := x.chunk, level := x.level }
         x.scale x.bytes).bump kCollResendCount 1))) ∧
     (mine.findSome? (fun c => c.sent.find? this) = none → exec (.resend pkt) s = .next (s.inside (discardPacket s h))))

/-- R449: a remote SIGNAL of the current epoch adds its value, modulo 2^64, to a word that lies in an ACTIVE context's range, and is
dropped and counted otherwise. -/
def Obligations.RemoteSignalRules : Prop :=
  ∀ (pkt : Packet) (s : State), s.off = false → epochOk s pkt.hdr = true →
    let w := leNat (pkt.data.take 2)
    let v := leNat ((pkt.data.drop 2).take 8)
    (s.ctxs.any (fun p => p.2.st == .active && sigOwned p.2.record w) = true →
      ∃ t, exec (.remoteSignal pkt) s = .next t ∧ kvGet 0 t.sig w = (kvGet 0 s.sig w + v) % 2 ^ 64 ∧
        (∀ x, x ≠ w → kvGet 0 t.sig x = kvGet 0 s.sig x) ∧ t = { s with sig := t.sig }) ∧
    (s.ctxs.any (fun p => p.2.st == .active && sigOwned p.2.record w) = false →
      exec (.remoteSignal pkt) s = .next (s.bump kSigRemoteDrop 1))

/-! ## Ingest (R399 to R425) -/

/-- R399 to R403 and R469: an ING whose checks pass chooses the sources of its list and, once what that reads of host memory has come,
lets the context's carry entries grow older and begins its batch; a begun batch goes on; a list that fails a check, or a source that cannot be read, ends the op with its code. -/
def Obligations.IngBatchesFromLists : Prop :=
  ∀ (s : State) (id : Nat) (o : Op), Works s id o .ing →
    (∀ c e, ingJob? s o.id = none → ingChecked s o = (.error c, e) → exec (.ing id) s = .next (s.inside (onRead s o e (settle s o e c)))) ∧
    (∀ I e, ingJob? s o.id = none → ingChecked s o = (.ok I, e) →
      let chosen : Except Nat (List IngSample) × Eff := (chooseAll s (s.opEnv o) o I ((List.range I.list.length).zip I.list) []).run e
      (∀ c, chosen.1 = .error c → exec (.ing id) s = .next (s.inside (onRead s o chosen.2 (settle s o chosen.2 c)))) ∧
      (∀ xs, chosen.1 = .ok xs →
        let s1 := ageCarries s o.ctx (I.list.map (fun w => (ingEntry w).key))
        exec (.ing id) s = .next (s.inside (onRead s o chosen.2 (ingProgress { s1 with ing := s1.ing ++ [jobNow o.id I xs] } o I xs chosen.2))) ∧
        (o.hostOk = true → exec (.ing id) s = .next (s.inside (ingProgress { s1 with ing := s1.ing ++ [jobNow o.id I xs] } o I xs chosen.2))))) ∧
    (∀ j I e, ingJob? s o.id = some j → ingChecked s o = (.ok I, e) →
      exec (.ing id) s = .next (s.inside (ingProgress s o I j.samples {})))

/-- R401 to R404: a decode's sample takes its pictures when the decode completes, or leaves the batch for a carry entry once sixteen
times of its context are known and its deadline has passed; a clip that cannot be read ends the op with the access's code. -/
def Obligations.IngDecodes : Prop :=
  ∀ (s : State) (id k c : Nat) (o : Option Op) (x : IngSample), s.off = false →
    let E := s.env c
    (∀ ps pics r, findDecode s id k false = some (o, c, x) →
      ((clipPlan E x).run {} : Except Nat (List Config.Picture) × Eff) = (.ok pics, r) →
      exec (.deviceDecodeComplete id k ps) s = .next (s.inside (putDecode (noteTime (s.effect E r) c ps) o x
        { x with st := 2, pics := kept (ingEntry x.begun) pics }))) ∧
    (∀ ps code r p, findDecode s id k false = some (o, c, x) → o = some p →
      ((clipPlan E x).run {} : Except Nat (List Config.Picture) × Eff) = (.error code, r) →
      exec (.deviceDecodeComplete id k ps) s = .next (s.inside (dropIng (finishOp (s.effect E r) p.id code 0) p.id))) ∧
    (∀ r, findDecode s id k true = some (o, c, x) →
      ((hostResult E x).run {} : Except Nat (Option (List Config.Picture)) × Eff) = (.ok none, r) →
      exec (.hostDecodeResult id k) s = .next s) ∧
    (∀ ps r, findDecode s id k true = some (o, c, x) →
      ((hostResult E x).run {} : Except Nat (Option (List Config.Picture)) × Eff) = (.ok (some ps), r) →
      exec (.hostDecodeResult id k) s = .next (s.inside (putDecode
        (noteTime (s.effect E r) c ((s.time - x.since) * 1000 / max 1 (lumaOf (ingEntry x.begun)))) o x
        { x with st := 2, pics := ps }))) ∧
    (∀ p, (ingJob? s id).bind (fun j => j.samples.find? (fun x => x.origin == (id, k) && x.st == 1 && !x.carried)) = some x →
      s.op? id = some p →
      let limit := s.obj kIngDeferFactor * median (timesOf s p.ctx) * lumaOf (ingEntry x.entry) / 1000
      (((ingDesc p.desc).strict = true ∨ (timesOf s p.ctx).length < 16 ∨ s.expired x.since limit = false) →
        exec (.ingDecodeDeadline id k) s = .next s) ∧
      ((ingDesc p.desc).strict = false → 16 ≤ (timesOf s p.ctx).length → s.expired x.since limit = true →
        let n : Carry := { ctx := p.ctx, sample := x }
        let s1 : State := { s with carries := s.carries ++ [n] }
        exec (.ingDecodeDeadline id k) s =
          .next (s.inside (putDecode (s1.bump kIngDeferred 1) (some p) x { x with st := 3, event := 2 }))))

/-- R405, R418, R419 and R469: a live batch is taken at its time T, once what it reads of host memory has come, when every stream of an aligned op holds an entry after T, or once the wait
has expired; a stamped batch is taken at once; each lets the context's carry entries grow older; an entry that is published is noted,
and may be the last that was missing. -/
def Obligations.LiveBatches : Prop :=
  ∀ (s : State) (id : Nat) (o : Op) (I : IngEnv) (e e1 : Eff), ingChecked s o = (.ok I, e) →
    let done := onRead s o e1 (dropIng (settle (ageCarries s o.ctx []) o e1 (firstCode ingOrder e1.codes)) o.id)
    (Works s id o .ingAligned →
      (allMet s o I = false → ingJob? s o.id = none → exec (.ingLiveAligned id) s = .next { s with ing := s.ing ++ [{ op := o.id }] }) ∧
      (((livePlan (s.opEnv o) I true (alignT s I)).run e : Except Nat Unit × Eff) = (.ok (), e1) →
        (allMet s o I = true → exec (.ingLiveAligned id) s = .next (s.inside done)) ∧
        (s.expired (alignT s I) (s.obj kLiveAlignWaitNs) = true → exec (.liveAlignWaitExpiry id) s = .next (s.inside done))) ∧
      (∀ j k, ingJob? s o.id = some j → j.met.contains k = false →
        let s1 := putIng s { j with met := k :: j.met }
        exec (.liveEntryPublished id k) s = .next (s.inside (takeLive s1 o true (alignT s1) (allMet s1 o))))) ∧
    (Works s id o .ingStamped →
      ((livePlan (s.opEnv o) I false o.startedAt).run e : Except Nat Unit × Eff) = (.ok (), e1) →
      exec (.ingLiveStamped id) s = .next (s.inside done))

/-! ## Prefetch schedules (R306 to R312) -/

/-- R306, R308, R309, R310 and R312: a RUN is checked, waits for the earlier RUNs of its context and for one of sixteen schedules, and
starts with its first entry; a CANCEL ends the earlier RUN it names with 0x01A1, and is ignored where there is none;
an entry whose gate is met starts its copy, or waits for the window, and the next entry becomes current; a copy that completes leaves
its bytes, and with the last one the run completes (copies whose source lies in host memory send their reads when they start); an op held too long cancels the schedules that hold it. -/
def Obligations.PrefetchRules : Prop :=
  ∀ (s : State) (id : Nat) (o : Op),
    let d := pftDesc o.desc
    (Started s id o .pftRun → s.scheds.any (fun x => x.op == o.id) = false →
      (pftReservedOk o.desc = false → ∃ t, exec (.pftRun id) s = .next t ∧ EndedAs t id 0x0104 0) ∧
      (pftReservedOk o.desc = true → (aligned d.addr 32 = false ∨ d.window = 0 ∨ d.entries = 0) →
        ∃ t, exec (.pftRun id) s = .next t ∧ EndedAs t id 0x01A0 0) ∧
      (∀ p ∈ earlierRuns s o, (pftDesc p.desc).id = d.id → pftReservedOk o.desc = true →
        ∃ t, exec (.pftRun id) s = .next t ∧ EndedAs t id 0x01A0 0) ∧
      (pftReservedOk o.desc = true → aligned d.addr 32 = true → d.window ≠ 0 → d.entries ≠ 0 →
        (∀ p ∈ earlierRuns s o, (pftDesc p.desc).id ≠ d.id) →
        (16 ≤ s.scheds.length ∨ ∃ p ∈ earlierRuns s o, s.scheds.any (fun x => x.op == p.id) = false) → exec (.pftRun id) s = .next s) ∧
      (∀ w e, pftReservedOk o.desc = true → aligned d.addr 32 = true → d.window ≠ 0 → d.entries ≠ 0 →
        (∀ p ∈ earlierRuns s o, (pftDesc p.desc).id ≠ d.id ∧ s.scheds.any (fun x => x.op == p.id) = true) →
        s.scheds.length < 16 →
        let x : Sched := { op := o.id, ctx := o.ctx, id := d.id, addr := d.addr, entries := d.entries, rep := d.rep, window := d.window }
        ((rdRec (schedEnv s x) x.addr 32).run {} : Except Nat Nat × Eff) = (.ok w, e) → schedEntryOk w = true →
        let s1 := s.effect (schedEnv s x) e
        exec (.pftRun id) s = .next { s1 with scheds := s1.scheds ++ [becomeCurrent s1 x 0 (schedEntry w)] })) ∧
    (Started s id o .pftCancel → pftReservedOk o.desc = true →
      (∀ p, (earlierRuns s o).find? (fun p => (pftDesc p.desc).id == d.id) = some p →
        (∀ x, s.scheds.find? (fun x => x.op == p.id) = some x →
          exec (.pftCancel id) s = .next (s.inside (finishOp (cancelSched s x 0x01A1) o.id 0 0))) ∧
        (s.scheds.find? (fun x => x.op == p.id) = none →
          exec (.pftCancel id) s = .next (s.inside (finishOp ((finishOp s p.id 0x01A1 0).bump kPftCancelCount 1) o.id 0 0)))) ∧
      ((earlierRuns s o).find? (fun p => (pftDesc p.desc).id == d.id) = none →
        exec (.pftCancel id) s = .next (s.inside (finishOp (s.bump kReelIgnoredCount 1) o.id 0 0)))) ∧
    (∀ c k x e, s.off = false → s.sched? c k = some x → x.cur = some e →
      (gateMet s x = false → exec (.pftGateMet c k) s = .next s) ∧
      (gateMet s x = true →
        let z : Sched := { x with ready := x.ready ++ [(x.pos, e)], cur := none }
        exec (.pftGateMet c k) s = .next (s.inside (nextEntry (startCopies s z) (fillWindow z) (x.pos + 1))))) ∧
    (∀ z : Sched, (∀ q ∈ (fillWindow z).inflight.drop z.inflight.length, copyReads s (fillWindow z) q = []) →
      startCopies s z = putSched s (fillWindow z)) ∧
    (∀ c k n x p, s.off = false → s.sched? c k = some x → x.inflight.find? (fun p => p.1 == n) = some p →
      copyWaits s x n = false → (schedCopy s x p.2).2 = 0 →
      let z : Sched := { x with inflight := x.inflight.filter (fun q => q.1 ≠ n) }
      let y := fillWindow z
      let s1 := (startCopies (schedCopy s x p.2).1 z).bump kPftEntriesDone 1
      ((y.cur ≠ none ∨ y.ready ≠ [] ∨ y.inflight ≠ []) → exec (.pftCopyComplete c k n) s = .next (s.inside s1)) ∧
      (y.cur = none → y.ready = [] → y.inflight = [] →
        exec (.pftCopyComplete c k n) s =
          .next (s.inside (finishOp { s1 with scheds := s1.scheds.filter (fun z => z.op ≠ x.op) } x.op 0 0)))) ∧
    (∀ t, s.off = false → s.op? id = some o → o.phase = .placed → o.heldSince = some t →
      (s.expired t (s.obj kPftHoldLimitUs * 1000) = false → exec (.pftHoldLimit id) s = .next s) ∧
      (s.expired t (s.obj kPftHoldLimitUs * 1000) = true →
        exec (.pftHoldLimit id) s = .next (s.inside
          ((s.scheds.filter (fun x => heldBy x o)).foldl (fun s x => cancelSched s x 0x01A1) s))))

/-! ## Links (R461 to R489) -/

/-- R469: a completion of a device read releases the op that waits for it; a failed one, or one that does not come within
`ZL_CPL_TIMEOUT_US`, ends the op with 0x0207; a completion of no outstanding read is counted and changes nothing else. -/
def Obligations.HostReadRules : Prop :=
  ∀ (s : State) (p tag : Nat), s.off = false → p < 2 →
    (findRead s p tag = none →
      (∀ err, exec (.hostReadCompletion p tag err) s = .next (s.bump kZlLateCplCount 1)) ∧ exec (.hostReadTimeout p tag) s = .next s) ∧
    (∀ r o, findRead s p tag = some r → s.op? r.op = some o →
      exec (.hostReadCompletion p tag 0) s = .next (s.inside (readCame (dropRead s r) o)) ∧
      (o.hostTodo = [] → exec (.hostReadCompletion p tag 0) s = .next ((dropRead s r).putOp
        { o with hostOk := (dropRead s r).zlReads.all (fun x => x.op != o.id) })) ∧
      (∀ err, err ≠ 0 → o.phase = .started →
        (s.coll? r.op = none → (formOf o.desc).bind (opPlan s o) = none →
          ∃ t, exec (.hostReadCompletion p tag err) s = .next t ∧ EndedAs t r.op 0x0207 0) ∧
        (∀ c, s.coll? r.op = some c →
          let s1 := dropRead s r
          exec (.hostReadCompletion p tag err) s = .next (s.inside
            (endColl { s1 with zlReads := s1.zlReads.filter (fun x => x.op ≠ r.op) } c 0x0207)))) ∧
      (s.expired r.since (s.obj kZlCplTimeoutUs * 1000) = false → exec (.hostReadTimeout p tag) s = .next s) ∧
      (s.expired r.since (s.obj kZlCplTimeoutUs * 1000) = true →
        exec (.hostReadTimeout p tag) s = .next (s.inside (failHostRead (dropRead s r) r))))

/-- R464, R487 and R461: a flit or frame that arrives at a port which is not ACTIVE is lost; at an ACTIVE port one whose check, order
or type is wrong is answered with one NAK and discarded, and a good one moves the expected sequence number on. -/
def Obligations.ReceivedFramesKeepTheirOrder : Prop :=
  ∀ (s : State) (zl : Bool) (p ctrl data : Nat) (bad : Bool), p < (if zl then s.zl.length else s.soune.length) →
    let x := s.port zl p
    let r := receiveFrame s zl p ctrl data bad
    (portActive zl x = false → r = (s, false)) ∧
    (portActive zl x = true →
      (bad = true ∨ ctlOk zl ctrl data = false ∨ (ctlOf zl ctrl).seq ≠ x.nextIn ∨ (ctlOf zl ctrl).ftype = 3) →
      r.2 = false ∧ (r.1.port zl p).nextIn = x.nextIn ∧ (r.1.port zl p).naked = true ∧
        (x.naked = true → r.1 = s)) ∧
    (portActive zl x = true → bad = false → ctlOk zl ctrl data = true → (ctlOf zl ctrl).seq = x.nextIn → (ctlOf zl ctrl).ftype ≠ 3 →
      r.2 = true ∧ (r.1.port zl p).nextIn = (x.nextIn + 1) % seqMod zl ∧ (r.1.port zl p).naked = false)

/-- R464, R465 and R466: a ZelugLink port takes flits by the rules of `ReceivedFramesKeepTheirOrder`; it trains from receivers on 8
or 16 lanes over DETECT, LOCK and CONFIG to ACTIVE, starts again where a state takes too long, and goes DOWN from the last states. -/
def Obligations.ZelugLinkPorts : Prop :=
  ∀ (s : State) (p : Nat), s.off = false → p < 2 →
    let x := s.port true p
    (∀ f, exec (.zlFlitReceive p f) s = .next (s.inside (receiveFrame s true p f.ctrl f.data f.uncorrectable).1)) ∧
    (∀ n, n < 8 → exec (.zlReceiverDetect p n) s = .next s) ∧
    (∀ n, 8 ≤ n → zlTrains s = true → inLoop s (64 + p) = false →
      (x.st = 0 ∨ x.st = 1 → exec (.zlReceiverDetect p n) s =
        .next { s with zl := s.zl.set p { x with st := x.st + 1, since := s.time } }) ∧
      (x.st = 2 → exec (.zlReceiverDetect p n) s =
        .next { s with zl := s.zl.set p { x with st := 3, since := s.time, lanes := if x.recovering ∨ n < 16 then 8 else 16 } }) ∧
      (x.st = 3 → x.lanes ≤ n → exec (.zlReceiverDetect p n) s = .next (s.inside (zlActivate s p))) ∧
      (x.st = 6 → x.lanes ≤ n → exec (.zlReceiverDetect p n) s = .next (s.inside (zlActivate s p)))) ∧
    (x.st = 0 ∧ s.expired x.since 12000000 = true ∨ x.st = 1 ∧ s.expired x.since 24000000 = true ∨
        x.st = 2 ∧ s.expired x.since 2000000 = true →
      exec (.zlLinkStateTimeout p) s = .next { s with zl := s.zl.set p { x with st := 0, since := s.time } }) ∧
    (x.st = 3 ∧ s.expired x.since 32000000 = true ∨ x.st = 6 ∧ s.expired x.since 1000000 = true →
      exec (.zlLinkStateTimeout p) s = .next (s.inside (zlDown s p))) ∧
    (x.st = 4 ∨ x.st = 5 ∨ x.st = 7 → exec (.zlLinkStateTimeout p) s = .next s)

/-- R487, R488 and R489: a Soune port counts the corrections and the lost frames of those that reach it while ACTIVE, takes each by the
rules of `ReceivedFramesKeepTheirOrder`, and sends its chunks again elsewhere where it leaves ACTIVE; it trains over receivers and
lock on all four lanes, returns from RECOVERY with what it held, goes DOWN where training or recovery takes too long, and after a
second in DOWN tries again, or after the third time is DISABLED. -/
def Obligations.SounePorts : Prop :=
  ∀ (s : State) (p : Nat), s.off = false → p < 36 →
    let x := s.port false p
    let setTo : Port → State := fun y => { s with soune := s.soune.set p y }
    (∀ f, portActive false x = false → exec (.souneFrameReceive p f) s = .next s) ∧
    (∀ f : SouneFrame, portActive false x = true →
      let corrected := if f.corrected = true ∧ f.uncorrectable = false then s.bump (objKey p kPortFecCorr) 1 else s
      let counted := if f.uncorrectable = true then corrected.bump (objKey p kPortFecUncorr) 1 else corrected
      let t := (receiveFrame counted false p f.ctrl f.data f.uncorrectable).1
      (portActive false (t.port false p) = true → exec (.souneFrameReceive p f) s = .next (s.inside t)) ∧
      (portActive false (t.port false p) = false → exec (.souneFrameReceive p f) s = .next (s.inside (resendPort t p)))) ∧
    (∀ n, (n < 4 ∨ souneTrains s = false ∨ inLoop s p = true ∨ x.st = 2 ∨ 4 ≤ x.st) → exec (.souneReceiverDetect p n) s = .next s) ∧
    (∀ n, 4 ≤ n → souneTrains s = true → inLoop s p = false →
      (x.st = 0 → exec (.souneReceiverDetect p n) s = .next (setTo { x with st := 1, since := s.time })) ∧
      (x.st = 1 → exec (.souneReceiverDetect p n) s =
        .next (setTo { st := 2, since := s.time, downs := x.downs, credits := [256, 256, 256, 256], lanes := 4 })) ∧
      (x.st = 3 →
        let back := setTo { x with st := 2, since := s.time, recovering := false, naked := false, wait := [] }
        (x.buf = [] → exec (.souneReceiverDetect p n) s = .next (s.inside (drainWait false p x.wait back))) ∧
        (x.buf ≠ [] → exec (.souneReceiverDetect p n) s = .next (s.inside (drainWait false p x.wait (replay back false p)))))) ∧
    (inLoop s p = false →
      (x.st = 0 → s.expired x.since 10000000 = true → exec (.sounePortTimeout p) s = .next (setTo { x with since := s.time })) ∧
      (x.st = 1 ∧ s.expired x.since 100000000 = true ∨ x.st = 3 ∧ s.expired x.since 1000000 = true →
        exec (.sounePortTimeout p) s =
          .next ((setTo { st := 4, since := s.time, downs := x.downs + 1 }).bump (objKey p kPortDownCount) 1)) ∧
      (x.st = 4 → s.expired x.since 1000000000 = true →
        exec (.sounePortTimeout p) s = .next (setTo { x with st := if 3 ≤ x.downs then 5 else 0, since := s.time })) ∧
      (x.st = 0 ∧ s.expired x.since 10000000 = false ∨ x.st = 1 ∧ s.expired x.since 100000000 = false ∨
          x.st = 3 ∧ s.expired x.since 1000000 = false ∨ x.st = 4 ∧ s.expired x.since 1000000000 = false ∨ x.st = 2 ∨ 5 ≤ x.st →
        exec (.sounePortTimeout p) s = .next s)) ∧
    (inLoop s p = true → exec (.sounePortTimeout p) s = .next s)

/-! ## Serving (R361 to R374) -/

/-- R361, R364, R365, R373 and R374: a tick doorbell of a context that is not served, with reserved bits, with the wrong `KIND`, for a
BUILD while a tick is open, or for a COMMIT or ABORT while none is or while a commit waits, is ignored and counted; otherwise BUILD
builds a tick, unless it must move pages that a started op reads and so waits (log 83), COMMIT sends mirrored rows and commits, and
ABORT undoes the open tick; BUILD and ABORT count the engine's time to their context, a free number within R375's bounds (log 86). -/
def Obligations.TickDoorbellRules : Prop :=
  ∀ (s : State) (c w : Nat), s.off = false → c < 256 → w < 2 ^ 64 →
    let ignored : State := s.bump kSeqIgnoredCount 1
    let free := isServing s c = true ∧ (s.srv c).tick.isSome = false
    let opened := isServing s c = true ∧ (s.srv c).tick.isSome = true ∧ (s.srv c).commitAt = none
    exec (.controlWindowWrite (4096 * c + 16) 8 w) s =
      exec (if bits w 63 62 = 0 then .build c w else if bits w 63 62 = 1 then .tickCommit c w else .tickAbort c w) s ∧
    (bits w 63 62 = 0 →
      (bits w 61 32 = 0 → free →
        let s1 := noteTickDb s c w
        let s2 := runFor c (buildTick c (bits w 31 0)) s1
        (devWaits (buildTick c (bits w 31 0)) s1 = true → exec (.build c w) s = .next s) ∧
        (devWaits (buildTick c (bits w 31 0)) s1 = false →
          exec (.build c w) s = .next (s.inside (mirrorEntries c s1 (engineTime s2 c 3000 (buildBound s1 s2 c)))))) ∧
      ((bits w 61 32 ≠ 0 ∨ ¬ free) → exec (.build c w) s = .next ignored)) ∧
    (bits w 63 62 = 1 →
      (bits w 61 32 = 0 → bits w 31 0 = 0 → opened →
        let s1 := noteTickDb s c w
        let s2 := s1.setSrv c { s1.srv c with commitAt := some s.time }
        let s3 := runFor c (sendRows c (if s.twin.st = 2 then mirroredWork s c else [])) s2
        ((s3.srv c).commitAt.isSome = true → (s3.srv c).acks = [] → exec (.tickCommit c w) s = .next (s.inside (finishCommit s3 c))) ∧
        ((s3.srv c).acks ≠ [] → exec (.tickCommit c w) s = .next (s.inside s3))) ∧
      ((bits w 61 32 ≠ 0 ∨ bits w 31 0 ≠ 0 ∨ ¬ opened) → exec (.tickCommit c w) s = .next ignored)) ∧
    (bits w 63 62 = 2 →
      (bits w 61 32 = 0 → bits w 31 0 = 0 → opened → ∀ k, (s.srv c).tick = some k →
        exec (.tickAbort c w) s =
          .next (s.inside (engineTime (runFor c (abortTick c) (noteTickDb s c w)) c 1000 (10000 + 20 * k.pages.length)))) ∧
      ((bits w 61 32 ≠ 0 ∨ bits w 31 0 ≠ 0 ∨ ¬ opened) → exec (.tickAbort c w) s = .next ignored)) ∧
    (bits w 63 62 = 3 → exec (.build c w) s = .next ignored ∧ exec (.tickCommit c w) s = .next ignored ∧
      exec (.tickAbort c w) s = .next ignored)

/-! ## The object dictionary (R437, R450, R561 to R572, R656) -/

/-- R561, R568 and R570: a command that writes objects is served once the management firmware runs, at a safe point; a write that a
check refuses changes nothing; writes that pass are applied together and counted as one transaction. -/
def Obligations.WritesAreTransactions : Prop :=
  ∀ (i : Instr) (s : State) (sess : Nat) (ws : List Staged), writesOf i = some (sess, ws) → s.off = false →
    ((mgmtUp s = false ∨ safePoint s = false) → exec i s = .next s) ∧
    (mgmtUp s = true → safePoint s = true →
      ((∃ w ∈ ws, checkWrite s sess false w ≠ 0) → exec i s = .next s) ∧
      ((∀ w ∈ ws, checkWrite s sess false w = 0) → ∀ t, applyWrites sess ws s = (t, none) → (∀ w ∈ ws, setFails t w = false) →
        exec i s = .next (s.inside (t.bump kTxnCommits 1))) ∧
      ((∀ w ∈ ws, checkWrite s sess false w = 0) → ∀ t, applyWrites sess ws s = (t, none) → (∃ w ∈ ws, setFails t w = true) →
        exec i s = .next (s.bump kTxnRollbacks 1)))

/-- R437, R439, R450, R457 and R474: CREATE takes a FREE context ACTIVE with the record that its registers name and empty queues,
RESTART a FAULTED one; KILL ends an ACTIVE one with cause 1; DESTROY frees a FAULTED one, or an ACTIVE one without ops; a context
command that the state does not allow is ignored and counted. -/
def Obligations.ContextCommandRules : Prop :=
  ∀ (s : State) (sess : Nat), ServesWrites s → mayCritical s sess = true → s.mgmt.locks.contains kCtxCmd = false →
    let c := s.obj kCtxSel
    let commit : State → State := fun t => s.inside (t.bump kTxnCommits 1)
    ((s.ctx c).st = .free → createOk s = true → ∀ r, ctxRecord s c = some r →
      exec (.ctxCreate sess) s = .next (commit (openCtx s c r)) ∧
      ((openCtx s c r).ctx c).st = .active ∧ ((openCtx s c r).ctx c).record = r ∧ ((openCtx s c r).ctx c).sqProd = 0 ∧
      ((openCtx s c r).ctx c).cqProd = 0 ∧ ∀ w, sigOwned r w = true → kvGet 0 (openCtx s c r).sig w = 0) ∧
    ((s.ctx c).st ≠ .free → exec (.ctxCreate sess) s = .next (commit (s.bump kCtxIgnoredCount 1))) ∧
    ((s.ctx c).st = .active → exec (.kill sess) s = .next (commit (jobFault s c 1 0))) ∧
    ((s.ctx c).st ≠ .active → exec (.kill sess) s = .next (commit (s.bump kCtxIgnoredCount 1))) ∧
    ((s.ctx c).st = .faulted → ∀ r, ctxRecord s c = some r → exec (.restart sess) s = .next (commit (openCtx s c r))) ∧
    ((s.ctx c).st ≠ .faulted → exec (.restart sess) s = .next (commit (s.bump kCtxIgnoredCount 1))) ∧
    (((s.ctx c).st = .faulted ∨ (s.ctx c).st = .active ∧ s.inflight c = []) →
      exec (.destroy sess) s = .next (commit (s.setCtx c {}))) ∧
    (((s.ctx c).st = .free ∨ (s.ctx c).st = .teardown ∨ (s.ctx c).st = .active ∧ s.inflight c ≠ []) →
      exec (.destroy sess) s = .next (commit (s.bump kCtxIgnoredCount 1)))

/-- R656 and R655: `RESET_CMD` is accepted while no context exists or on a FENCED device, and the reset takes effect 1 ms later, in the
first idle moment from then on; it keeps what its kind preserves. -/
def Obligations.CommandedResets : Prop :=
  ∀ (s : State) (sess : Nat), s.off = false →
    (ServesWrites s → mayCritical s sess = true → s.mgmt.locks.contains kResetCmd = false → (s.anyCtx = false ∨ s.twin.st = 5) →
      (∃ t, exec (.resetWarm sess) s = .next t ∧ t.boot.resetDue = some (3, s.time + 1000000) ∧ t.ctxs = s.ctxs ∧ t.dp.mem = s.dp.mem) ∧
      (∃ t, exec (.resetHard sess) s = .next t ∧ t.boot.resetDue = some (2, s.time + 1000000) ∧ t.ctxs = s.ctxs ∧ t.dp.mem = s.dp.mem)) ∧
    (∀ k at_, s.pending = [] → s.dp.hwDue = none → s.boot.resetDue = some (k, at_) →
      (s.time + 1 < at_ → ∃ t, step s = .next t ∧ t.boot = s.boot ∧ t.ctxs = s.ctxs ∧ t.ops = s.ops) ∧
      (at_ ≤ s.time + 1 → ∃ t, step s = .next t ∧ t.ops = [] ∧ t.ctxs = [] ∧ t.sig = [] ∧ bootStage t = 1 ∧ t.obj kResetKind = k ∧
        t.dp.mem.host = s.dp.mem.host ∧ t.dp.mem.flash = s.dp.mem.flash ∧ t.dp.mem.near = [] ∧ t.dp.log.flash = s.dp.log.flash ∧
        t.fw = s.fw ∧ t.pins.pwrEn = s.pins.pwrEn))

/-! ## QOP (R482, R564 to R587) -/

/-- R564, R567 and R575: a malformed network frame is dropped and counted; a frame of a session that is not open is answered with 0x0801;
in an OPEN session one without the right MAC is answered with 0x0802, and one whose counter has not risen with 0x0803, both counted. -/
def Obligations.QopFrameChecks : Prop :=
  ∀ (i : Instr) (s : State) (f : Frame) (p : Nat → Bool), qopFrame i = some (f, p) → ServesFrame s f →
    let r := reqOf f
    let s1 := touchTxn s r
    (malformed f = true → f.net = true → exec i s = .next (s.bump kQopMalformed 1)) ∧
    (malformed f = false → p r.cmd = true →
      (r.sess = 0 → f.net = true → freeRequest r = false → exec i s = .next (s.inside (respond s1 r 0x0801 []))) ∧
      (r.sess ≠ 0 → session? s1 r.sess = none → exec i s = .next (s.inside (respond s1 r 0x0801 []))) ∧
      (∀ x, r.sess ≠ 0 → session? s1 r.sess = some x →
        (x.opened = false → freeRequest r = false → exec i s = .next (s.inside (respond s1 r 0x0801 []))) ∧
        (x.opened = true →
          (macOf (x.keys.take 32) (f.bytes.take (32 + r.body.length)) ≠ f.bytes.drop (32 + r.body.length) →
            exec i s = .next (s.inside (respond (s1.bump kQopAuthFail 1) r 0x0802 []))) ∧
          (qMacEn (frameHdr f) = true → macOf (x.keys.take 32) (f.bytes.take (32 + r.body.length)) = f.bytes.drop (32 + r.body.length) →
            qCounter (frameHdr f) ≤ x.inCtr → exec i s = .next (s.inside (respond (s1.bump kQopAuthFail 1) r 0x0803 []))))))

/-- R566, R568, R569, R570 and R571: READ answers with the object's bytes or a code; a WRITE outside a transaction is applied at once,
one within it is checked and staged; BEGIN opens the only transaction of its session; COMMIT waits for its safe point and then applies
every write or none; ROLLBACK and expiry drop the writes. -/
def Obligations.QopReadsAndTransactions : Prop :=
  ∀ (s u : State) (f : Frame) (q : Req), Passes s f u q →
    (q.cmd = 1 → q.body.length = 12 →
      let r := readObj u q.sess (refIndex q) (refSub q) (refOffset q) (leNat (q.body.drop 8)) (respRoom q)
      (∀ bs, r = .ok bs → exec (.qopRead f) s = .next (s.inside (respond u q 0 bs))) ∧
      (∀ c, r = .error c → exec (.qopRead f) s = .next (s.inside (respond u q c [])))) ∧
    (q.cmd = 2 → 8 ≤ q.body.length →
      let w : Staged := { index := refIndex q, sub := refSub q, offset := refOffset q, bytes := q.body.drop 8 }
      (q.txn = 0 →
        exec (.qopWrite f) s = .next (s.inside (respond (writeAlone u q.sess [w]).1 q (writeAlone u q.sess [w]).2 []))) ∧
      (∀ t, q.txn ≠ 0 → txnOf u q = some t → checkWrite (overlay u t.writes) q.sess false w = 0 → counterIgnored w = false →
        t.writes.length < 256 → (t.writes.map (·.bytes.length)).sum + w.bytes.length ≤ 16384 →
        exec (.qopWrite f) s = .next (s.inside (respond (putTxn u { t with writes := t.writes ++ [w] }) q 0 [])))) ∧
    (q.cmd = 3 → q.body = [] →
      (u.mgmt.txns.any (fun t => t.sess == q.sess) = true → exec (.qopBegin f) s = .next (s.inside (ignoreReq u q))) ∧
      (u.mgmt.txns.any (fun t => t.sess == q.sess) = false → u.mgmt.lastTxn + 1 < 2 ^ 32 →
        let n := u.mgmt.lastTxn + 1
        let t : Txn := { id := n, sess := q.sess, since := u.time }
        exec (.qopBegin f) s = .next (s.inside
          (respond { u with mgmt := { u.mgmt with lastTxn := n, txns := u.mgmt.txns ++ [t] } } { q with txn := n } 0 [])))) ∧
    (∀ t, q.body = [] → txnOf u q = some t →
      (q.cmd = 4 → exec (.qopCommit f) s = .next (s.inside (putTxn u { t with commit := some q }))) ∧
      (q.cmd = 5 → exec (.qopRollback f) s = .next (s.inside (respond ((dropTxn u t.id).bump kTxnRollbacks 1) q 0 []))))

/-- R570 and R571: at its safe point a COMMIT applies every staged write, or rolls back and answers with the code and the write that
failed; a transaction that no frame has named for 5 s expires and is counted. -/
def Obligations.TransactionEnds : Prop :=
  ∀ (s : State) (n : Nat) (t : Txn), s.off = false → s.mgmt.txns.find? (fun t => t.id == n) = some t →
    (∀ r, t.commit = some r →
      (safePoint s = false → exec (.commitSafePoint n) s = .next s) ∧
      (safePoint s = true →
        (∀ u, applyTxn s t.sess t.writes = (u, 0, none) →
          exec (.commitSafePoint n) s = .next (s.inside (respond ((dropTxn u t.id).bump kTxnCommits 1) r 0 []))) ∧
        (∀ u c w, c ≠ 0 → applyTxn s t.sess t.writes = (u, c, some w) →
          exec (.commitSafePoint n) s = .next (s.inside
            (respond ((dropTxn u t.id).bump kTxnRollbacks 1) r c (leBytes 2 w.index ++ [w.sub])))))) ∧
    (t.commit = none →
      (s.expired t.since 5000000000 = false → exec (.txnExpiry n) s = .next s) ∧
      (s.expired t.since 5000000000 = true → ∃ u, exec (.txnExpiry n) s = .next u ∧
        u.mgmt.txns = s.mgmt.txns.filter (fun x => x.id ≠ t.id) ∧ (t.sess, t.id) ∈ u.mgmt.expired ∧
        u.obj kTxnExpired = min (s.obj kTxnExpired + 1) (2 ^ 64 - 1)))

/-- R571, R573 and R577: HELLO opens a PENDING session unless eight exist; KEYX with a good proof of a known operator makes it OPEN, and
with a bad one ends it; CLOSE, 10 s of waiting and idling end a session, and its transaction with it. -/
def Obligations.SessionRules : Prop :=
  (∀ (s u : State) (f : Frame) (q : Req), Passes s f u q →
    (q.cmd = 6 → q.body.length = 1314 →
      (8 ≤ u.mgmt.sessions.length → exec (.qopHello f) s = .next (s.inside (respond u q 0x080D []))) ∧
      (u.mgmt.sessions.length < 8 → ∃ t, exec (.qopHello f) s = .next t ∧
        ∃ x, t.mgmt.sessions = u.mgmt.sessions ++ [x] ∧ x.id = nextSession u ∧ x.opened = false ∧ x.since = u.time)) ∧
    (∀ x, q.cmd = 7 → q.body = [] → session? u q.sess = some x → x.opened = false →
      let good := u.mgmt.operators.any (fun o => o.1 == x.operator) && Config.proofOk x.operator x.transcript x.client
      (good = true → exec (.qopKeyx f) s = .next (s.inside (respond
        (setSession u { x with opened := true, since := u.time
                               keys := sessionKeys x.transcript x.exchange, outCtr := 0 })
        { q with mac := true } 0 []))) ∧
      (good = false → exec (.qopKeyx f) s = .next (s.inside (endSession (respond u q 0x0804 []) x.id)))) ∧
    (q.cmd = 8 → q.body = [] → ∃ t, exec (.qopClose f) s = .next t ∧ (∀ x ∈ t.mgmt.sessions, x.id ≠ q.sess) ∧
      (∀ x ∈ t.mgmt.txns, x.sess ≠ q.sess))) ∧
  (∀ (s : State) (n : Nat) (x : Session), s.off = false → session? s n = some x →
    (x.opened = false → s.expired x.since 10000000000 = true → ∃ t, exec (.sessionPendingExpiry n) s = .next t ∧
      t.mgmt.sessions = s.mgmt.sessions.filter (fun y => y.id ≠ n) ∧ (∀ y ∈ t.mgmt.txns, y.sess ≠ n)) ∧
    (x.opened = true → s.expired x.since (s.obj kSessionIdleS * 1000000000) = true → ∃ t, exec (.sessionIdleExpiry n) s = .next t ∧
      t.mgmt.sessions = s.mgmt.sessions.filter (fun y => y.id ≠ n) ∧ (∀ y ∈ t.mgmt.txns, y.sess ≠ n)))

/-- R566, R579, R585 to R587: LOG_READ answers with entries from a number on, ATTEST makes the record and its signatures readable, a
group-management message is taken, and any other command is answered with 0x0806; LOG_FLUSH moves waiting entries to management flash,
each with the chain over the one before it. -/
def Obligations.LogAndAttestation : Prop :=
  (∀ (s u : State) (f : Frame) (q : Req), Passes s f u q →
    (q.cmd = 9 → q.body.length = 10 → exec (.logRead f) s = .next (s.inside (respond u q 0
      (((u.dp.log.flash.filter (fun e => decide (leNat (q.body.take 8) ≤ e.seq))).take
        (min (leNat (q.body.drop 8)) (if q.net then 10 else 31))).flatMap (fun e => fit 32 e.chain ++ entryTail e))))) ∧
    (q.cmd = 10 → q.body.length = 32 → ∃ t, exec (.attest f) s = .next t ∧ t.obj kAttestRecord = leNat (attestRecord u q.body)) ∧
    (q.cmd = 16 → exec (.mgr f) s = .next (s.inside (respond u q 0 []))) ∧
    (q.cmd = 0 ∨ 11 ≤ q.cmd ∧ q.cmd ≠ 16 → exec (.unknownQcmd f) s = .next (s.inside (respond u q 0x0806 [])))) ∧
  (∀ (s : State) (e : LogEntry) (es : List LogEntry), s.off = false → s.dp.log.sram = e :: es → s.dp.log.dropFrom = 0 →
    s.dp.log.flash ≠ [] → s.dp.log.flash.length < 65536 →
    let c := sha256 (s.dp.log.headChain ++ entryTail e)
    ∃ t, exec (.logFlush 1) s = .next t ∧ t.dp.log.sram = es ∧ t.dp.log.flash = s.dp.log.flash ++ [{ e with chain := c }] ∧
      t.dp.log.headChain = c)

/-! ## The memory system on its own (R276, R291 to R296, R338, R339) -/

/-- R276, R291, R294, R296, R337 to R339: a flush ends; a generator's run leaves its results and at most sixteen mismatches; scrub
reads one sector, and after a full pass counts it and forgets the pass's row counts; the unit of a block whose reads reach the limit
moves to a free block, that of a cold block to a worn one where erase counts differ too far, and the block it leaves is erased. -/
def Obligations.MemoryHousekeeping : Prop :=
  ∀ (s : State), s.off = false →
    exec .cacheFlushComplete s = .next { s with dp := { s.dp with flushing := false } } ∧
    (∀ c run, c < 320 →
      ((kvGet {} s.dp.tg c).running = false → exec (.tgRunComplete c run) s = .next s) ∧
      ((kvGet {} s.dp.tg c).running = true → ∃ t, exec (.tgRunComplete c run) s = .next t ∧
        (kvGet {} t.dp.tg c).done = true ∧ (kvGet {} t.dp.tg c).running = false ∧
        (kvGet {} t.dp.tg c).fail = !run.mismatches.isEmpty ∧ (kvGet {} t.dp.tg c).passes = run.passes ∧
        (kvGet {} t.dp.tg c).log = run.mismatches.take 16 ∧ (∀ b, b ≠ c → kvGet {} t.dp.tg b = kvGet {} s.dp.tg b))) ∧
    (∀ sec sev, sec * 32 < Config.stackCount * Config.stackBytes →
      (scrubSkips s.dp sec = true → exec (.patrolScrub sec sev false) s = .next s) ∧
      (scrubSkips s.dp sec = false → exec (.patrolScrub sec sev false) s = .next (s.inside (scrubSector s sec sev))) ∧
      (scrubSkips s.dp sec = true → ∃ t, exec (.patrolScrub sec sev true) s = .next t ∧ t.dp.rowCE = [] ∧
        t.obj kScrubPasses = min (s.obj kScrubPasses + 1) (2 ^ 64 - 1))) ∧
    (let f := s.dp.ftl
     (∀ b, (kvGet 0 f.reads b < s.obj kFtlRdLimit → exec (.flashRelocation b) s = .next s) ∧
       (s.obj kFtlRdLimit ≤ kvGet 0 f.reads b → ∃ t, exec (.flashRelocation b) s = .next t ∧ t.dp.mem = s.dp.mem ∧
         t.dp.ftl = f.relocate b)) ∧
     (∀ cold worn, (kvGet 0 f.erases worn ≤ kvGet 0 f.erases cold + s.obj kFtlWearSpread →
         exec (.flashWearLevelling cold worn) s = .next s) ∧
       (kvGet 0 f.erases cold + s.obj kFtlWearSpread < kvGet 0 f.erases worn →
         ∃ t, exec (.flashWearLevelling cold worn) s = .next t ∧ t.dp.mem = s.dp.mem ∧ t.dp.ftl = f.level cold worn)) ∧
     -- a unit's block is copied, its map entry switches to the free block and is journaled, and the old block is erased
     (∀ b u n, f.weak = [] → f.unitOf b = some u → f.blockOf u = some b → f.freeBlock = some n →
       (f.relocate b).blockOf u = some n ∧ (f.relocate b).journal = f.journal ++ [(u, n)] ∧
       kvGet 0 (f.relocate b).reads b = 0 ∧ kvGet 0 (f.relocate b).erases b = kvGet 0 f.erases b + 1) ∧
     (∀ cold worn u, f.weak = [] → f.unitOf cold = some u → f.isFree worn = true →
       (f.level cold worn).blockOf u = some worn ∧ kvGet 0 (f.level cold worn).erases cold = kvGet 0 f.erases cold + 1))

/-! ## Hardware faults and temperatures (R536, R537, R557, R558, R588, R589, R602, R606) -/

/-- R536, R537, R557, R558 and R606: a watchdog's expiry, a difference between the management processors and a rail outside its window
for 5 µs are hardware faults, with causes 9, 6 and 7: the device is FENCED, every op in flight completes, running collectives, stream
schedulers and ingest stop, the entry 0x0701 is added and the leaf manager is told; a FENCED device keeps its first cause. -/
def Obligations.HardwareFaultsFence : Prop :=
  ∀ (i : Instr) (s : State) (cause : Nat), s.off = false →
    (i = .mgmtWatchdogExpiry ∧ cause = 9 ∨ i = .lockstepError ∧ cause = 6 ∨
      ∃ rail ns, i = .railFault rail ns ∧ rail ≤ 128 ∧ 5000 ≤ ns ∧ cause = 7) →
    (s.twin.st ≠ 5 → ∃ t, exec i s = .next t ∧ t.twin.st = 5 ∧ t.fault = cause ∧ t.colls = [] ∧ t.scheds = [] ∧ t.ing = [] ∧
      (∀ id o, s.op? id = some o → ∃ o', t.op? id = some o' ∧ o'.phase = .done) ∧ (s.dp.log.sram.length < 1024 →
        ∃ e ∈ t.dp.log.sram, e.seq = s.dp.log.nextSeq ∧ e.ev.code = 0x0701 ∧ e.ev.sev = 3) ∧
      (∃ l, t.out = l ++ [⟨.leafReport, 0, [1, cause]⟩])) ∧
    (s.twin.st = 5 → ∃ t, exec i s = .next t ∧ t.twin = s.twin ∧ t.fault = s.fault ∧ t.ops = s.ops ∧ t.out = s.out ∧
      t.dp.mem = s.dp.mem)

/-- R588, R589 and R602: a sensor holds its latest sample; while the firmware runs, a crossing of the warning limit is counted, and a
second sample in a row at the trip limit is the hardware fault of cause 8 and asserts `THERM_TRIP_N`; the module's comparator asserts it
by itself, and it is released once neither stands. -/
def Obligations.SensorRules : Prop :=
  (∀ (s : State) (n : Nat) (x : Int), n < 404 → ∃ t, exec (.sensorSample n x) s = .next t ∧ kvGet 0 t.temps n = x ∧
    (∀ m, m ≠ n → kvGet 0 t.temps m = kvGet 0 s.temps m) ∧
    (s.off = false → mgmtUp s = true →
      (kvGet 0 s.temps n < ((16 * warnLimit s n : Nat) : Int) → ((16 * warnLimit s n : Nat) : Int) ≤ x → atTrip s n x = false →
        t.obj kThermWarnCount = min (s.obj kThermWarnCount + 1) (2 ^ 64 - 1)) ∧
      (atTrip s n x = true → atTrip s n (kvGet 0 s.temps n) = true → n ∉ s.pins.trips →
        t.twin.st = 5 ∧ (s.twin.st ≠ 5 → t.fault = 8) ∧ n ∈ t.pins.trips ∧ t.pins.tripAt.isSome = true) ∧
      (atTrip s n x = false → n ∉ t.pins.trips))) ∧
  (∀ s : State,
    ((comparator s = true ∨ s.pins.trips ≠ []) →
      exec .thermTripComparator s = .next (setPins s { s.pins with tripAt := some (s.pins.tripAt.getD s.time) })) ∧
    (comparator s = false → s.pins.trips = [] → exec .thermTripComparator s = .next (setPins s { s.pins with tripAt := none })))

/-! ## Control signals and supply (R605, R613, R616 to R618, R644, R655) -/

/-- R605, R613, R616, R617, R618 and R655: `PWR_EN` starts and stops the regulators; low or high supply and a thermal trip that stands for
500 ms stop them; `MOD_RST_N` at 0 or `PWR_GOOD` low holds the device in reset, and it leaves it once both are high, with a COLD reset
after a loss of power; `ALERT_ACK` releases `ALERT_N`; a dip of the supply is counted. -/
def Obligations.ControlSignals : Prop :=
  ∀ s : State,
    (s.pins.pwrEn = false → exec .pwrEnAssert s = .next { s with pins := { s.pins with pwrEn := true, regs := true } }) ∧
    (s.pins.pwrEn = true → exec .pwrEnAssert s = .next s ∧ ∃ t, exec .pwrEnRemove s = .next t ∧ t.off = true ∧
      t.pins = { s.pins with pwrEn := false, regs := false, pwrGood := false, nextKind := 1 } ∧ t.dp.mem = s.dp.mem) ∧
    (s.pins.pwrEn = false → exec .pwrEnRemove s = .next s) ∧
    (s.pins.regs = true → s.pins.pwrGood = false → s.off = true →
      (s.pins.modRst = true → ∃ t, exec .pwrGoodRelease s = .next t ∧ t.off = false ∧ t.obj kResetKind = s.pins.nextKind ∧
        bootStage t = 1 ∧ t.ctxs = [] ∧ t.ops = [] ∧ t.pins = { s.pins with pwrGood := true, nextKind := 2 }) ∧
      (s.pins.modRst = false → exec .pwrGoodRelease s = .next { s with pins := { s.pins with pwrGood := true } })) ∧
    (∀ low, ∃ t, exec (.modRstNAssert low) s = .next t ∧ t.off = true ∧ t.soune = List.replicate 36 {} ∧ t.zl = [{}, {}] ∧
      t.dp.log.alert = false ∧ t.dp.mem = s.dp.mem ∧ t.fw = s.fw ∧
      t.pins = if low then { s.pins with pwrGood := false } else { s.pins with modRst := false }) ∧
    (s.off = true → s.pins.pwrGood = true → ∃ t, exec .modRstNRelease s = .next t ∧ t.off = false ∧
      t.obj kResetKind = s.pins.nextKind ∧ bootStage t = 1 ∧ t.fw = s.fw ∧ t.dp.log.flash = s.dp.log.flash ∧
      t.pins = { s.pins with modRst := true, nextKind := 2 }) ∧
    (s.pins.pwrGood = false → exec .modRstNRelease s = .next { s with pins := { s.pins with modRst := true } }) ∧
    exec .alertAck s = .next { s with dp := { s.dp with log := { s.dp.log with alert := false } } } ∧
    (∀ mv, s.off = false → 42000 ≤ mv → mv < 48000 → exec (.vinDip mv) s = .next (s.bump kVinUvCount 1)) ∧
    (∀ i mv ns, (i = Instr.vinUndervoltage mv ns ∧ mv < 42000 ∧ 50000 ≤ ns) ∨ (i = Instr.vinOvervoltage mv ns ∧ 57000 < mv ∧ 10000 ≤ ns) →
      ∃ t, exec i s = .next t ∧ t.off = true ∧ t.pins = { s.pins with regs := false, pwrGood := false, nextKind := 1 } ∧
        t.dp.mem = s.dp.mem) ∧
    (∀ at_, s.pins.tripAt = some at_ → s.pins.regs = true →
      (at_ + 500000000 ≤ s.time → ∃ t, exec .thermTripTimeout s = .next t ∧ t.off = true ∧
        t.pins = { s.pins with regs := false, pwrGood := false, nextKind := 1 }) ∧
      (s.time < at_ + 500000000 → exec .thermTripTimeout s = .next s))

/-! ## Timebase, network answers, power and diagnostics (R590 to R593, R632 to R643, R658, R659) -/

/-- R590 to R593: before the first LOCKED the timebase is stepped, forward only; after it the correction is by rate, and one above 1 µs
is counted; an offset within 10 ns locks the clock, and HOLDOVER follows lost sync; the network answers echoes and its own addresses. -/
def Obligations.TimebaseAndNetwork : Prop :=
  ∀ (s : State) (p : Nat), s.off = false → mgmtUp s = true → p < 2 →
    (∀ off : Int, ∃ t, exec (.ptpMessage p off) s = .next t ∧ s.time ≤ t.time ∧ t.obj kPtpPort = p ∧
      t.obj kPtpOffsetNs = ofSigned 32 off ∧
      (s.ptp.locked = true → t.time = s.time ∧
        t.obj kPtpSlewCount = (if 1000 < off.natAbs then min (s.obj kPtpSlewCount + 1) (2 ^ 64 - 1) else s.obj kPtpSlewCount)) ∧
      (s.ptp.locked = false → t.time = (if off < 0 then s.time + off.natAbs else s.time)) ∧
      (off.natAbs ≤ 10 → t.ptp.st = 2 ∧ t.ptp.locked = true) ∧ (10 < off.natAbs → s.ptp.st ≠ 2 → t.ptp.st = 1)) ∧
    (s.ptp.st ≠ 0 → exec .ptpHoldover s = .next { s with ptp := { s.ptp with st := 3 } }) ∧
    (∀ payload, exec (.icmpv6Echo p payload) s = .next { s with out := s.out ++ [⟨.icmp, p, payload⟩] }) ∧
    (∀ target, exec (.neighbourDiscovery p target) s = .next
      (if target = linkLocal ∨ target ≠ 0 ∧ target = s.obj (kNetAddr0 + p) then { s with out := s.out ++ [⟨.neighbour, p, [target]⟩] }
       else s))

/-- R633, R635, R636, R637, R641, R658 and R659: in each interval an idle bay is granted 550 mV, every rail moves toward its grant by at
most 25 mV, and every cap moves by its sensors; each crossing of a ceiling is counted once; energy is charged in whole; a bay test
and a loopback run leave their results. -/
def Obligations.PowerAndDiagnostics : Prop :=
  (∀ (s : State) (m : PowerSample), s.off = false → mgmtUp s = true → ∃ t, exec (.arbiterInterval m) s = .next t ∧
    ∀ b, b < Config.bays →
      (bayPwr t b).set = moveRail (bayPwr s b).set (bayPwr t b).grant ∧ (bayPwr t b).cap = thermalCap s b (bayPwr s b).cap ∧
      (bayPwr t b).busy = bayBusy s b ∧ (bayPwr t b).mw = (m.bays.getD b (0, 0, 0)).1 ∧
      (bayBusy s b = false → (bayPwr t b).grant = 550 ∧ (bayPwr t b).ceiling = 0)) ∧
  (∀ now goal, moveRail now goal ≤ now + 25 ∧ now ≤ moveRail now goal + 25 ∧
    min now goal ≤ moveRail now goal ∧ moveRail now goal ≤ max now goal) ∧
  (∀ (s : State) (b current : Nat), s.off = false → b < Config.bays → (bayPwr s b).busy = true →
    (current ≤ (bayPwr s b).ceiling → ∃ t, exec (.bayCurrentLimit b current) s = .next t ∧ (bayPwr t b).above = false ∧ t.dp = s.dp) ∧
    ((bayPwr s b).ceiling < current → (bayPwr s b).above = true → exec (.bayCurrentLimit b current) s = .next s) ∧
    ((bayPwr s b).ceiling < current → (bayPwr s b).above = false → ∃ t, exec (.bayCurrentLimit b current) s = .next t ∧
      (bayPwr t b).above = true ∧
      t.obj (objKey b kBayLimitCount) = min (s.obj (objKey b kBayLimitCount) + 1) (2 ^ 64 - 1))) ∧
  (∀ (s : State) (m : EnergySample), s.off = false → mgmtUp s = true →
    exec (.measurementSample m) s = .next (s.inside (chargeSample s m))) ∧
  (∀ amount ws, ((shares amount ws).1.map (·.2)).sum + (shares amount ws).2 = amount) ∧
  (∀ (s : State) (b r : Nat), s.off = false → b < Config.bays → s.boot.testing = some b → 2 ≤ r → r ≤ 6 →
    ∃ t, exec (.bayTestComplete b r) s = .next t ∧ t.boot.testing = none ∧ t.obj (objKey b kBtResult) = r ∧
      (r = 2 → t.dp.log = s.dp.log) ∧ (r ≠ 2 → s.dp.log.sram.length < 1024 → t.dp.log.sram.length = s.dp.log.sram.length + 1)) ∧
  (∀ (s : State) (p until_ n e w : Nat), s.off = false → s.boot.loops.find? (fun l => l.1 == p) = some (p, until_) →
    (s.time < until_ → exec (.lbRunEnd p n e w) s = .next s) ∧
    (until_ ≤ s.time → p < 36 → s.soune.length = 36 → ∃ t, exec (.lbRunEnd p n e w) s = .next t ∧
      t.obj (objKey p kLbBits) = n ∧ t.obj (objKey p kLbErrors) = e ∧ t.obj (objKey p kLbWorstLane) = w ∧
      (t.port false p).st = 0 ∧ (∀ l ∈ t.boot.loops, l.1 ≠ p)))

/-! ## Start-up (R563, R578, R584, R644 to R654) -/

/-- R578, R584, R644, R646 to R654: each stage completes once those it waits on have, unless it fails with its cause; the twins pair after
an offer that nothing refuses; stage 9 stays open until the leaf manager acknowledges the report, which is sent again after 1 s. -/
def Obligations.StartUpStages : Prop :=
  ∀ s : State, s.off = false →
    (stageReady s 1 [] = true →
      (∀ a b, ∃ t, exec (.stageRom false a b) s = .next t ∧ t.obj kBootFail = 0x0F20 ∧ t.boot = s.boot) ∧
      (∃ t, exec (.stageRom true false false) s = .next t ∧ t.obj kBootFail = 0x0F21 ∧ t.boot = s.boot ∧ t.fw.a.st = 7 ∧ t.fw.b.st = 7) ∧
      (∀ f, chooseSlot s.fw (fun _ => true) = (f, true) →
        exec (.stageRom true true true) s = .next { s with fw := f, boot := { s.boot with done := s.boot.done ++ [1] } })) ∧
    (stageReady s 2 [1] = true → ∀ recs u, (recordsToApply s recs).foldl applyRecord s = u →
      exec (.stageMgmt recs) s = .next (s.inside (stageDone (raiseRb u (u.fw.slot u.fw.running).secVersion) 2))) ∧
    (stageReady s 3 [2] = true →
      (∀ stack rows, ∃ t, exec (.stageHbm (some stack) rows) s = .next t ∧ t.obj kBootFail = 0x0F22 ∧ t.boot = s.boot) ∧
      (isWarm s = false → ∀ rows, ∃ t, exec (.stageHbm none rows) s = .next t ∧ t.boot.done = s.boot.done ++ [3] ∧ t.dp.repairRows = [])) ∧
    (stageReady s 4 [3] = true → isWarm s = false → ∀ results,
      (results.all (fun t => !t.stillFails) = true → ∃ t, exec (.stageHbmtest results) s = .next t ∧ t.boot.done = s.boot.done ++ [4] ∧
        t.dp.poison = [] ∧ ∀ k, k % Config.stackBytes < openBytes → byteAt t 1 k = 0) ∧
      (∀ x, results.find? (·.stillFails) = some x → ∃ t, exec (.stageHbmtest results) s = .next t ∧ t.obj kBootFail = 0x0F23 ∧
        t.obj kStFailUnit = 512 + x.chan)) ∧
    (stageReady s 5 [2] = true →
      exec (.stageBaytest none) s = .next { s with boot := { s.boot with done := s.boot.done ++ [5] } } ∧
      (∀ u, ∃ t, exec (.stageBaytest (some (u, 0x0F25))) s = .next t ∧ t.obj kBootFail = 0x0F25 ∧ t.obj kStFailUnit = u)) ∧
    (stageReady s 6 [2] = true →
      (∀ a b c, ∃ t, exec (.stageFtl false a b c) s = .next t ∧ t.obj kBootFail = 0x0F26) ∧
      (∀ a b c, ∃ t, exec (.stageFtl true a b c) s = .next t ∧ t.boot.done = s.boot.done ++ [6] ∧ t.dp.ftl.spare = a)) ∧
    (mgmtUp s = true → (portUp s 0 = true ∨ portUp s 1 = true) → s.boot.done.contains 7 = false →
      exec .stageLinks s = .next { s with boot := { s.boot with done := s.boot.done ++ [7] } }) ∧
    (pairReady s = true → ∀ p i, (i = Instr.stagePair p ∧ s.boot.refusedAt = none) ∨
        (i = Instr.pairRetry p ∧ ∃ at_, s.boot.refusedAt = some at_ ∧ s.expired at_ 100000000 = true) →
      (pairRefused p = true → ∃ t, exec i s = .next t ∧ t.twin = s.twin ∧ t.boot.refusedAt = some s.time ∧
        t.obj kPairRefusedCount = min (s.obj kPairRefusedCount + 1) (2 ^ 64 - 1)) ∧
      (pairRefused p = false → ∃ t, exec i s = .next t ∧ t.twin.st = 2 ∧ t.twin.partner = p.id ∧ t.twin.addr = p.addr ∧
        t.twin.member = (if Config.deviceId.toNat < p.id then 0 else 1) ∧ t.twin.epoch = (s.twin.epoch + 1) % 2 ^ 32 ∧
        t.boot.done.contains 8 = true ∧ t.boot.refusedAt = none)) ∧
    (s.obj kLeafMgrAddr ≠ 0 → ∀ i, (i = Instr.stageJoin ∧ stageReady s 9 [8] = true ∧ s.boot.reportAt = none) ∨
        (i = Instr.managerReportRetry ∧ ∃ at_, s.boot.reportAt = some at_ ∧ s.expired at_ 1000000000 = true) →
      ∃ t, exec i s = .next t ∧ t.boot.reportAt = some s.time ∧ t.boot.done = s.boot.done ∧
        t.out = s.out ++ [⟨.leafReport, 0, [5, Config.deviceId.toNat, s.twin.partner, s.twin.member]⟩]) ∧
    (∀ at_, s.boot.reportAt = some at_ → s.boot.done.contains 9 = false →
      exec .managerReportAck s = .next { s with boot := { s.boot with reportAt := none, done := s.boot.done ++ [9] } })

/-! ## The twin (R523, R524, R528 to R540, R546) -/

/-- R523, R524, R528 to R530, R534, R535, R537 to R540 and R546: heartbeats and their silence, probes and their answers, declarations, mirrored
entries and their acknowledgements, digests; a tether packet of another epoch is discarded and counted. -/
def Obligations.TwinRules : Prop :=
  (∀ (s : State), s.off = false →
    ((s.twin.st = 2 ∨ s.twin.st = 4) → ∃ t, exec .heartbeatSend s = .next t ∧ t.twin = s.twin ∧ t.ops = s.ops ∧
      (s.obj kTetherHbSent < 2 ^ 64 →
        t.obj kTetherHbSent = min (s.obj kTetherHbSent + (tetherPorts s).length) (2 ^ 64 - 1))) ∧
    (s.twin.st = 2 → s.twin.beat = true →
      exec .heartbeatIntervalMiss s = .next { s with twin := { s.twin with beat := false } }) ∧
    (s.twin.st = 2 → s.twin.beat = false → ∃ t, exec .heartbeatIntervalMiss s = .next t ∧ t.twin.missed = s.twin.missed + 1 ∧
      t.obj kTetherHbMiss = min (s.obj kTetherHbMiss + 1) (2 ^ 64 - 1) ∧
      (s.obj kTetherHbLimit ≤ s.twin.missed + 1 → s.twin.probeAt = none → t.twin.probeAt = some s.time ∧
        t.obj kProbeCount = min (s.obj kProbeCount + 1) (2 ^ 64 - 1)) ∧
      ((s.twin.missed + 1 < s.obj kTetherHbLimit ∨ s.twin.probeAt.isSome = true) → t.twin.probeAt = s.twin.probeAt)) ∧
    (∀ at_, s.twin.st = 2 → s.twin.probeAt = some at_ →
      (s.expired at_ (s.obj kTwinProbeUs * 1000) = false → exec .probeTimeout s = .next s) ∧
      (s.expired at_ (s.obj kTwinProbeUs * 1000) = true → exec .probeTimeout s = .next (s.inside (declareLost s 2))))) ∧
  (∀ (s : State) (p : Packet), s.off = false →
    (∀ i ∈ [Instr.heartbeat p, .tetherFault p, .probeRequest p, .probeAnswer p, .mirror p, .mirrorAck p, .digest p],
      (pEpoch p.hdr ≠ s.twin.epoch ∨ s.twin.st = 0) → exec i s = .next (s.bump kTetherDropCount 1)) ∧
    (pEpoch p.hdr = s.twin.epoch → s.twin.st = 2 →
      exec (.heartbeat p) s = .next { s with twin := { s.twin with beat := true, missed := 0, probeAt := none } } ∧
      exec (.tetherFault p) s = .next (s.inside (declareLost s 1)) ∧
      exec (.probeRequest p) s = .next (s.inside (linkLoss (sendProbe s 1 [2]))) ∧
      (s.twin.probeAt = none → exec (.probeAnswer p) s = .next (s.bump kTetherDropCount 1)) ∧
      (∀ at_, s.twin.probeAt = some at_ →
        exec (.probeAnswer p) s = .next (s.inside (if p.data.headD 0 = 5 then declareLost s 2 else linkLoss s))) ∧
      (∀ x, pChunk p.hdr = 0 → x = streamOf (leNat ((p.data.drop 4).take 128)) → x.st ≠ 0 →
        ¬ (1 ≤ (s.stream (leNat (p.data.take 4))).st ∧ (s.stream (leNat (p.data.take 4))).st ≤ 4) →
        ∃ t, exec (.mirror p) s = .next t ∧ (t.stream (leNat (p.data.take 4))).st = mirrorState x.st) ∧
      (s.mgr.waiting = [] → (∀ x ∈ s.serve, x.2.acks = []) → exec (.mirrorAck p) s = .next s) ∧
      (∀ c, s.mgr.waiting = [] → (s.srv c).acks = [(pTicket p.hdr, 0)] → s.serve.map (·.1) = [c] → bit (pChunk p.hdr) 0 = false →
        ∃ v, exec (.mirrorAck p) s = .next (s.inside (finishCommit (s.setSrv c v) c)) ∧ v.acks = [] ∧ v.commitAt = (s.srv c).commitAt) ∧
      (∃ t, exec (.digest p) s = .next (s.inside (digestCompare t (pChunk p.hdr) (leNat (p.data.take 8)))) ∧
        t.twin.theirs.head? = some (pChunk p.hdr, leNat (p.data.take 8), (List.range (min ((p.data.length - 8) / 8)
          (s.obj (objKey (pChunk p.hdr) kDigestCount)))).map (fun i => leNat ((p.data.drop (8 + 8 * i)).take 8)))))) ∧
  (∀ (s : State) (how : Nat), s.mgr.waiting = [] → s.dp.hwDue = none →
    (∀ x ∈ s.serve, x.2.commitAt = none ∧ (x.2.record ≠ 0 → (poolOf s x.1 .mirror).free = 0)) →
    (declareLost s how).twin.st = 3 ∧ (declareLost s how).twin.epoch = (s.twin.epoch + 1) % 2 ^ 32 ∧
    (declareLost s how).twin.blocks = 0 ∧ (declareLost s how).seq = s.seq.map (fun x => (x.1, adoptStream x.2)) ∧
    -- R546: the survivor takes over the manager's role that its partner mirrored
    (∀ n g, findGroup s n = some g → ∃ r, findGroup (declareLost s how) n = some { g with roster := r } ∧
      r = { g.roster with role := max g.roster.role (kvGet 0 s.twin.roles n) }))

/-! ## Groups (R545, R547 to R549, R551 to R553, R556) -/

/-- R545, R547, R549, R551, R552, R553 and R556: a confirmed fence starts a re-formation, PREPARE is acknowledged, COMMIT goes out once
every device has acknowledged and is installed, and a late device is replaced by its twin; beacons and leases keep a group ACTIVE, and
a group without them is HALTED; messages of an earlier epoch are discarded and counted. -/
def Obligations.GroupRules : Prop :=
  ∀ (s : State), s.off = false →
    (∀ g m, s.groups = [g] → g.roster.role = 4 → m < g.roster.size →
      exec (.leafReport m true) s = .next (s.inside (reformAround s g m))) ∧
    (∀ r, findGroup s r.group = none → s.groups.length < 16 → s.twin.paired = true → ∃ t, exec (.prepare r) s = .next t ∧
      (∃ g, t.groups = s.groups ++ [g] ∧ g.st = 2 ∧ g.prep = some r) ∧
      t.out = s.out ++ [⟨.mgr, (memberAddr r r.primary).getD 0, [2, r.group, r.member]⟩]) ∧
    (∀ r, findGroup s r.group = none → (16 ≤ s.groups.length ∨ s.twin.paired = false) → exec (.prepare r) s = .next s) ∧
    (∀ g r, findGroup s r.group = some g →
      (r.epoch ≤ g.roster.epoch → exec (.prepare r) s = .next (s.bump kMgrStaleDrop 1) ∧
        exec (.reformCommit r) s = .next (s.bump kMgrStaleDrop 1)) ∧
      (g.roster.epoch < r.epoch → exec (.reformCommit r) s = .next (s.inside (installRoster s r)) ∧
        ∃ t, exec (.prepare r) s = .next t ∧ findGroup t r.group = some { g with st := 2, prep := some r })) ∧
    (∀ n g, findGroup s n = some g →
      (∀ m, g.forming = none → exec (.prepareAck n m) s = .next (s.bump kMgrStaleDrop 1)) ∧
      (∀ m r, g.forming = some r → g.acks.contains m = false →
        (allAcked s r (g.acks ++ [m]) = false →
          exec (.prepareAck n m) s = .next (putGroup s { g with acks := g.acks ++ [m] })) ∧
        (allAcked s r (g.acks ++ [m]) = true → ∃ l u, exec (.prepareAck n m) s = .next (s.inside (installRoster u r)) ∧
          u = { s with out := s.out ++ l } ∧ ∀ x ∈ l, x.kind = .mgr ∧ x.data = [3, r.group, r.epoch]) ∧
        (s.expired g.sentAt (s.obj kReformPrepareMs * 1000000) = true →
          exec (.prepareTimeout n m) s = .next (s.inside (reformAround s g m)))) ∧
      (∀ m, g.roster.role = 4 → g.roster.lines.any (fun l => l.incoming && (l.member == m || l.member + 1 == m)) = true →
        exec (.synced n m) s = .next (putGroup s { g with synced := some m })) ∧
      (holdsToken g.roster = true → s.twin.st = 2 →
        exec (.beaconSend n) s = .next { s with out := s.out ++ [⟨.beacon, n, [g.roster.epoch]⟩] }) ∧
      (∀ e, e ≠ g.roster.epoch → exec (.tokenBeacon n e) s = .next (s.bump kMgrStaleDrop 1) ∧
        exec (.lease n e) s = .next (s.bump kMgrStaleDrop 1)) ∧
      (∀ st, st = (if g.st ≠ 3 then g.st else afterHalt g) →
        exec (.tokenBeacon n g.roster.epoch) s = .next (putGroup s { g with beaconAt := s.time, st := st })) ∧
      (holdsToken g.roster = true → exec (.lease n g.roster.epoch) s = .next (putGroup s { g with leaseAt := some s.time })) ∧
      (g.roster.role = 4 → ∃ l, exec (.leaseSend n) s = .next { s with out := s.out ++ l } ∧
        ∀ x ∈ l, x.kind = .mgr ∧ x.data = [4, n, g.roster.epoch]) ∧
      (g.st ≠ 3 → g.roster.size ≠ 0 → s.expired g.beaconAt (s.obj kTokenLeaseMs * 1000000) = true →
        ∃ t, exec (.tokenLeaseExpiry n) s = .next t ∧ t.groups = (putGroup s { g with st := 3 }).groups ∧
          t.obj kTokenHaltCount = min (s.obj kTokenHaltCount + 1) (2 ^ 64 - 1)) ∧
      (s.expired g.beaconAt (s.obj kTokenLeaseMs * 1000000) = false → exec (.tokenLeaseExpiry n) s = .next s))
end

