-- ==== Sys2Proof/Laws/State.lean ====
section
/-! SUPPORT. One lemma for each field and each update of the state: what the update leaves alone, and what it sets. -/

namespace Sys2Proof.Machine

/-! ## `State.setDp` -/

@[simp] theorem State.setDp_pending (s : State) (d : Dp) : (s.setDp d).pending = s.pending := rfl
@[simp] theorem State.setDp_out (s : State) (d : Dp) : (s.setDp d).out = s.out := rfl
@[simp] theorem State.setDp_ops (s : State) (d : Dp) : (s.setDp d).ops = s.ops := rfl
@[simp] theorem State.setDp_nextOp (s : State) (d : Dp) : (s.setDp d).nextOp = s.nextOp := rfl
@[simp] theorem State.setDp_ctxs (s : State) (d : Dp) : (s.setDp d).ctxs = s.ctxs := rfl
@[simp] theorem State.setDp_sig (s : State) (d : Dp) : (s.setDp d).sig = s.sig := rfl
@[simp] theorem State.setDp_turn (s : State) (d : Dp) : (s.setDp d).turn = s.turn := rfl
@[simp] theorem State.setDp_turnUsed (s : State) (d : Dp) : (s.setDp d).turnUsed = s.turnUsed := rfl
@[simp] theorem State.setDp_scheds (s : State) (d : Dp) : (s.setDp d).scheds = s.scheds := rfl
@[simp] theorem State.setDp_zl (s : State) (d : Dp) : (s.setDp d).zl = s.zl := rfl
@[simp] theorem State.setDp_zlReads (s : State) (d : Dp) : (s.setDp d).zlReads = s.zlReads := rfl
@[simp] theorem State.setDp_zlTag (s : State) (d : Dp) : (s.setDp d).zlTag = s.zlTag := rfl
@[simp] theorem State.setDp_mbx (s : State) (d : Dp) : (s.setDp d).mbx = s.mbx := rfl
@[simp] theorem State.setDp_db (s : State) (d : Dp) : (s.setDp d).db = s.db := rfl
@[simp] theorem State.setDp_soune (s : State) (d : Dp) : (s.setDp d).soune = s.soune := rfl
@[simp] theorem State.setDp_colls (s : State) (d : Dp) : (s.setDp d).colls = s.colls := rfl
@[simp] theorem State.setDp_joins (s : State) (d : Dp) : (s.setDp d).joins = s.joins := rfl
@[simp] theorem State.setDp_late (s : State) (d : Dp) : (s.setDp d).late = s.late := rfl
@[simp] theorem State.setDp_started (s : State) (d : Dp) : (s.setDp d).started = s.started := rfl
@[simp] theorem State.setDp_skipped (s : State) (d : Dp) : (s.setDp d).skipped = s.skipped := rfl
@[simp] theorem State.setDp_mgr (s : State) (d : Dp) : (s.setDp d).mgr = s.mgr := rfl
@[simp] theorem State.setDp_groups (s : State) (d : Dp) : (s.setDp d).groups = s.groups := rfl
@[simp] theorem State.setDp_twin (s : State) (d : Dp) : (s.setDp d).twin = s.twin := rfl
@[simp] theorem State.setDp_fault (s : State) (d : Dp) : (s.setDp d).fault = s.fault := rfl
@[simp] theorem State.setDp_seq (s : State) (d : Dp) : (s.setDp d).seq = s.seq := rfl
@[simp] theorem State.setDp_gens (s : State) (d : Dp) : (s.setDp d).gens = s.gens := rfl
@[simp] theorem State.setDp_serve (s : State) (d : Dp) : (s.setDp d).serve = s.serve := rfl
@[simp] theorem State.setDp_mpools (s : State) (d : Dp) : (s.setDp d).mpools = s.mpools := rfl
@[simp] theorem State.setDp_seqTable (s : State) (d : Dp) : (s.setDp d).seqTable = s.seqTable := rfl
@[simp] theorem State.setDp_media (s : State) (d : Dp) : (s.setDp d).media = s.media := rfl
@[simp] theorem State.setDp_ing (s : State) (d : Dp) : (s.setDp d).ing = s.ing := rfl
@[simp] theorem State.setDp_carries (s : State) (d : Dp) : (s.setDp d).carries = s.carries := rfl
@[simp] theorem State.setDp_ingTimes (s : State) (d : Dp) : (s.setDp d).ingTimes = s.ingTimes := rfl
@[simp] theorem State.setDp_mgmt (s : State) (d : Dp) : (s.setDp d).mgmt = s.mgmt := rfl
@[simp] theorem State.setDp_fw (s : State) (d : Dp) : (s.setDp d).fw = s.fw := rfl
@[simp] theorem State.setDp_boot (s : State) (d : Dp) : (s.setDp d).boot = s.boot := rfl
@[simp] theorem State.setDp_pins (s : State) (d : Dp) : (s.setDp d).pins = s.pins := rfl
@[simp] theorem State.setDp_temps (s : State) (d : Dp) : (s.setDp d).temps = s.temps := rfl
@[simp] theorem State.setDp_pwr (s : State) (d : Dp) : (s.setDp d).pwr = s.pwr := rfl
@[simp] theorem State.setDp_energy (s : State) (d : Dp) : (s.setDp d).energy = s.energy := rfl
@[simp] theorem State.setDp_ptp (s : State) (d : Dp) : (s.setDp d).ptp = s.ptp := rfl
@[simp] theorem State.setDp_off (s : State) (d : Dp) : (s.setDp d).off = s.off := rfl

/-! ## `State.setObj` -/

@[simp] theorem State.setObj_pending (s : State) (k v : Nat) : (s.setObj k v).pending = s.pending := rfl
@[simp] theorem State.setObj_out (s : State) (k v : Nat) : (s.setObj k v).out = s.out := rfl
@[simp] theorem State.setObj_ops (s : State) (k v : Nat) : (s.setObj k v).ops = s.ops := rfl
@[simp] theorem State.setObj_nextOp (s : State) (k v : Nat) : (s.setObj k v).nextOp = s.nextOp := rfl
@[simp] theorem State.setObj_ctxs (s : State) (k v : Nat) : (s.setObj k v).ctxs = s.ctxs := rfl
@[simp] theorem State.setObj_sig (s : State) (k v : Nat) : (s.setObj k v).sig = s.sig := rfl
@[simp] theorem State.setObj_turn (s : State) (k v : Nat) : (s.setObj k v).turn = s.turn := rfl
@[simp] theorem State.setObj_turnUsed (s : State) (k v : Nat) : (s.setObj k v).turnUsed = s.turnUsed := rfl
@[simp] theorem State.setObj_scheds (s : State) (k v : Nat) : (s.setObj k v).scheds = s.scheds := rfl
@[simp] theorem State.setObj_zl (s : State) (k v : Nat) : (s.setObj k v).zl = s.zl := rfl
@[simp] theorem State.setObj_zlReads (s : State) (k v : Nat) : (s.setObj k v).zlReads = s.zlReads := rfl
@[simp] theorem State.setObj_zlTag (s : State) (k v : Nat) : (s.setObj k v).zlTag = s.zlTag := rfl
@[simp] theorem State.setObj_mbx (s : State) (k v : Nat) : (s.setObj k v).mbx = s.mbx := rfl
@[simp] theorem State.setObj_db (s : State) (k v : Nat) : (s.setObj k v).db = s.db := rfl
@[simp] theorem State.setObj_soune (s : State) (k v : Nat) : (s.setObj k v).soune = s.soune := rfl
@[simp] theorem State.setObj_colls (s : State) (k v : Nat) : (s.setObj k v).colls = s.colls := rfl
@[simp] theorem State.setObj_joins (s : State) (k v : Nat) : (s.setObj k v).joins = s.joins := rfl
@[simp] theorem State.setObj_late (s : State) (k v : Nat) : (s.setObj k v).late = s.late := rfl
@[simp] theorem State.setObj_started (s : State) (k v : Nat) : (s.setObj k v).started = s.started := rfl
@[simp] theorem State.setObj_skipped (s : State) (k v : Nat) : (s.setObj k v).skipped = s.skipped := rfl
@[simp] theorem State.setObj_mgr (s : State) (k v : Nat) : (s.setObj k v).mgr = s.mgr := rfl
@[simp] theorem State.setObj_groups (s : State) (k v : Nat) : (s.setObj k v).groups = s.groups := rfl
@[simp] theorem State.setObj_twin (s : State) (k v : Nat) : (s.setObj k v).twin = s.twin := rfl
@[simp] theorem State.setObj_fault (s : State) (k v : Nat) : (s.setObj k v).fault = s.fault := rfl
@[simp] theorem State.setObj_seq (s : State) (k v : Nat) : (s.setObj k v).seq = s.seq := rfl
@[simp] theorem State.setObj_gens (s : State) (k v : Nat) : (s.setObj k v).gens = s.gens := rfl
@[simp] theorem State.setObj_serve (s : State) (k v : Nat) : (s.setObj k v).serve = s.serve := rfl
@[simp] theorem State.setObj_mpools (s : State) (k v : Nat) : (s.setObj k v).mpools = s.mpools := rfl
@[simp] theorem State.setObj_seqTable (s : State) (k v : Nat) : (s.setObj k v).seqTable = s.seqTable := rfl
@[simp] theorem State.setObj_media (s : State) (k v : Nat) : (s.setObj k v).media = s.media := rfl
@[simp] theorem State.setObj_ing (s : State) (k v : Nat) : (s.setObj k v).ing = s.ing := rfl
@[simp] theorem State.setObj_carries (s : State) (k v : Nat) : (s.setObj k v).carries = s.carries := rfl
@[simp] theorem State.setObj_ingTimes (s : State) (k v : Nat) : (s.setObj k v).ingTimes = s.ingTimes := rfl
@[simp] theorem State.setObj_mgmt (s : State) (k v : Nat) : (s.setObj k v).mgmt = s.mgmt := rfl
@[simp] theorem State.setObj_fw (s : State) (k v : Nat) : (s.setObj k v).fw = s.fw := rfl
@[simp] theorem State.setObj_boot (s : State) (k v : Nat) : (s.setObj k v).boot = s.boot := rfl
@[simp] theorem State.setObj_pins (s : State) (k v : Nat) : (s.setObj k v).pins = s.pins := rfl
@[simp] theorem State.setObj_temps (s : State) (k v : Nat) : (s.setObj k v).temps = s.temps := rfl
@[simp] theorem State.setObj_pwr (s : State) (k v : Nat) : (s.setObj k v).pwr = s.pwr := rfl
@[simp] theorem State.setObj_energy (s : State) (k v : Nat) : (s.setObj k v).energy = s.energy := rfl
@[simp] theorem State.setObj_ptp (s : State) (k v : Nat) : (s.setObj k v).ptp = s.ptp := rfl
@[simp] theorem State.setObj_off (s : State) (k v : Nat) : (s.setObj k v).off = s.off := rfl

/-! ## `State.bump` -/

@[simp] theorem State.bump_pending (s : State) (k n : Nat) : (s.bump k n).pending = s.pending := rfl
@[simp] theorem State.bump_out (s : State) (k n : Nat) : (s.bump k n).out = s.out := rfl
@[simp] theorem State.bump_ops (s : State) (k n : Nat) : (s.bump k n).ops = s.ops := rfl
@[simp] theorem State.bump_nextOp (s : State) (k n : Nat) : (s.bump k n).nextOp = s.nextOp := rfl
@[simp] theorem State.bump_ctxs (s : State) (k n : Nat) : (s.bump k n).ctxs = s.ctxs := rfl
@[simp] theorem State.bump_sig (s : State) (k n : Nat) : (s.bump k n).sig = s.sig := rfl
@[simp] theorem State.bump_turn (s : State) (k n : Nat) : (s.bump k n).turn = s.turn := rfl
@[simp] theorem State.bump_turnUsed (s : State) (k n : Nat) : (s.bump k n).turnUsed = s.turnUsed := rfl
@[simp] theorem State.bump_scheds (s : State) (k n : Nat) : (s.bump k n).scheds = s.scheds := rfl
@[simp] theorem State.bump_zl (s : State) (k n : Nat) : (s.bump k n).zl = s.zl := rfl
@[simp] theorem State.bump_zlReads (s : State) (k n : Nat) : (s.bump k n).zlReads = s.zlReads := rfl
@[simp] theorem State.bump_zlTag (s : State) (k n : Nat) : (s.bump k n).zlTag = s.zlTag := rfl
@[simp] theorem State.bump_mbx (s : State) (k n : Nat) : (s.bump k n).mbx = s.mbx := rfl
@[simp] theorem State.bump_db (s : State) (k n : Nat) : (s.bump k n).db = s.db := rfl
@[simp] theorem State.bump_soune (s : State) (k n : Nat) : (s.bump k n).soune = s.soune := rfl
@[simp] theorem State.bump_colls (s : State) (k n : Nat) : (s.bump k n).colls = s.colls := rfl
@[simp] theorem State.bump_joins (s : State) (k n : Nat) : (s.bump k n).joins = s.joins := rfl
@[simp] theorem State.bump_late (s : State) (k n : Nat) : (s.bump k n).late = s.late := rfl
@[simp] theorem State.bump_started (s : State) (k n : Nat) : (s.bump k n).started = s.started := rfl
@[simp] theorem State.bump_skipped (s : State) (k n : Nat) : (s.bump k n).skipped = s.skipped := rfl
@[simp] theorem State.bump_mgr (s : State) (k n : Nat) : (s.bump k n).mgr = s.mgr := rfl
@[simp] theorem State.bump_groups (s : State) (k n : Nat) : (s.bump k n).groups = s.groups := rfl
@[simp] theorem State.bump_twin (s : State) (k n : Nat) : (s.bump k n).twin = s.twin := rfl
@[simp] theorem State.bump_fault (s : State) (k n : Nat) : (s.bump k n).fault = s.fault := rfl
@[simp] theorem State.bump_seq (s : State) (k n : Nat) : (s.bump k n).seq = s.seq := rfl
@[simp] theorem State.bump_gens (s : State) (k n : Nat) : (s.bump k n).gens = s.gens := rfl
@[simp] theorem State.bump_serve (s : State) (k n : Nat) : (s.bump k n).serve = s.serve := rfl
@[simp] theorem State.bump_mpools (s : State) (k n : Nat) : (s.bump k n).mpools = s.mpools := rfl
@[simp] theorem State.bump_seqTable (s : State) (k n : Nat) : (s.bump k n).seqTable = s.seqTable := rfl
@[simp] theorem State.bump_media (s : State) (k n : Nat) : (s.bump k n).media = s.media := rfl
@[simp] theorem State.bump_ing (s : State) (k n : Nat) : (s.bump k n).ing = s.ing := rfl
@[simp] theorem State.bump_carries (s : State) (k n : Nat) : (s.bump k n).carries = s.carries := rfl
@[simp] theorem State.bump_ingTimes (s : State) (k n : Nat) : (s.bump k n).ingTimes = s.ingTimes := rfl
@[simp] theorem State.bump_mgmt (s : State) (k n : Nat) : (s.bump k n).mgmt = s.mgmt := rfl
@[simp] theorem State.bump_fw (s : State) (k n : Nat) : (s.bump k n).fw = s.fw := rfl
@[simp] theorem State.bump_boot (s : State) (k n : Nat) : (s.bump k n).boot = s.boot := rfl
@[simp] theorem State.bump_pins (s : State) (k n : Nat) : (s.bump k n).pins = s.pins := rfl
@[simp] theorem State.bump_temps (s : State) (k n : Nat) : (s.bump k n).temps = s.temps := rfl
@[simp] theorem State.bump_pwr (s : State) (k n : Nat) : (s.bump k n).pwr = s.pwr := rfl
@[simp] theorem State.bump_energy (s : State) (k n : Nat) : (s.bump k n).energy = s.energy := rfl
@[simp] theorem State.bump_ptp (s : State) (k n : Nat) : (s.bump k n).ptp = s.ptp := rfl
@[simp] theorem State.bump_off (s : State) (k n : Nat) : (s.bump k n).off = s.off := rfl

/-! ## `State.log` -/

@[simp] theorem State.log_pending (s : State) (e : Event) : (s.log e).pending = s.pending := rfl
@[simp] theorem State.log_out (s : State) (e : Event) : (s.log e).out = s.out := rfl
@[simp] theorem State.log_ops (s : State) (e : Event) : (s.log e).ops = s.ops := rfl
@[simp] theorem State.log_nextOp (s : State) (e : Event) : (s.log e).nextOp = s.nextOp := rfl
@[simp] theorem State.log_ctxs (s : State) (e : Event) : (s.log e).ctxs = s.ctxs := rfl
@[simp] theorem State.log_sig (s : State) (e : Event) : (s.log e).sig = s.sig := rfl
@[simp] theorem State.log_turn (s : State) (e : Event) : (s.log e).turn = s.turn := rfl
@[simp] theorem State.log_turnUsed (s : State) (e : Event) : (s.log e).turnUsed = s.turnUsed := rfl
@[simp] theorem State.log_scheds (s : State) (e : Event) : (s.log e).scheds = s.scheds := rfl
@[simp] theorem State.log_zl (s : State) (e : Event) : (s.log e).zl = s.zl := rfl
@[simp] theorem State.log_zlReads (s : State) (e : Event) : (s.log e).zlReads = s.zlReads := rfl
@[simp] theorem State.log_zlTag (s : State) (e : Event) : (s.log e).zlTag = s.zlTag := rfl
@[simp] theorem State.log_mbx (s : State) (e : Event) : (s.log e).mbx = s.mbx := rfl
@[simp] theorem State.log_db (s : State) (e : Event) : (s.log e).db = s.db := rfl
@[simp] theorem State.log_soune (s : State) (e : Event) : (s.log e).soune = s.soune := rfl
@[simp] theorem State.log_colls (s : State) (e : Event) : (s.log e).colls = s.colls := rfl
@[simp] theorem State.log_joins (s : State) (e : Event) : (s.log e).joins = s.joins := rfl
@[simp] theorem State.log_late (s : State) (e : Event) : (s.log e).late = s.late := rfl
@[simp] theorem State.log_started (s : State) (e : Event) : (s.log e).started = s.started := rfl
@[simp] theorem State.log_skipped (s : State) (e : Event) : (s.log e).skipped = s.skipped := rfl
@[simp] theorem State.log_mgr (s : State) (e : Event) : (s.log e).mgr = s.mgr := rfl
@[simp] theorem State.log_groups (s : State) (e : Event) : (s.log e).groups = s.groups := rfl
@[simp] theorem State.log_twin (s : State) (e : Event) : (s.log e).twin = s.twin := rfl
@[simp] theorem State.log_fault (s : State) (e : Event) : (s.log e).fault = s.fault := rfl
@[simp] theorem State.log_seq (s : State) (e : Event) : (s.log e).seq = s.seq := rfl
@[simp] theorem State.log_gens (s : State) (e : Event) : (s.log e).gens = s.gens := rfl
@[simp] theorem State.log_serve (s : State) (e : Event) : (s.log e).serve = s.serve := rfl
@[simp] theorem State.log_mpools (s : State) (e : Event) : (s.log e).mpools = s.mpools := rfl
@[simp] theorem State.log_seqTable (s : State) (e : Event) : (s.log e).seqTable = s.seqTable := rfl
@[simp] theorem State.log_media (s : State) (e : Event) : (s.log e).media = s.media := rfl
@[simp] theorem State.log_ing (s : State) (e : Event) : (s.log e).ing = s.ing := rfl
@[simp] theorem State.log_carries (s : State) (e : Event) : (s.log e).carries = s.carries := rfl
@[simp] theorem State.log_ingTimes (s : State) (e : Event) : (s.log e).ingTimes = s.ingTimes := rfl
@[simp] theorem State.log_mgmt (s : State) (e : Event) : (s.log e).mgmt = s.mgmt := rfl
@[simp] theorem State.log_fw (s : State) (e : Event) : (s.log e).fw = s.fw := rfl
@[simp] theorem State.log_boot (s : State) (e : Event) : (s.log e).boot = s.boot := rfl
@[simp] theorem State.log_pins (s : State) (e : Event) : (s.log e).pins = s.pins := rfl
@[simp] theorem State.log_temps (s : State) (e : Event) : (s.log e).temps = s.temps := rfl
@[simp] theorem State.log_pwr (s : State) (e : Event) : (s.log e).pwr = s.pwr := rfl
@[simp] theorem State.log_energy (s : State) (e : Event) : (s.log e).energy = s.energy := rfl
@[simp] theorem State.log_ptp (s : State) (e : Event) : (s.log e).ptp = s.ptp := rfl
@[simp] theorem State.log_off (s : State) (e : Event) : (s.log e).off = s.off := rfl

/-! ## `State.send` -/

@[simp] theorem State.send_pending (s : State) (k : OutKind) (d : Nat) (l : List Nat) : (s.send k d l).pending = s.pending := rfl
@[simp] theorem State.send_dp (s : State) (k : OutKind) (d : Nat) (l : List Nat) : (s.send k d l).dp = s.dp := rfl
@[simp] theorem State.send_ops (s : State) (k : OutKind) (d : Nat) (l : List Nat) : (s.send k d l).ops = s.ops := rfl
@[simp] theorem State.send_nextOp (s : State) (k : OutKind) (d : Nat) (l : List Nat) : (s.send k d l).nextOp = s.nextOp := rfl
@[simp] theorem State.send_ctxs (s : State) (k : OutKind) (d : Nat) (l : List Nat) : (s.send k d l).ctxs = s.ctxs := rfl
@[simp] theorem State.send_sig (s : State) (k : OutKind) (d : Nat) (l : List Nat) : (s.send k d l).sig = s.sig := rfl
@[simp] theorem State.send_turn (s : State) (k : OutKind) (d : Nat) (l : List Nat) : (s.send k d l).turn = s.turn := rfl
@[simp] theorem State.send_turnUsed (s : State) (k : OutKind) (d : Nat) (l : List Nat) : (s.send k d l).turnUsed = s.turnUsed := rfl
@[simp] theorem State.send_scheds (s : State) (k : OutKind) (d : Nat) (l : List Nat) : (s.send k d l).scheds = s.scheds := rfl
@[simp] theorem State.send_zl (s : State) (k : OutKind) (d : Nat) (l : List Nat) : (s.send k d l).zl = s.zl := rfl
@[simp] theorem State.send_zlReads (s : State) (k : OutKind) (d : Nat) (l : List Nat) : (s.send k d l).zlReads = s.zlReads := rfl
@[simp] theorem State.send_zlTag (s : State) (k : OutKind) (d : Nat) (l : List Nat) : (s.send k d l).zlTag = s.zlTag := rfl
@[simp] theorem State.send_mbx (s : State) (k : OutKind) (d : Nat) (l : List Nat) : (s.send k d l).mbx = s.mbx := rfl
@[simp] theorem State.send_db (s : State) (k : OutKind) (d : Nat) (l : List Nat) : (s.send k d l).db = s.db := rfl
@[simp] theorem State.send_soune (s : State) (k : OutKind) (d : Nat) (l : List Nat) : (s.send k d l).soune = s.soune := rfl
@[simp] theorem State.send_colls (s : State) (k : OutKind) (d : Nat) (l : List Nat) : (s.send k d l).colls = s.colls := rfl
@[simp] theorem State.send_joins (s : State) (k : OutKind) (d : Nat) (l : List Nat) : (s.send k d l).joins = s.joins := rfl
@[simp] theorem State.send_late (s : State) (k : OutKind) (d : Nat) (l : List Nat) : (s.send k d l).late = s.late := rfl
@[simp] theorem State.send_started (s : State) (k : OutKind) (d : Nat) (l : List Nat) : (s.send k d l).started = s.started := rfl
@[simp] theorem State.send_skipped (s : State) (k : OutKind) (d : Nat) (l : List Nat) : (s.send k d l).skipped = s.skipped := rfl
@[simp] theorem State.send_mgr (s : State) (k : OutKind) (d : Nat) (l : List Nat) : (s.send k d l).mgr = s.mgr := rfl
@[simp] theorem State.send_groups (s : State) (k : OutKind) (d : Nat) (l : List Nat) : (s.send k d l).groups = s.groups := rfl
@[simp] theorem State.send_twin (s : State) (k : OutKind) (d : Nat) (l : List Nat) : (s.send k d l).twin = s.twin := rfl
@[simp] theorem State.send_fault (s : State) (k : OutKind) (d : Nat) (l : List Nat) : (s.send k d l).fault = s.fault := rfl
@[simp] theorem State.send_seq (s : State) (k : OutKind) (d : Nat) (l : List Nat) : (s.send k d l).seq = s.seq := rfl
@[simp] theorem State.send_gens (s : State) (k : OutKind) (d : Nat) (l : List Nat) : (s.send k d l).gens = s.gens := rfl
@[simp] theorem State.send_serve (s : State) (k : OutKind) (d : Nat) (l : List Nat) : (s.send k d l).serve = s.serve := rfl
@[simp] theorem State.send_mpools (s : State) (k : OutKind) (d : Nat) (l : List Nat) : (s.send k d l).mpools = s.mpools := rfl
@[simp] theorem State.send_seqTable (s : State) (k : OutKind) (d : Nat) (l : List Nat) : (s.send k d l).seqTable = s.seqTable := rfl
@[simp] theorem State.send_media (s : State) (k : OutKind) (d : Nat) (l : List Nat) : (s.send k d l).media = s.media := rfl
@[simp] theorem State.send_ing (s : State) (k : OutKind) (d : Nat) (l : List Nat) : (s.send k d l).ing = s.ing := rfl
@[simp] theorem State.send_carries (s : State) (k : OutKind) (d : Nat) (l : List Nat) : (s.send k d l).carries = s.carries := rfl
@[simp] theorem State.send_ingTimes (s : State) (k : OutKind) (d : Nat) (l : List Nat) : (s.send k d l).ingTimes = s.ingTimes := rfl
@[simp] theorem State.send_mgmt (s : State) (k : OutKind) (d : Nat) (l : List Nat) : (s.send k d l).mgmt = s.mgmt := rfl
@[simp] theorem State.send_fw (s : State) (k : OutKind) (d : Nat) (l : List Nat) : (s.send k d l).fw = s.fw := rfl
@[simp] theorem State.send_boot (s : State) (k : OutKind) (d : Nat) (l : List Nat) : (s.send k d l).boot = s.boot := rfl
@[simp] theorem State.send_pins (s : State) (k : OutKind) (d : Nat) (l : List Nat) : (s.send k d l).pins = s.pins := rfl
@[simp] theorem State.send_temps (s : State) (k : OutKind) (d : Nat) (l : List Nat) : (s.send k d l).temps = s.temps := rfl
@[simp] theorem State.send_pwr (s : State) (k : OutKind) (d : Nat) (l : List Nat) : (s.send k d l).pwr = s.pwr := rfl
@[simp] theorem State.send_energy (s : State) (k : OutKind) (d : Nat) (l : List Nat) : (s.send k d l).energy = s.energy := rfl
@[simp] theorem State.send_ptp (s : State) (k : OutKind) (d : Nat) (l : List Nat) : (s.send k d l).ptp = s.ptp := rfl
@[simp] theorem State.send_off (s : State) (k : OutKind) (d : Nat) (l : List Nat) : (s.send k d l).off = s.off := rfl

/-! ## `State.putOp` -/

@[simp] theorem State.putOp_pending (s : State) (o : Op) : (s.putOp o).pending = s.pending := rfl
@[simp] theorem State.putOp_out (s : State) (o : Op) : (s.putOp o).out = s.out := rfl
@[simp] theorem State.putOp_dp (s : State) (o : Op) : (s.putOp o).dp = s.dp := rfl
@[simp] theorem State.putOp_nextOp (s : State) (o : Op) : (s.putOp o).nextOp = s.nextOp := rfl
@[simp] theorem State.putOp_ctxs (s : State) (o : Op) : (s.putOp o).ctxs = s.ctxs := rfl
@[simp] theorem State.putOp_sig (s : State) (o : Op) : (s.putOp o).sig = s.sig := rfl
@[simp] theorem State.putOp_turn (s : State) (o : Op) : (s.putOp o).turn = s.turn := rfl
@[simp] theorem State.putOp_turnUsed (s : State) (o : Op) : (s.putOp o).turnUsed = s.turnUsed := rfl
@[simp] theorem State.putOp_scheds (s : State) (o : Op) : (s.putOp o).scheds = s.scheds := rfl
@[simp] theorem State.putOp_zl (s : State) (o : Op) : (s.putOp o).zl = s.zl := rfl
@[simp] theorem State.putOp_zlReads (s : State) (o : Op) : (s.putOp o).zlReads = s.zlReads := rfl
@[simp] theorem State.putOp_zlTag (s : State) (o : Op) : (s.putOp o).zlTag = s.zlTag := rfl
@[simp] theorem State.putOp_mbx (s : State) (o : Op) : (s.putOp o).mbx = s.mbx := rfl
@[simp] theorem State.putOp_db (s : State) (o : Op) : (s.putOp o).db = s.db := rfl
@[simp] theorem State.putOp_soune (s : State) (o : Op) : (s.putOp o).soune = s.soune := rfl
@[simp] theorem State.putOp_colls (s : State) (o : Op) : (s.putOp o).colls = s.colls := rfl
@[simp] theorem State.putOp_joins (s : State) (o : Op) : (s.putOp o).joins = s.joins := rfl
@[simp] theorem State.putOp_late (s : State) (o : Op) : (s.putOp o).late = s.late := rfl
@[simp] theorem State.putOp_started (s : State) (o : Op) : (s.putOp o).started = s.started := rfl
@[simp] theorem State.putOp_skipped (s : State) (o : Op) : (s.putOp o).skipped = s.skipped := rfl
@[simp] theorem State.putOp_mgr (s : State) (o : Op) : (s.putOp o).mgr = s.mgr := rfl
@[simp] theorem State.putOp_groups (s : State) (o : Op) : (s.putOp o).groups = s.groups := rfl
@[simp] theorem State.putOp_twin (s : State) (o : Op) : (s.putOp o).twin = s.twin := rfl
@[simp] theorem State.putOp_fault (s : State) (o : Op) : (s.putOp o).fault = s.fault := rfl
@[simp] theorem State.putOp_seq (s : State) (o : Op) : (s.putOp o).seq = s.seq := rfl
@[simp] theorem State.putOp_gens (s : State) (o : Op) : (s.putOp o).gens = s.gens := rfl
@[simp] theorem State.putOp_serve (s : State) (o : Op) : (s.putOp o).serve = s.serve := rfl
@[simp] theorem State.putOp_mpools (s : State) (o : Op) : (s.putOp o).mpools = s.mpools := rfl
@[simp] theorem State.putOp_seqTable (s : State) (o : Op) : (s.putOp o).seqTable = s.seqTable := rfl
@[simp] theorem State.putOp_media (s : State) (o : Op) : (s.putOp o).media = s.media := rfl
@[simp] theorem State.putOp_ing (s : State) (o : Op) : (s.putOp o).ing = s.ing := rfl
@[simp] theorem State.putOp_carries (s : State) (o : Op) : (s.putOp o).carries = s.carries := rfl
@[simp] theorem State.putOp_ingTimes (s : State) (o : Op) : (s.putOp o).ingTimes = s.ingTimes := rfl
@[simp] theorem State.putOp_mgmt (s : State) (o : Op) : (s.putOp o).mgmt = s.mgmt := rfl
@[simp] theorem State.putOp_fw (s : State) (o : Op) : (s.putOp o).fw = s.fw := rfl
@[simp] theorem State.putOp_boot (s : State) (o : Op) : (s.putOp o).boot = s.boot := rfl
@[simp] theorem State.putOp_pins (s : State) (o : Op) : (s.putOp o).pins = s.pins := rfl
@[simp] theorem State.putOp_temps (s : State) (o : Op) : (s.putOp o).temps = s.temps := rfl
@[simp] theorem State.putOp_pwr (s : State) (o : Op) : (s.putOp o).pwr = s.pwr := rfl
@[simp] theorem State.putOp_energy (s : State) (o : Op) : (s.putOp o).energy = s.energy := rfl
@[simp] theorem State.putOp_ptp (s : State) (o : Op) : (s.putOp o).ptp = s.ptp := rfl
@[simp] theorem State.putOp_off (s : State) (o : Op) : (s.putOp o).off = s.off := rfl

/-! ## `State.setCtx` -/

@[simp] theorem State.setCtx_pending (s : State) (c : Nat) (x : Ctx) : (s.setCtx c x).pending = s.pending := rfl
@[simp] theorem State.setCtx_out (s : State) (c : Nat) (x : Ctx) : (s.setCtx c x).out = s.out := rfl
@[simp] theorem State.setCtx_dp (s : State) (c : Nat) (x : Ctx) : (s.setCtx c x).dp = s.dp := rfl
@[simp] theorem State.setCtx_ops (s : State) (c : Nat) (x : Ctx) : (s.setCtx c x).ops = s.ops := rfl
@[simp] theorem State.setCtx_nextOp (s : State) (c : Nat) (x : Ctx) : (s.setCtx c x).nextOp = s.nextOp := rfl
@[simp] theorem State.setCtx_sig (s : State) (c : Nat) (x : Ctx) : (s.setCtx c x).sig = s.sig := rfl
@[simp] theorem State.setCtx_turn (s : State) (c : Nat) (x : Ctx) : (s.setCtx c x).turn = s.turn := rfl
@[simp] theorem State.setCtx_turnUsed (s : State) (c : Nat) (x : Ctx) : (s.setCtx c x).turnUsed = s.turnUsed := rfl
@[simp] theorem State.setCtx_scheds (s : State) (c : Nat) (x : Ctx) : (s.setCtx c x).scheds = s.scheds := rfl
@[simp] theorem State.setCtx_zl (s : State) (c : Nat) (x : Ctx) : (s.setCtx c x).zl = s.zl := rfl
@[simp] theorem State.setCtx_zlReads (s : State) (c : Nat) (x : Ctx) : (s.setCtx c x).zlReads = s.zlReads := rfl
@[simp] theorem State.setCtx_zlTag (s : State) (c : Nat) (x : Ctx) : (s.setCtx c x).zlTag = s.zlTag := rfl
@[simp] theorem State.setCtx_mbx (s : State) (c : Nat) (x : Ctx) : (s.setCtx c x).mbx = s.mbx := rfl
@[simp] theorem State.setCtx_db (s : State) (c : Nat) (x : Ctx) : (s.setCtx c x).db = s.db := rfl
@[simp] theorem State.setCtx_soune (s : State) (c : Nat) (x : Ctx) : (s.setCtx c x).soune = s.soune := rfl
@[simp] theorem State.setCtx_colls (s : State) (c : Nat) (x : Ctx) : (s.setCtx c x).colls = s.colls := rfl
@[simp] theorem State.setCtx_joins (s : State) (c : Nat) (x : Ctx) : (s.setCtx c x).joins = s.joins := rfl
@[simp] theorem State.setCtx_late (s : State) (c : Nat) (x : Ctx) : (s.setCtx c x).late = s.late := rfl
@[simp] theorem State.setCtx_started (s : State) (c : Nat) (x : Ctx) : (s.setCtx c x).started = s.started := rfl
@[simp] theorem State.setCtx_skipped (s : State) (c : Nat) (x : Ctx) : (s.setCtx c x).skipped = s.skipped := rfl
@[simp] theorem State.setCtx_mgr (s : State) (c : Nat) (x : Ctx) : (s.setCtx c x).mgr = s.mgr := rfl
@[simp] theorem State.setCtx_groups (s : State) (c : Nat) (x : Ctx) : (s.setCtx c x).groups = s.groups := rfl
@[simp] theorem State.setCtx_twin (s : State) (c : Nat) (x : Ctx) : (s.setCtx c x).twin = s.twin := rfl
@[simp] theorem State.setCtx_fault (s : State) (c : Nat) (x : Ctx) : (s.setCtx c x).fault = s.fault := rfl
@[simp] theorem State.setCtx_seq (s : State) (c : Nat) (x : Ctx) : (s.setCtx c x).seq = s.seq := rfl
@[simp] theorem State.setCtx_gens (s : State) (c : Nat) (x : Ctx) : (s.setCtx c x).gens = s.gens := rfl
@[simp] theorem State.setCtx_serve (s : State) (c : Nat) (x : Ctx) : (s.setCtx c x).serve = s.serve := rfl
@[simp] theorem State.setCtx_mpools (s : State) (c : Nat) (x : Ctx) : (s.setCtx c x).mpools = s.mpools := rfl
@[simp] theorem State.setCtx_seqTable (s : State) (c : Nat) (x : Ctx) : (s.setCtx c x).seqTable = s.seqTable := rfl
@[simp] theorem State.setCtx_media (s : State) (c : Nat) (x : Ctx) : (s.setCtx c x).media = s.media := rfl
@[simp] theorem State.setCtx_ing (s : State) (c : Nat) (x : Ctx) : (s.setCtx c x).ing = s.ing := rfl
@[simp] theorem State.setCtx_carries (s : State) (c : Nat) (x : Ctx) : (s.setCtx c x).carries = s.carries := rfl
@[simp] theorem State.setCtx_ingTimes (s : State) (c : Nat) (x : Ctx) : (s.setCtx c x).ingTimes = s.ingTimes := rfl
@[simp] theorem State.setCtx_mgmt (s : State) (c : Nat) (x : Ctx) : (s.setCtx c x).mgmt = s.mgmt := rfl
@[simp] theorem State.setCtx_fw (s : State) (c : Nat) (x : Ctx) : (s.setCtx c x).fw = s.fw := rfl
@[simp] theorem State.setCtx_boot (s : State) (c : Nat) (x : Ctx) : (s.setCtx c x).boot = s.boot := rfl
@[simp] theorem State.setCtx_pins (s : State) (c : Nat) (x : Ctx) : (s.setCtx c x).pins = s.pins := rfl
@[simp] theorem State.setCtx_temps (s : State) (c : Nat) (x : Ctx) : (s.setCtx c x).temps = s.temps := rfl
@[simp] theorem State.setCtx_pwr (s : State) (c : Nat) (x : Ctx) : (s.setCtx c x).pwr = s.pwr := rfl
@[simp] theorem State.setCtx_energy (s : State) (c : Nat) (x : Ctx) : (s.setCtx c x).energy = s.energy := rfl
@[simp] theorem State.setCtx_ptp (s : State) (c : Nat) (x : Ctx) : (s.setCtx c x).ptp = s.ptp := rfl
@[simp] theorem State.setCtx_off (s : State) (c : Nat) (x : Ctx) : (s.setCtx c x).off = s.off := rfl

/-! ## `State.signal` -/

@[simp] theorem State.signal_pending (s : State) (w v : Nat) : (s.signal w v).pending = s.pending := rfl
@[simp] theorem State.signal_out (s : State) (w v : Nat) : (s.signal w v).out = s.out := rfl
@[simp] theorem State.signal_dp (s : State) (w v : Nat) : (s.signal w v).dp = s.dp := rfl
@[simp] theorem State.signal_ops (s : State) (w v : Nat) : (s.signal w v).ops = s.ops := rfl
@[simp] theorem State.signal_nextOp (s : State) (w v : Nat) : (s.signal w v).nextOp = s.nextOp := rfl
@[simp] theorem State.signal_ctxs (s : State) (w v : Nat) : (s.signal w v).ctxs = s.ctxs := rfl
@[simp] theorem State.signal_turn (s : State) (w v : Nat) : (s.signal w v).turn = s.turn := rfl
@[simp] theorem State.signal_turnUsed (s : State) (w v : Nat) : (s.signal w v).turnUsed = s.turnUsed := rfl
@[simp] theorem State.signal_scheds (s : State) (w v : Nat) : (s.signal w v).scheds = s.scheds := rfl
@[simp] theorem State.signal_zl (s : State) (w v : Nat) : (s.signal w v).zl = s.zl := rfl
@[simp] theorem State.signal_zlReads (s : State) (w v : Nat) : (s.signal w v).zlReads = s.zlReads := rfl
@[simp] theorem State.signal_zlTag (s : State) (w v : Nat) : (s.signal w v).zlTag = s.zlTag := rfl
@[simp] theorem State.signal_mbx (s : State) (w v : Nat) : (s.signal w v).mbx = s.mbx := rfl
@[simp] theorem State.signal_db (s : State) (w v : Nat) : (s.signal w v).db = s.db := rfl
@[simp] theorem State.signal_soune (s : State) (w v : Nat) : (s.signal w v).soune = s.soune := rfl
@[simp] theorem State.signal_colls (s : State) (w v : Nat) : (s.signal w v).colls = s.colls := rfl
@[simp] theorem State.signal_joins (s : State) (w v : Nat) : (s.signal w v).joins = s.joins := rfl
@[simp] theorem State.signal_late (s : State) (w v : Nat) : (s.signal w v).late = s.late := rfl
@[simp] theorem State.signal_started (s : State) (w v : Nat) : (s.signal w v).started = s.started := rfl
@[simp] theorem State.signal_skipped (s : State) (w v : Nat) : (s.signal w v).skipped = s.skipped := rfl
@[simp] theorem State.signal_mgr (s : State) (w v : Nat) : (s.signal w v).mgr = s.mgr := rfl
@[simp] theorem State.signal_groups (s : State) (w v : Nat) : (s.signal w v).groups = s.groups := rfl
@[simp] theorem State.signal_twin (s : State) (w v : Nat) : (s.signal w v).twin = s.twin := rfl
@[simp] theorem State.signal_fault (s : State) (w v : Nat) : (s.signal w v).fault = s.fault := rfl
@[simp] theorem State.signal_seq (s : State) (w v : Nat) : (s.signal w v).seq = s.seq := rfl
@[simp] theorem State.signal_gens (s : State) (w v : Nat) : (s.signal w v).gens = s.gens := rfl
@[simp] theorem State.signal_serve (s : State) (w v : Nat) : (s.signal w v).serve = s.serve := rfl
@[simp] theorem State.signal_mpools (s : State) (w v : Nat) : (s.signal w v).mpools = s.mpools := rfl
@[simp] theorem State.signal_seqTable (s : State) (w v : Nat) : (s.signal w v).seqTable = s.seqTable := rfl
@[simp] theorem State.signal_media (s : State) (w v : Nat) : (s.signal w v).media = s.media := rfl
@[simp] theorem State.signal_ing (s : State) (w v : Nat) : (s.signal w v).ing = s.ing := rfl
@[simp] theorem State.signal_carries (s : State) (w v : Nat) : (s.signal w v).carries = s.carries := rfl
@[simp] theorem State.signal_ingTimes (s : State) (w v : Nat) : (s.signal w v).ingTimes = s.ingTimes := rfl
@[simp] theorem State.signal_mgmt (s : State) (w v : Nat) : (s.signal w v).mgmt = s.mgmt := rfl
@[simp] theorem State.signal_fw (s : State) (w v : Nat) : (s.signal w v).fw = s.fw := rfl
@[simp] theorem State.signal_boot (s : State) (w v : Nat) : (s.signal w v).boot = s.boot := rfl
@[simp] theorem State.signal_pins (s : State) (w v : Nat) : (s.signal w v).pins = s.pins := rfl
@[simp] theorem State.signal_temps (s : State) (w v : Nat) : (s.signal w v).temps = s.temps := rfl
@[simp] theorem State.signal_pwr (s : State) (w v : Nat) : (s.signal w v).pwr = s.pwr := rfl
@[simp] theorem State.signal_energy (s : State) (w v : Nat) : (s.signal w v).energy = s.energy := rfl
@[simp] theorem State.signal_ptp (s : State) (w v : Nat) : (s.signal w v).ptp = s.ptp := rfl
@[simp] theorem State.signal_off (s : State) (w v : Nat) : (s.signal w v).off = s.off := rfl

/-! ## `State.setStream` -/

@[simp] theorem State.setStream_pending (s : State) (k : Nat) (x : Stream) : (s.setStream k x).pending = s.pending := rfl
@[simp] theorem State.setStream_out (s : State) (k : Nat) (x : Stream) : (s.setStream k x).out = s.out := rfl
@[simp] theorem State.setStream_dp (s : State) (k : Nat) (x : Stream) : (s.setStream k x).dp = s.dp := rfl
@[simp] theorem State.setStream_ops (s : State) (k : Nat) (x : Stream) : (s.setStream k x).ops = s.ops := rfl
@[simp] theorem State.setStream_nextOp (s : State) (k : Nat) (x : Stream) : (s.setStream k x).nextOp = s.nextOp := rfl
@[simp] theorem State.setStream_ctxs (s : State) (k : Nat) (x : Stream) : (s.setStream k x).ctxs = s.ctxs := rfl
@[simp] theorem State.setStream_sig (s : State) (k : Nat) (x : Stream) : (s.setStream k x).sig = s.sig := rfl
@[simp] theorem State.setStream_turn (s : State) (k : Nat) (x : Stream) : (s.setStream k x).turn = s.turn := rfl
@[simp] theorem State.setStream_turnUsed (s : State) (k : Nat) (x : Stream) : (s.setStream k x).turnUsed = s.turnUsed := rfl
@[simp] theorem State.setStream_scheds (s : State) (k : Nat) (x : Stream) : (s.setStream k x).scheds = s.scheds := rfl
@[simp] theorem State.setStream_zl (s : State) (k : Nat) (x : Stream) : (s.setStream k x).zl = s.zl := rfl
@[simp] theorem State.setStream_zlReads (s : State) (k : Nat) (x : Stream) : (s.setStream k x).zlReads = s.zlReads := rfl
@[simp] theorem State.setStream_zlTag (s : State) (k : Nat) (x : Stream) : (s.setStream k x).zlTag = s.zlTag := rfl
@[simp] theorem State.setStream_mbx (s : State) (k : Nat) (x : Stream) : (s.setStream k x).mbx = s.mbx := rfl
@[simp] theorem State.setStream_db (s : State) (k : Nat) (x : Stream) : (s.setStream k x).db = s.db := rfl
@[simp] theorem State.setStream_soune (s : State) (k : Nat) (x : Stream) : (s.setStream k x).soune = s.soune := rfl
@[simp] theorem State.setStream_colls (s : State) (k : Nat) (x : Stream) : (s.setStream k x).colls = s.colls := rfl
@[simp] theorem State.setStream_joins (s : State) (k : Nat) (x : Stream) : (s.setStream k x).joins = s.joins := rfl
@[simp] theorem State.setStream_late (s : State) (k : Nat) (x : Stream) : (s.setStream k x).late = s.late := rfl
@[simp] theorem State.setStream_started (s : State) (k : Nat) (x : Stream) : (s.setStream k x).started = s.started := rfl
@[simp] theorem State.setStream_skipped (s : State) (k : Nat) (x : Stream) : (s.setStream k x).skipped = s.skipped := rfl
@[simp] theorem State.setStream_mgr (s : State) (k : Nat) (x : Stream) : (s.setStream k x).mgr = s.mgr := rfl
@[simp] theorem State.setStream_groups (s : State) (k : Nat) (x : Stream) : (s.setStream k x).groups = s.groups := rfl
@[simp] theorem State.setStream_twin (s : State) (k : Nat) (x : Stream) : (s.setStream k x).twin = s.twin := rfl
@[simp] theorem State.setStream_fault (s : State) (k : Nat) (x : Stream) : (s.setStream k x).fault = s.fault := rfl
@[simp] theorem State.setStream_gens (s : State) (k : Nat) (x : Stream) : (s.setStream k x).gens = s.gens := rfl
@[simp] theorem State.setStream_serve (s : State) (k : Nat) (x : Stream) : (s.setStream k x).serve = s.serve := rfl
@[simp] theorem State.setStream_mpools (s : State) (k : Nat) (x : Stream) : (s.setStream k x).mpools = s.mpools := rfl
@[simp] theorem State.setStream_seqTable (s : State) (k : Nat) (x : Stream) : (s.setStream k x).seqTable = s.seqTable := rfl
@[simp] theorem State.setStream_media (s : State) (k : Nat) (x : Stream) : (s.setStream k x).media = s.media := rfl
@[simp] theorem State.setStream_ing (s : State) (k : Nat) (x : Stream) : (s.setStream k x).ing = s.ing := rfl
@[simp] theorem State.setStream_carries (s : State) (k : Nat) (x : Stream) : (s.setStream k x).carries = s.carries := rfl
@[simp] theorem State.setStream_ingTimes (s : State) (k : Nat) (x : Stream) : (s.setStream k x).ingTimes = s.ingTimes := rfl
@[simp] theorem State.setStream_mgmt (s : State) (k : Nat) (x : Stream) : (s.setStream k x).mgmt = s.mgmt := rfl
@[simp] theorem State.setStream_fw (s : State) (k : Nat) (x : Stream) : (s.setStream k x).fw = s.fw := rfl
@[simp] theorem State.setStream_boot (s : State) (k : Nat) (x : Stream) : (s.setStream k x).boot = s.boot := rfl
@[simp] theorem State.setStream_pins (s : State) (k : Nat) (x : Stream) : (s.setStream k x).pins = s.pins := rfl
@[simp] theorem State.setStream_temps (s : State) (k : Nat) (x : Stream) : (s.setStream k x).temps = s.temps := rfl
@[simp] theorem State.setStream_pwr (s : State) (k : Nat) (x : Stream) : (s.setStream k x).pwr = s.pwr := rfl
@[simp] theorem State.setStream_energy (s : State) (k : Nat) (x : Stream) : (s.setStream k x).energy = s.energy := rfl
@[simp] theorem State.setStream_ptp (s : State) (k : Nat) (x : Stream) : (s.setStream k x).ptp = s.ptp := rfl
@[simp] theorem State.setStream_off (s : State) (k : Nat) (x : Stream) : (s.setStream k x).off = s.off := rfl

/-! ## `State.setSrv` -/

@[simp] theorem State.setSrv_pending (s : State) (c : Nat) (x : Serve) : (s.setSrv c x).pending = s.pending := rfl
@[simp] theorem State.setSrv_out (s : State) (c : Nat) (x : Serve) : (s.setSrv c x).out = s.out := rfl
@[simp] theorem State.setSrv_dp (s : State) (c : Nat) (x : Serve) : (s.setSrv c x).dp = s.dp := rfl
@[simp] theorem State.setSrv_ops (s : State) (c : Nat) (x : Serve) : (s.setSrv c x).ops = s.ops := rfl
@[simp] theorem State.setSrv_nextOp (s : State) (c : Nat) (x : Serve) : (s.setSrv c x).nextOp = s.nextOp := rfl
@[simp] theorem State.setSrv_ctxs (s : State) (c : Nat) (x : Serve) : (s.setSrv c x).ctxs = s.ctxs := rfl
@[simp] theorem State.setSrv_sig (s : State) (c : Nat) (x : Serve) : (s.setSrv c x).sig = s.sig := rfl
@[simp] theorem State.setSrv_turn (s : State) (c : Nat) (x : Serve) : (s.setSrv c x).turn = s.turn := rfl
@[simp] theorem State.setSrv_turnUsed (s : State) (c : Nat) (x : Serve) : (s.setSrv c x).turnUsed = s.turnUsed := rfl
@[simp] theorem State.setSrv_scheds (s : State) (c : Nat) (x : Serve) : (s.setSrv c x).scheds = s.scheds := rfl
@[simp] theorem State.setSrv_zl (s : State) (c : Nat) (x : Serve) : (s.setSrv c x).zl = s.zl := rfl
@[simp] theorem State.setSrv_zlReads (s : State) (c : Nat) (x : Serve) : (s.setSrv c x).zlReads = s.zlReads := rfl
@[simp] theorem State.setSrv_zlTag (s : State) (c : Nat) (x : Serve) : (s.setSrv c x).zlTag = s.zlTag := rfl
@[simp] theorem State.setSrv_mbx (s : State) (c : Nat) (x : Serve) : (s.setSrv c x).mbx = s.mbx := rfl
@[simp] theorem State.setSrv_db (s : State) (c : Nat) (x : Serve) : (s.setSrv c x).db = s.db := rfl
@[simp] theorem State.setSrv_soune (s : State) (c : Nat) (x : Serve) : (s.setSrv c x).soune = s.soune := rfl
@[simp] theorem State.setSrv_colls (s : State) (c : Nat) (x : Serve) : (s.setSrv c x).colls = s.colls := rfl
@[simp] theorem State.setSrv_joins (s : State) (c : Nat) (x : Serve) : (s.setSrv c x).joins = s.joins := rfl
@[simp] theorem State.setSrv_late (s : State) (c : Nat) (x : Serve) : (s.setSrv c x).late = s.late := rfl
@[simp] theorem State.setSrv_started (s : State) (c : Nat) (x : Serve) : (s.setSrv c x).started = s.started := rfl
@[simp] theorem State.setSrv_skipped (s : State) (c : Nat) (x : Serve) : (s.setSrv c x).skipped = s.skipped := rfl
@[simp] theorem State.setSrv_mgr (s : State) (c : Nat) (x : Serve) : (s.setSrv c x).mgr = s.mgr := rfl
@[simp] theorem State.setSrv_groups (s : State) (c : Nat) (x : Serve) : (s.setSrv c x).groups = s.groups := rfl
@[simp] theorem State.setSrv_twin (s : State) (c : Nat) (x : Serve) : (s.setSrv c x).twin = s.twin := rfl
@[simp] theorem State.setSrv_fault (s : State) (c : Nat) (x : Serve) : (s.setSrv c x).fault = s.fault := rfl
@[simp] theorem State.setSrv_seq (s : State) (c : Nat) (x : Serve) : (s.setSrv c x).seq = s.seq := rfl
@[simp] theorem State.setSrv_gens (s : State) (c : Nat) (x : Serve) : (s.setSrv c x).gens = s.gens := rfl
@[simp] theorem State.setSrv_mpools (s : State) (c : Nat) (x : Serve) : (s.setSrv c x).mpools = s.mpools := rfl
@[simp] theorem State.setSrv_seqTable (s : State) (c : Nat) (x : Serve) : (s.setSrv c x).seqTable = s.seqTable := rfl
@[simp] theorem State.setSrv_media (s : State) (c : Nat) (x : Serve) : (s.setSrv c x).media = s.media := rfl
@[simp] theorem State.setSrv_ing (s : State) (c : Nat) (x : Serve) : (s.setSrv c x).ing = s.ing := rfl
@[simp] theorem State.setSrv_carries (s : State) (c : Nat) (x : Serve) : (s.setSrv c x).carries = s.carries := rfl
@[simp] theorem State.setSrv_ingTimes (s : State) (c : Nat) (x : Serve) : (s.setSrv c x).ingTimes = s.ingTimes := rfl
@[simp] theorem State.setSrv_mgmt (s : State) (c : Nat) (x : Serve) : (s.setSrv c x).mgmt = s.mgmt := rfl
@[simp] theorem State.setSrv_fw (s : State) (c : Nat) (x : Serve) : (s.setSrv c x).fw = s.fw := rfl
@[simp] theorem State.setSrv_boot (s : State) (c : Nat) (x : Serve) : (s.setSrv c x).boot = s.boot := rfl
@[simp] theorem State.setSrv_pins (s : State) (c : Nat) (x : Serve) : (s.setSrv c x).pins = s.pins := rfl
@[simp] theorem State.setSrv_temps (s : State) (c : Nat) (x : Serve) : (s.setSrv c x).temps = s.temps := rfl
@[simp] theorem State.setSrv_pwr (s : State) (c : Nat) (x : Serve) : (s.setSrv c x).pwr = s.pwr := rfl
@[simp] theorem State.setSrv_energy (s : State) (c : Nat) (x : Serve) : (s.setSrv c x).energy = s.energy := rfl
@[simp] theorem State.setSrv_ptp (s : State) (c : Nat) (x : Serve) : (s.setSrv c x).ptp = s.ptp := rfl
@[simp] theorem State.setSrv_off (s : State) (c : Nat) (x : Serve) : (s.setSrv c x).off = s.off := rfl

/-! ## `State.inside` -/

@[simp] theorem State.inside_pending (s t : State) : (s.inside t).pending = s.pending := rfl
@[simp] theorem State.inside_out (s t : State) : (s.inside t).out = t.out := rfl
@[simp] theorem State.inside_dp (s t : State) : (s.inside t).dp = t.dp := rfl
@[simp] theorem State.inside_ops (s t : State) : (s.inside t).ops = t.ops := rfl
@[simp] theorem State.inside_nextOp (s t : State) : (s.inside t).nextOp = t.nextOp := rfl
@[simp] theorem State.inside_ctxs (s t : State) : (s.inside t).ctxs = t.ctxs := rfl
@[simp] theorem State.inside_sig (s t : State) : (s.inside t).sig = t.sig := rfl
@[simp] theorem State.inside_turn (s t : State) : (s.inside t).turn = t.turn := rfl
@[simp] theorem State.inside_turnUsed (s t : State) : (s.inside t).turnUsed = t.turnUsed := rfl
@[simp] theorem State.inside_scheds (s t : State) : (s.inside t).scheds = t.scheds := rfl
@[simp] theorem State.inside_zl (s t : State) : (s.inside t).zl = t.zl := rfl
@[simp] theorem State.inside_zlReads (s t : State) : (s.inside t).zlReads = t.zlReads := rfl
@[simp] theorem State.inside_zlTag (s t : State) : (s.inside t).zlTag = t.zlTag := rfl
@[simp] theorem State.inside_mbx (s t : State) : (s.inside t).mbx = t.mbx := rfl
@[simp] theorem State.inside_db (s t : State) : (s.inside t).db = t.db := rfl
@[simp] theorem State.inside_soune (s t : State) : (s.inside t).soune = t.soune := rfl
@[simp] theorem State.inside_colls (s t : State) : (s.inside t).colls = t.colls := rfl
@[simp] theorem State.inside_joins (s t : State) : (s.inside t).joins = t.joins := rfl
@[simp] theorem State.inside_late (s t : State) : (s.inside t).late = t.late := rfl
@[simp] theorem State.inside_started (s t : State) : (s.inside t).started = t.started := rfl
@[simp] theorem State.inside_skipped (s t : State) : (s.inside t).skipped = t.skipped := rfl
@[simp] theorem State.inside_mgr (s t : State) : (s.inside t).mgr = t.mgr := rfl
@[simp] theorem State.inside_groups (s t : State) : (s.inside t).groups = t.groups := rfl
@[simp] theorem State.inside_twin (s t : State) : (s.inside t).twin = t.twin := rfl
@[simp] theorem State.inside_fault (s t : State) : (s.inside t).fault = t.fault := rfl
@[simp] theorem State.inside_seq (s t : State) : (s.inside t).seq = t.seq := rfl
@[simp] theorem State.inside_gens (s t : State) : (s.inside t).gens = t.gens := rfl
@[simp] theorem State.inside_serve (s t : State) : (s.inside t).serve = t.serve := rfl
@[simp] theorem State.inside_mpools (s t : State) : (s.inside t).mpools = t.mpools := rfl
@[simp] theorem State.inside_seqTable (s t : State) : (s.inside t).seqTable = t.seqTable := rfl
@[simp] theorem State.inside_media (s t : State) : (s.inside t).media = t.media := rfl
@[simp] theorem State.inside_ing (s t : State) : (s.inside t).ing = t.ing := rfl
@[simp] theorem State.inside_carries (s t : State) : (s.inside t).carries = t.carries := rfl
@[simp] theorem State.inside_ingTimes (s t : State) : (s.inside t).ingTimes = t.ingTimes := rfl
@[simp] theorem State.inside_mgmt (s t : State) : (s.inside t).mgmt = t.mgmt := rfl
@[simp] theorem State.inside_fw (s t : State) : (s.inside t).fw = t.fw := rfl
@[simp] theorem State.inside_boot (s t : State) : (s.inside t).boot = t.boot := rfl
@[simp] theorem State.inside_pins (s t : State) : (s.inside t).pins = s.pins := rfl
@[simp] theorem State.inside_temps (s t : State) : (s.inside t).temps = s.temps := rfl
@[simp] theorem State.inside_pwr (s t : State) : (s.inside t).pwr = t.pwr := rfl
@[simp] theorem State.inside_energy (s t : State) : (s.inside t).energy = t.energy := rfl
@[simp] theorem State.inside_ptp (s t : State) : (s.inside t).ptp = t.ptp := rfl
@[simp] theorem State.inside_off (s t : State) : (s.inside t).off = s.off := rfl

/-! ## `setPins` -/

@[simp] theorem setPins_pending (s : State) (p : Pins) : (setPins s p).pending = s.pending := rfl
@[simp] theorem setPins_out (s : State) (p : Pins) : (setPins s p).out = s.out := rfl
@[simp] theorem setPins_dp (s : State) (p : Pins) : (setPins s p).dp = s.dp := rfl
@[simp] theorem setPins_ops (s : State) (p : Pins) : (setPins s p).ops = s.ops := rfl
@[simp] theorem setPins_nextOp (s : State) (p : Pins) : (setPins s p).nextOp = s.nextOp := rfl
@[simp] theorem setPins_ctxs (s : State) (p : Pins) : (setPins s p).ctxs = s.ctxs := rfl
@[simp] theorem setPins_sig (s : State) (p : Pins) : (setPins s p).sig = s.sig := rfl
@[simp] theorem setPins_turn (s : State) (p : Pins) : (setPins s p).turn = s.turn := rfl
@[simp] theorem setPins_turnUsed (s : State) (p : Pins) : (setPins s p).turnUsed = s.turnUsed := rfl
@[simp] theorem setPins_scheds (s : State) (p : Pins) : (setPins s p).scheds = s.scheds := rfl
@[simp] theorem setPins_zl (s : State) (p : Pins) : (setPins s p).zl = s.zl := rfl
@[simp] theorem setPins_zlReads (s : State) (p : Pins) : (setPins s p).zlReads = s.zlReads := rfl
@[simp] theorem setPins_zlTag (s : State) (p : Pins) : (setPins s p).zlTag = s.zlTag := rfl
@[simp] theorem setPins_mbx (s : State) (p : Pins) : (setPins s p).mbx = s.mbx := rfl
@[simp] theorem setPins_db (s : State) (p : Pins) : (setPins s p).db = s.db := rfl
@[simp] theorem setPins_soune (s : State) (p : Pins) : (setPins s p).soune = s.soune := rfl
@[simp] theorem setPins_colls (s : State) (p : Pins) : (setPins s p).colls = s.colls := rfl
@[simp] theorem setPins_joins (s : State) (p : Pins) : (setPins s p).joins = s.joins := rfl
@[simp] theorem setPins_late (s : State) (p : Pins) : (setPins s p).late = s.late := rfl
@[simp] theorem setPins_started (s : State) (p : Pins) : (setPins s p).started = s.started := rfl
@[simp] theorem setPins_skipped (s : State) (p : Pins) : (setPins s p).skipped = s.skipped := rfl
@[simp] theorem setPins_mgr (s : State) (p : Pins) : (setPins s p).mgr = s.mgr := rfl
@[simp] theorem setPins_groups (s : State) (p : Pins) : (setPins s p).groups = s.groups := rfl
@[simp] theorem setPins_twin (s : State) (p : Pins) : (setPins s p).twin = s.twin := rfl
@[simp] theorem setPins_fault (s : State) (p : Pins) : (setPins s p).fault = s.fault := rfl
@[simp] theorem setPins_seq (s : State) (p : Pins) : (setPins s p).seq = s.seq := rfl
@[simp] theorem setPins_gens (s : State) (p : Pins) : (setPins s p).gens = s.gens := rfl
@[simp] theorem setPins_serve (s : State) (p : Pins) : (setPins s p).serve = s.serve := rfl
@[simp] theorem setPins_mpools (s : State) (p : Pins) : (setPins s p).mpools = s.mpools := rfl
@[simp] theorem setPins_seqTable (s : State) (p : Pins) : (setPins s p).seqTable = s.seqTable := rfl
@[simp] theorem setPins_media (s : State) (p : Pins) : (setPins s p).media = s.media := rfl
@[simp] theorem setPins_ing (s : State) (p : Pins) : (setPins s p).ing = s.ing := rfl
@[simp] theorem setPins_carries (s : State) (p : Pins) : (setPins s p).carries = s.carries := rfl
@[simp] theorem setPins_ingTimes (s : State) (p : Pins) : (setPins s p).ingTimes = s.ingTimes := rfl
@[simp] theorem setPins_mgmt (s : State) (p : Pins) : (setPins s p).mgmt = s.mgmt := rfl
@[simp] theorem setPins_fw (s : State) (p : Pins) : (setPins s p).fw = s.fw := rfl
@[simp] theorem setPins_boot (s : State) (p : Pins) : (setPins s p).boot = s.boot := rfl
@[simp] theorem setPins_pins (s : State) (p : Pins) : (setPins s p).pins = p := rfl
@[simp] theorem setPins_temps (s : State) (p : Pins) : (setPins s p).temps = s.temps := rfl
@[simp] theorem setPins_pwr (s : State) (p : Pins) : (setPins s p).pwr = s.pwr := rfl
@[simp] theorem setPins_energy (s : State) (p : Pins) : (setPins s p).energy = s.energy := rfl
@[simp] theorem setPins_ptp (s : State) (p : Pins) : (setPins s p).ptp = s.ptp := rfl
@[simp] theorem setPins_off (s : State) (p : Pins) : (setPins s p).off = s.off := rfl

/-! ## `setTwin` -/

@[simp] theorem setTwin_pending (s : State) (x : Twin) : (setTwin s x).pending = s.pending := rfl
@[simp] theorem setTwin_out (s : State) (x : Twin) : (setTwin s x).out = s.out := rfl
@[simp] theorem setTwin_dp (s : State) (x : Twin) : (setTwin s x).dp = s.dp := rfl
@[simp] theorem setTwin_ops (s : State) (x : Twin) : (setTwin s x).ops = s.ops := rfl
@[simp] theorem setTwin_nextOp (s : State) (x : Twin) : (setTwin s x).nextOp = s.nextOp := rfl
@[simp] theorem setTwin_ctxs (s : State) (x : Twin) : (setTwin s x).ctxs = s.ctxs := rfl
@[simp] theorem setTwin_sig (s : State) (x : Twin) : (setTwin s x).sig = s.sig := rfl
@[simp] theorem setTwin_turn (s : State) (x : Twin) : (setTwin s x).turn = s.turn := rfl
@[simp] theorem setTwin_turnUsed (s : State) (x : Twin) : (setTwin s x).turnUsed = s.turnUsed := rfl
@[simp] theorem setTwin_scheds (s : State) (x : Twin) : (setTwin s x).scheds = s.scheds := rfl
@[simp] theorem setTwin_zl (s : State) (x : Twin) : (setTwin s x).zl = s.zl := rfl
@[simp] theorem setTwin_zlReads (s : State) (x : Twin) : (setTwin s x).zlReads = s.zlReads := rfl
@[simp] theorem setTwin_zlTag (s : State) (x : Twin) : (setTwin s x).zlTag = s.zlTag := rfl
@[simp] theorem setTwin_mbx (s : State) (x : Twin) : (setTwin s x).mbx = s.mbx := rfl
@[simp] theorem setTwin_db (s : State) (x : Twin) : (setTwin s x).db = s.db := rfl
@[simp] theorem setTwin_soune (s : State) (x : Twin) : (setTwin s x).soune = s.soune := rfl
@[simp] theorem setTwin_colls (s : State) (x : Twin) : (setTwin s x).colls = s.colls := rfl
@[simp] theorem setTwin_joins (s : State) (x : Twin) : (setTwin s x).joins = s.joins := rfl
@[simp] theorem setTwin_late (s : State) (x : Twin) : (setTwin s x).late = s.late := rfl
@[simp] theorem setTwin_started (s : State) (x : Twin) : (setTwin s x).started = s.started := rfl
@[simp] theorem setTwin_skipped (s : State) (x : Twin) : (setTwin s x).skipped = s.skipped := rfl
@[simp] theorem setTwin_mgr (s : State) (x : Twin) : (setTwin s x).mgr = s.mgr := rfl
@[simp] theorem setTwin_groups (s : State) (x : Twin) : (setTwin s x).groups = s.groups := rfl
@[simp] theorem setTwin_twin (s : State) (x : Twin) : (setTwin s x).twin = x := rfl
@[simp] theorem setTwin_fault (s : State) (x : Twin) : (setTwin s x).fault = s.fault := rfl
@[simp] theorem setTwin_seq (s : State) (x : Twin) : (setTwin s x).seq = s.seq := rfl
@[simp] theorem setTwin_gens (s : State) (x : Twin) : (setTwin s x).gens = s.gens := rfl
@[simp] theorem setTwin_serve (s : State) (x : Twin) : (setTwin s x).serve = s.serve := rfl
@[simp] theorem setTwin_mpools (s : State) (x : Twin) : (setTwin s x).mpools = s.mpools := rfl
@[simp] theorem setTwin_seqTable (s : State) (x : Twin) : (setTwin s x).seqTable = s.seqTable := rfl
@[simp] theorem setTwin_media (s : State) (x : Twin) : (setTwin s x).media = s.media := rfl
@[simp] theorem setTwin_ing (s : State) (x : Twin) : (setTwin s x).ing = s.ing := rfl
@[simp] theorem setTwin_carries (s : State) (x : Twin) : (setTwin s x).carries = s.carries := rfl
@[simp] theorem setTwin_ingTimes (s : State) (x : Twin) : (setTwin s x).ingTimes = s.ingTimes := rfl
@[simp] theorem setTwin_mgmt (s : State) (x : Twin) : (setTwin s x).mgmt = s.mgmt := rfl
@[simp] theorem setTwin_fw (s : State) (x : Twin) : (setTwin s x).fw = s.fw := rfl
@[simp] theorem setTwin_boot (s : State) (x : Twin) : (setTwin s x).boot = s.boot := rfl
@[simp] theorem setTwin_pins (s : State) (x : Twin) : (setTwin s x).pins = s.pins := rfl
@[simp] theorem setTwin_temps (s : State) (x : Twin) : (setTwin s x).temps = s.temps := rfl
@[simp] theorem setTwin_pwr (s : State) (x : Twin) : (setTwin s x).pwr = s.pwr := rfl
@[simp] theorem setTwin_energy (s : State) (x : Twin) : (setTwin s x).energy = s.energy := rfl
@[simp] theorem setTwin_ptp (s : State) (x : Twin) : (setTwin s x).ptp = s.ptp := rfl
@[simp] theorem setTwin_off (s : State) (x : Twin) : (setTwin s x).off = s.off := rfl

/-! ## `setDb` -/

@[simp] theorem setDb_pending (s : State) (o v : Nat) : (setDb s o v).pending = s.pending := rfl
@[simp] theorem setDb_out (s : State) (o v : Nat) : (setDb s o v).out = s.out := rfl
@[simp] theorem setDb_dp (s : State) (o v : Nat) : (setDb s o v).dp = s.dp := rfl
@[simp] theorem setDb_ops (s : State) (o v : Nat) : (setDb s o v).ops = s.ops := rfl
@[simp] theorem setDb_nextOp (s : State) (o v : Nat) : (setDb s o v).nextOp = s.nextOp := rfl
@[simp] theorem setDb_ctxs (s : State) (o v : Nat) : (setDb s o v).ctxs = s.ctxs := rfl
@[simp] theorem setDb_sig (s : State) (o v : Nat) : (setDb s o v).sig = s.sig := rfl
@[simp] theorem setDb_turn (s : State) (o v : Nat) : (setDb s o v).turn = s.turn := rfl
@[simp] theorem setDb_turnUsed (s : State) (o v : Nat) : (setDb s o v).turnUsed = s.turnUsed := rfl
@[simp] theorem setDb_scheds (s : State) (o v : Nat) : (setDb s o v).scheds = s.scheds := rfl
@[simp] theorem setDb_zl (s : State) (o v : Nat) : (setDb s o v).zl = s.zl := rfl
@[simp] theorem setDb_zlReads (s : State) (o v : Nat) : (setDb s o v).zlReads = s.zlReads := rfl
@[simp] theorem setDb_zlTag (s : State) (o v : Nat) : (setDb s o v).zlTag = s.zlTag := rfl
@[simp] theorem setDb_mbx (s : State) (o v : Nat) : (setDb s o v).mbx = s.mbx := rfl
@[simp] theorem setDb_db (s : State) (o v : Nat) : (setDb s o v).db = kvSet 0 s.db o v := rfl
@[simp] theorem setDb_soune (s : State) (o v : Nat) : (setDb s o v).soune = s.soune := rfl
@[simp] theorem setDb_colls (s : State) (o v : Nat) : (setDb s o v).colls = s.colls := rfl
@[simp] theorem setDb_joins (s : State) (o v : Nat) : (setDb s o v).joins = s.joins := rfl
@[simp] theorem setDb_late (s : State) (o v : Nat) : (setDb s o v).late = s.late := rfl
@[simp] theorem setDb_started (s : State) (o v : Nat) : (setDb s o v).started = s.started := rfl
@[simp] theorem setDb_skipped (s : State) (o v : Nat) : (setDb s o v).skipped = s.skipped := rfl
@[simp] theorem setDb_mgr (s : State) (o v : Nat) : (setDb s o v).mgr = s.mgr := rfl
@[simp] theorem setDb_groups (s : State) (o v : Nat) : (setDb s o v).groups = s.groups := rfl
@[simp] theorem setDb_twin (s : State) (o v : Nat) : (setDb s o v).twin = s.twin := rfl
@[simp] theorem setDb_fault (s : State) (o v : Nat) : (setDb s o v).fault = s.fault := rfl
@[simp] theorem setDb_seq (s : State) (o v : Nat) : (setDb s o v).seq = s.seq := rfl
@[simp] theorem setDb_gens (s : State) (o v : Nat) : (setDb s o v).gens = s.gens := rfl
@[simp] theorem setDb_serve (s : State) (o v : Nat) : (setDb s o v).serve = s.serve := rfl
@[simp] theorem setDb_mpools (s : State) (o v : Nat) : (setDb s o v).mpools = s.mpools := rfl
@[simp] theorem setDb_seqTable (s : State) (o v : Nat) : (setDb s o v).seqTable = s.seqTable := rfl
@[simp] theorem setDb_media (s : State) (o v : Nat) : (setDb s o v).media = s.media := rfl
@[simp] theorem setDb_ing (s : State) (o v : Nat) : (setDb s o v).ing = s.ing := rfl
@[simp] theorem setDb_carries (s : State) (o v : Nat) : (setDb s o v).carries = s.carries := rfl
@[simp] theorem setDb_ingTimes (s : State) (o v : Nat) : (setDb s o v).ingTimes = s.ingTimes := rfl
@[simp] theorem setDb_mgmt (s : State) (o v : Nat) : (setDb s o v).mgmt = s.mgmt := rfl
@[simp] theorem setDb_fw (s : State) (o v : Nat) : (setDb s o v).fw = s.fw := rfl
@[simp] theorem setDb_boot (s : State) (o v : Nat) : (setDb s o v).boot = s.boot := rfl
@[simp] theorem setDb_pins (s : State) (o v : Nat) : (setDb s o v).pins = s.pins := rfl
@[simp] theorem setDb_temps (s : State) (o v : Nat) : (setDb s o v).temps = s.temps := rfl
@[simp] theorem setDb_pwr (s : State) (o v : Nat) : (setDb s o v).pwr = s.pwr := rfl
@[simp] theorem setDb_energy (s : State) (o v : Nat) : (setDb s o v).energy = s.energy := rfl
@[simp] theorem setDb_ptp (s : State) (o v : Nat) : (setDb s o v).ptp = s.ptp := rfl
@[simp] theorem setDb_off (s : State) (o v : Nat) : (setDb s o v).off = s.off := rfl

/-! ## What the updates set -/

@[simp] theorem State.setDp_dp (s : State) (d : Dp) : (s.setDp d).dp = d := rfl
@[simp] theorem State.setObj_dp (s : State) (k v : Nat) : (s.setObj k v).dp = objSet s.dp k v := rfl
@[simp] theorem State.bump_dp (s : State) (k n : Nat) : (s.bump k n).dp = Sys2Proof.Machine.bump s.dp k n := rfl
@[simp] theorem State.log_dp (s : State) (e : Event) : (s.log e).dp = logEvent s.dp e := rfl
@[simp] theorem State.send_out (s : State) (k : OutKind) (d : Nat) (l : List Nat) : (s.send k d l).out = s.out ++ [⟨k, d, l⟩] := rfl
@[simp] theorem State.putOp_ops (s : State) (o : Op) : (s.putOp o).ops = s.ops.map (fun x => if x.id = o.id then o else x) := rfl
@[simp] theorem State.setCtx_ctxs (s : State) (c : Nat) (x : Ctx) : (s.setCtx c x).ctxs = kvSet {} s.ctxs c x := rfl
@[simp] theorem State.signal_sig (s : State) (w v : Nat) : (s.signal w v).sig = kvSet 0 s.sig w ((kvGet 0 s.sig w + v) % 2 ^ 64) := rfl
@[simp] theorem State.setStream_seq (s : State) (k : Nat) (x : Stream) : (s.setStream k x).seq = kvSet {} s.seq k x := rfl
@[simp] theorem State.setSrv_serve (s : State) (c : Nat) (x : Serve) : (s.setSrv c x).serve = kvSet {} s.serve c x := rfl

/-! ## The whole state -/

/-- A command of the device that leaves the waiting commands, the signals and the temperatures alone is what it does. -/
theorem State.inside_eq {s t : State} (h1 : t.pending = s.pending) (h2 : t.off = s.off) (h3 : t.pins = s.pins) (h4 : t.temps = s.temps) :
    s.inside t = t := by
  cases t; simp_all [State.inside]

@[simp] theorem State.inside_self (s : State) : s.inside s = s := rfl

end Sys2Proof.Machine
end

