-- ==== Sys2Proof/Laws/Step.lean ====
section
/-! SUPPORT. What the shared operations of commands can do: `live` and the operations built on it, the signals, and a step. -/

namespace Sys2Proof.Machine

/-! ## Commands of the device -/

theorem live_off {s : State} (f : State → State) (h : s.off = true) : live s f = .next s := by simp [live, h]

theorem live_on {s : State} (f : State → State) (h : s.off = false) : live s f = .next (s.inside (f s)) := by simp [live, h]

/-- A command of a running device that leaves the signals alone is what it does. -/
theorem live_eq {s : State} {f : State → State} (h : s.off = false) (hp : (f s).pending = s.pending) (ho : (f s).off = s.off)
    (hn : (f s).pins = s.pins) (ht : (f s).temps = s.temps) : live s f = .next (f s) := by
  rw [live_on f h, State.inside_eq hp ho hn ht]

/-- All that a command of the device can do to what is not the device's. -/
theorem live_next {s t : State} {f : State → State} (h : live s f = .next t) :
    t.pending = s.pending ∧ t.off = s.off ∧ t.pins = s.pins ∧ t.temps = s.temps := by
  simp only [live, Host.Outcome.next.injEq] at h
  subst h
  split <;> simp

theorem live_running {s t : State} {f : State → State} (h : live s f = .next t) (ho : s.off = false) : t = s.inside (f s) := by
  rw [live_on f ho] at h; exact (Host.Outcome.next.inj h).symm

theorem onCtx_present {c : Nat} (s : State) (f : State → State) (h : c < 256) : onCtx c s f = live s f := by
  simp [onCtx, ctxCount, h]

theorem onCtx_absent {c : Nat} (s : State) (f : State → State) (h : 256 ≤ c) : onCtx c s f = .next s := by
  simp [onCtx, ctxCount, Nat.not_lt.mpr h]

/-- What a command for a context can do to what is not the device's. -/
theorem onCtx_next {c : Nat} {s t : State} {f : State → State} (h : onCtx c s f = .next t) :
    t.pending = s.pending ∧ t.off = s.off ∧ t.pins = s.pins ∧ t.temps = s.temps := by
  unfold onCtx at h; split at h
  · exact live_next h
  · cases h; exact ⟨rfl, rfl, rfl, rfl⟩

/-- A started op of a form runs its meaning. -/
theorem onForm_started {s : State} {id : Nat} {o : Op} {f : Form} (k : State → Op → State) (h : Started s id o f) :
    onForm f id k s = k s o := by
  obtain ⟨_, h2, h3, h4⟩ := h
  simp [onForm, h2, h3, h4]

theorem live_onForm {s : State} {id : Nat} {o : Op} {f : Form} (k : State → Op → State) (h : Started s id o f) :
    live s (onForm f id k) = .next (s.inside (k s o)) := by
  rw [live_on _ h.1, onForm_started k h]

/-- Work whose accesses are all admitted some time is done. -/
theorem onWork_works {s : State} {id : Nat} {o : Op} {f : Form} (k : State → Op → State) (h : Works s id o f) :
    onWork f id k s = k s o := by
  rw [onWork, onForm_started _ h.1]
  simp [admitted, starves, h.2]

theorem live_onWork {s : State} {id : Nat} {o : Op} {f : Form} (k : State → Op → State) (h : Works s id o f) :
    live s (onWork f id k) = .next (s.inside (k s o)) := by
  rw [live_on _ h.1.1, onWork_works k h]

/-- Work that waits for tokens which never come leaves the state as it is. -/
theorem live_onWork_starved {s : State} {id : Nat} {o : Op} {f : Form} (k : State → Op → State) (h : Started s id o f)
    (hs : starves s.dp (k s o).dp (cPartition (s.ctx o.ctx).record) = true) : live s (onWork f id k) = .next s := by
  rw [live_on _ h.1, onWork, onForm_started _ h, admitted, hs]
  rfl

/-! ## Signals -/

/-- A device leaves reset when both signals are high, and otherwise stays as it is. -/
theorem tryLeave_cases (s : State) :
    (s.off = true ∧ s.pins.modRst = true ∧ s.pins.pwrGood = true ∧ tryLeave s = afterReset s s.pins.nextKind) ∨
    ((s.off = false ∨ s.pins.modRst = false ∨ s.pins.pwrGood = false) ∧ tryLeave s = s) := by
  unfold tryLeave
  cases s.off <;> cases s.pins.modRst <;> cases s.pins.pwrGood <;> simp

@[simp] theorem afterReset_off (s : State) (k : Nat) : (afterReset s k).off = false := rfl
@[simp] theorem afterReset_pending (s : State) (k : Nat) : (afterReset s k).pending = s.pending := rfl
@[simp] theorem afterReset_temps (s : State) (k : Nat) : (afterReset s k).temps = s.temps := rfl
@[simp] theorem afterReset_pins (s : State) (k : Nat) : (afterReset s k).pins = { s.pins with nextKind := 2 } := rfl

@[simp] theorem losePower_off (s : State) : (losePower s).off = true := rfl
@[simp] theorem losePower_pending (s : State) : (losePower s).pending = s.pending := rfl
@[simp] theorem losePower_temps (s : State) : (losePower s).temps = s.temps := rfl
@[simp] theorem losePower_pins (s : State) :
    (losePower s).pins = { s.pins with regs := false, pwrGood := false, nextKind := 1 } := rfl

/-- `THERM_TRIP_N` changes nothing but itself. -/
theorem setTrip_cases (s : State) : ∃ x, setTrip s = setPins s { s.pins with tripAt := x } := by
  unfold setTrip; split <;> exact ⟨_, rfl⟩

/-- A trip changes the device, and of the signals only which sensors are in trip. -/
theorem tripCheck_cases (s : State) (n : Nat) (old x : Int) :
    ∃ l, (tripCheck s n old x).pins = { s.pins with trips := l } ∧ (tripCheck s n old x).off = s.off ∧
      (tripCheck s n old x).pending = s.pending ∧ (tripCheck s n old x).temps = s.temps := by
  unfold tripCheck
  split
  · exact ⟨_, rfl, rfl, rfl, rfl⟩
  · split
    · exact ⟨_, rfl, rfl, rfl, rfl⟩
    · exact ⟨_, rfl, rfl, rfl, rfl⟩

theorem warnCross_cases (s : State) (n : Nat) (old x : Int) : ∃ d, warnCross s n old x = s.setDp d := by
  unfold warnCross; simp only []; split
  · exact ⟨_, rfl⟩
  · exact ⟨s.dp, rfl⟩

/-! ## Steps -/

theorem step_empty {s : State} (h : s.pending = []) : step s = .next (idle s) := by simp [step, h]

theorem step_front {s : State} {c : Instr} {rest : List Instr} (h : s.pending = c :: rest) :
    step s = exec c { s with pending := rest } := by simp [step, h]

/-- The device a nanosecond later, before a hardware fault that its memory system has met is raised and a reset takes effect. -/
abbrev ticked (s : State) : State := { s with dp := bucketsGain { s.dp with time := s.dp.time + 1 } 1 }

/-- An idle step of a device whose memory system has met no hardware fault. -/
theorem idle_sound {s : State} (h : s.dp.hwDue = none) :
    idle s = match s.boot.resetDue with
      | some r => if s.off = false ∧ r.2 ≤ s.dp.time + 1 then afterReset (ticked s) r.1 else ticked s
      | none => ticked s := by
  have hu : (ticked s).inside (raiseDue (ticked s)) = ticked s := by
    have : raiseDue (ticked s) = ticked s := by unfold raiseDue; simp [ticked, bucketsGain, h]
    rw [this]; rfl
  unfold idle
  simp only [hu, ite_self]
  cases hr : s.boot.resetDue with
  | none => simp [ticked]
  | some r => simp [ticked, bucketsGain, State.time]

/-- All that an idle step can do to what is not the device's. -/
theorem idle_cases (s : State) :
    ∃ t, t.pending = s.pending ∧ t.off = s.off ∧ t.pins = s.pins ∧ t.temps = s.temps ∧
      (idle s = t ∨ s.off = false ∧ ∃ k, idle s = afterReset t k) := by
  have ht : ∃ t : State, t.pending = s.pending ∧ t.off = s.off ∧ t.pins = s.pins ∧ t.temps = s.temps ∧
      idle s = match t.boot.resetDue with
        | some r => if !t.off ∧ r.2 ≤ t.time then afterReset t r.1 else t
        | none => t := by
    refine ⟨if (ticked s).off then ticked s else (ticked s).inside (raiseDue (ticked s)), ?_, ?_, ?_, ?_, rfl⟩ <;> split <;> rfl
  obtain ⟨t, h1, h2, h3, h4, h5⟩ := ht
  refine ⟨t, h1, h2, h3, h4, ?_⟩
  rw [h5]
  split
  · split
    · rename_i hc
      exact .inr ⟨by rw [← h2]; simpa using hc.1, _, rfl⟩
    · exact .inl rfl
  · exact .inl rfl

end Sys2Proof.Machine
end

