-- ==== Sys2Proof/Laws/Device.lean ====
section
/-! SUPPORT. What a command of the device can do: every one of them is an effect under `live`. So none of them touches the waiting
commands, the signals or the temperatures, a device in reset takes none of them, and each has a next state. -/

namespace Sys2Proof.Machine

/-- A meaning of a command of the device. -/
def IsDevice (s : State) (r : Host.Outcome State Fault Refusal) : Prop := ∃ f, r = live s f

theorem isDevice_live (s : State) (f : State → State) : IsDevice s (live s f) := ⟨f, rfl⟩

theorem isDevice_next (s : State) : IsDevice s (.next s) := ⟨fun s => s, by unfold live; split <;> rfl⟩

theorem isDevice_ite {p : Prop} [Decidable p] {s : State} {a b : Host.Outcome State Fault Refusal} (ha : IsDevice s a)
    (hb : IsDevice s b) : IsDevice s (if p then a else b) := by
  split <;> assumption

theorem isDevice_onCtx (c : Nat) (s : State) (f : State → State) : IsDevice s (onCtx c s f) :=
  isDevice_ite (isDevice_live s f) (isDevice_next s)

theorem isDevice_onWrite (s : State) (sess : Nat) (ws : List Staged) : IsDevice s (onWrite s sess ws) := isDevice_live s _

theorem isDevice_serveQop (p : Nat → Bool) (f : Frame) (s : State) (k : State → Req → State) : IsDevice s (serveQop p f s k) :=
  isDevice_live s _

theorem isDevice_onTether (p : Packet) (s : State) (f : State → State) : IsDevice s (onTether p s f) := isDevice_live s _

theorem isDevice_onGroup (g : Nat) (s : State) (k : State → Group → State) : IsDevice s (onGroup g s k) := isDevice_live s _

/-! ## Each command -/

theorem isDevice_mma (op : Nat) (s : State) : IsDevice s (execMma op s) :=
  isDevice_live _ _
theorem isDevice_mmg (op : Nat) (s : State) : IsDevice s (execMmg op s) :=
  isDevice_live _ _
theorem isDevice_mmgIndexForm (op : Nat) (s : State) : IsDevice s (execMmgIndexForm op s) :=
  isDevice_live _ _
theorem isDevice_att (op : Nat) (s : State) : IsDevice s (execAtt op s) :=
  isDevice_live _ _
theorem isDevice_atgStatistics (op : Nat) (s : State) : IsDevice s (execAtgStatistics op s) :=
  isDevice_live _ _
theorem isDevice_atgGradient (op : Nat) (s : State) : IsDevice s (execAtgGradient op s) :=
  isDevice_live _ _
theorem isDevice_cnv (op : Nat) (s : State) : IsDevice s (execCnv op s) :=
  isDevice_live _ _
theorem isDevice_cnt (op : Nat) (s : State) : IsDevice s (execCnt op s) :=
  isDevice_live _ _
theorem isDevice_vec (op : Nat) (v : VecFields) (s : State) : IsDevice s (execVec op v s) :=
  isDevice_live _ _
theorem isDevice_eval (op : Nat) (s : State) : IsDevice s (execEval op s) :=
  isDevice_live _ _
theorem isDevice_mul (op : Nat) (s : State) : IsDevice s (execMul op s) :=
  isDevice_live _ _
theorem isDevice_sincos (op : Nat) (s : State) : IsDevice s (execSincos op s) :=
  isDevice_live _ _
theorem isDevice_rope (op : Nat) (s : State) : IsDevice s (execRope op s) :=
  isDevice_live _ _
theorem isDevice_tblLoad (op : Nat) (s : State) : IsDevice s (execTblLoad op s) :=
  isDevice_live _ _
theorem isDevice_rms (op : Nat) (s : State) : IsDevice s (execRms op s) :=
  isDevice_live _ _
theorem isDevice_rmsBackward (op : Nat) (s : State) : IsDevice s (execRmsBackward op s) :=
  isDevice_live _ _
theorem isDevice_smx (op : Nat) (s : State) : IsDevice s (execSmx op s) :=
  isDevice_live _ _
theorem isDevice_upd (op : Nat) (s : State) : IsDevice s (execUpd op s) :=
  isDevice_live _ _
theorem isDevice_psh (op : Nat) (s : State) : IsDevice s (execPsh op s) :=
  isDevice_live _ _
theorem isDevice_pop (op : Nat) (s : State) : IsDevice s (execPop op s) :=
  isDevice_live _ _
theorem isDevice_mrkOpen (op : Nat) (s : State) : IsDevice s (execMrkOpen op s) :=
  isDevice_live _ _
theorem isDevice_mrkClose (op : Nat) (s : State) : IsDevice s (execMrkClose op s) :=
  isDevice_live _ _
theorem isDevice_mrkDrop (op : Nat) (s : State) : IsDevice s (execMrkDrop op s) :=
  isDevice_live _ _
theorem isDevice_copy (op : Nat) (s : State) : IsDevice s (execCopy op s) :=
  isDevice_live _ _
theorem isDevice_fill (op : Nat) (s : State) : IsDevice s (execFill op s) :=
  isDevice_live _ _
theorem isDevice_slotOut (op : Nat) (s : State) : IsDevice s (execSlotOut op s) :=
  isDevice_live _ _
theorem isDevice_pftRun (op : Nat) (s : State) : IsDevice s (execPftRun op s) :=
  isDevice_live _ _
theorem isDevice_pftCancel (op : Nat) (s : State) : IsDevice s (execPftCancel op s) :=
  isDevice_live _ _
theorem isDevice_fnc (op : Nat) (s : State) : IsDevice s (execFnc op s) :=
  isDevice_live _ _
theorem isDevice_bcs (op : Nat) (s : State) : IsDevice s (execBcs op s) :=
  isDevice_live _ _
theorem isDevice_rdo (op : Nat) (s : State) : IsDevice s (execRdo op s) :=
  isDevice_live _ _
theorem isDevice_rdoAll (op : Nat) (s : State) : IsDevice s (execRdoAll op s) :=
  isDevice_live _ _
theorem isDevice_mdc (op : Nat) (s : State) : IsDevice s (execMdc op s) :=
  isDevice_live _ _
theorem isDevice_men (op : Nat) (s : State) : IsDevice s (execMen op s) :=
  isDevice_live _ _
theorem isDevice_ing (op : Nat) (s : State) : IsDevice s (execIng op s) :=
  isDevice_live _ _
theorem isDevice_ingLiveAligned (op : Nat) (s : State) : IsDevice s (execIngLiveAligned op s) :=
  isDevice_live _ _
theorem isDevice_ingLiveStamped (op : Nat) (s : State) : IsDevice s (execIngLiveStamped op s) :=
  isDevice_live _ _
theorem isDevice_dispatch (ctx : Nat) (s : State) : IsDevice s (execDispatch ctx s) :=
  isDevice_onCtx _ _ _
theorem isDevice_opStart (op : Nat) (s : State) : IsDevice s (execOpStart op s) :=
  isDevice_live _ _
theorem isDevice_opComplete (op : Nat) (s : State) : IsDevice s (execOpComplete op s) :=
  isDevice_live _ _
theorem isDevice_cqFullWaitExpiry (ctx : Nat) (s : State) : IsDevice s (execCqFullWaitExpiry ctx s) :=
  isDevice_onCtx _ _ _
theorem isDevice_opWatchdogExpiry (op : Nat) (s : State) : IsDevice s (execOpWatchdogExpiry op s) :=
  isDevice_live _ _
theorem isDevice_fncTimeout (op : Nat) (s : State) : IsDevice s (execFncTimeout op s) :=
  isDevice_live _ _
theorem isDevice_sqDb (ctx index : Nat) (s : State) : IsDevice s (execSqDb ctx index s) :=
  isDevice_onCtx _ _ _
theorem isDevice_cqDb (ctx index : Nat) (s : State) : IsDevice s (execCqDb ctx index s) :=
  isDevice_onCtx _ _ _
theorem isDevice_mbxDb (len : Nat) (s : State) : IsDevice s (execMbxDb len s) :=
  isDevice_live _ _
theorem isDevice_controlWindowWrite (offset size value : Nat) (s : State) : IsDevice s (execControlWindowWrite offset size value s) :=
  isDevice_live _ _
theorem isDevice_zlFlitReceive (port : Nat) (flit : Flit) (s : State) : IsDevice s (execZlFlitReceive port flit s) :=
  isDevice_ite (isDevice_next _) (isDevice_live _ _)
theorem isDevice_zlReceiverDetect (port lanes : Nat) (s : State) : IsDevice s (execZlReceiverDetect port lanes s) :=
  isDevice_ite (isDevice_next _) (isDevice_live _ _)
theorem isDevice_zlLinkStateTimeout (port : Nat) (s : State) : IsDevice s (execZlLinkStateTimeout port s) :=
  isDevice_ite (isDevice_next _) (isDevice_live _ _)
theorem isDevice_hostReadCompletion (port ttag err : Nat) (s : State) : IsDevice s (execHostReadCompletion port ttag err s) :=
  isDevice_ite (isDevice_next _) (isDevice_live _ _)
theorem isDevice_hostReadTimeout (port ttag : Nat) (s : State) : IsDevice s (execHostReadTimeout port ttag s) :=
  isDevice_ite (isDevice_next _) (isDevice_live _ _)
theorem isDevice_build (ctx word : Nat) (s : State) : IsDevice s (execBuild ctx word s) :=
  isDevice_onCtx _ _ _
theorem isDevice_tickCommit (ctx word : Nat) (s : State) : IsDevice s (execTickCommit ctx word s) :=
  isDevice_onCtx _ _ _
theorem isDevice_tickAbort (ctx word : Nat) (s : State) : IsDevice s (execTickAbort ctx word s) :=
  isDevice_onCtx _ _ _
theorem isDevice_ctxCreate (sess : Nat) (s : State) : IsDevice s (execCtxCreate sess s) :=
  isDevice_onWrite _ _ _
theorem isDevice_kill (sess : Nat) (s : State) : IsDevice s (execKill sess s) :=
  isDevice_onWrite _ _ _
theorem isDevice_restart (sess : Nat) (s : State) : IsDevice s (execRestart sess s) :=
  isDevice_onWrite _ _ _
theorem isDevice_destroy (sess : Nat) (s : State) : IsDevice s (execDestroy sess s) :=
  isDevice_onWrite _ _ _
theorem isDevice_pftGateMet (ctx sched : Nat) (s : State) : IsDevice s (execPftGateMet ctx sched s) :=
  isDevice_live _ _
theorem isDevice_pftCopyComplete (ctx sched entry : Nat) (s : State) : IsDevice s (execPftCopyComplete ctx sched entry s) :=
  isDevice_live _ _
theorem isDevice_pftHoldLimit (op : Nat) (s : State) : IsDevice s (execPftHoldLimit op s) :=
  isDevice_live _ _
theorem isDevice_reelSpill (ctx bay : Nat) (s : State) : IsDevice s (execReelSpill ctx bay s) :=
  isDevice_live _ _
theorem isDevice_reelFetch (ctx bay : Nat) (bad1 bad2 : Bool) (s : State) : IsDevice s (execReelFetch ctx bay bad1 bad2 s) :=
  isDevice_live _ _
theorem isDevice_reelWaitLimit (op : Nat) (s : State) : IsDevice s (execReelWaitLimit op s) :=
  isDevice_live _ _
theorem isDevice_cacheFlush (value : Nat) (s : State) : IsDevice s (execCacheFlush value s) :=
  isDevice_onWrite _ _ _
theorem isDevice_tgStart (sess value : Nat) (s : State) : IsDevice s (execTgStart sess value s) :=
  isDevice_onWrite _ _ _
theorem isDevice_tgStop (sess value : Nat) (s : State) : IsDevice s (execTgStop sess value s) :=
  isDevice_onWrite _ _ _
theorem isDevice_tgRunComplete (chan : Nat) (run : TgRun) (s : State) : IsDevice s (execTgRunComplete chan run s) :=
  isDevice_ite (isDevice_next _) (isDevice_live _ _)
theorem isDevice_patrolScrub (sector severity : Nat) (lastOfPass : Bool) (s : State) : IsDevice s (execPatrolScrub sector severity lastOfPass s) :=
  isDevice_ite (isDevice_next _) (isDevice_live _ _)
theorem isDevice_flashRelocation (block : Nat) (s : State) : IsDevice s (execFlashRelocation block s) :=
  isDevice_live _ _
theorem isDevice_flashWearLevelling (cold worn : Nat) (s : State) : IsDevice s (execFlashWearLevelling cold worn s) :=
  isDevice_live _ _
theorem isDevice_tblOwnerWrite (sess slot value : Nat) (s : State) : IsDevice s (execTblOwnerWrite sess slot value s) :=
  isDevice_ite (isDevice_onWrite _ _ _) (isDevice_onWrite _ _ _)
theorem isDevice_widTableWrite (sub value : Nat) (s : State) : IsDevice s (execWidTableWrite sub value s) :=
  isDevice_onWrite _ _ _
theorem isDevice_serveRecWrite (value : Nat) (s : State) : IsDevice s (execServeRecWrite value s) :=
  isDevice_onWrite _ _ _
theorem isDevice_hbmRegionWrite (region value : Nat) (s : State) : IsDevice s (execHbmRegionWrite region value s) :=
  isDevice_onWrite _ _ _
theorem isDevice_twinWindowWrite (sub value : Nat) (s : State) : IsDevice s (execTwinWindowWrite sub value s) :=
  isDevice_onWrite _ _ _
theorem isDevice_cksInjectWrite (sess value : Nat) (s : State) : IsDevice s (execCksInjectWrite sess value s) :=
  isDevice_onWrite _ _ _
theorem isDevice_portEnable (port value : Nat) (s : State) : IsDevice s (execPortEnable port value s) :=
  isDevice_onWrite _ _ _
theorem isDevice_unpair (sess : Nat) (s : State) : IsDevice s (execUnpair sess s) :=
  isDevice_onWrite _ _ _
theorem isDevice_dictWrite (sess index sub value : Nat) (s : State) : IsDevice s (execDictWrite sess index sub value s) :=
  isDevice_onWrite _ _ _
theorem isDevice_qopRead (frame : Frame) (s : State) : IsDevice s (execQopRead frame s) :=
  isDevice_serveQop _ _ _ _
theorem isDevice_qopWrite (frame : Frame) (s : State) : IsDevice s (execQopWrite frame s) :=
  isDevice_ite (isDevice_next _) (isDevice_serveQop _ _ _ _)
theorem isDevice_qopBegin (frame : Frame) (s : State) : IsDevice s (execQopBegin frame s) :=
  isDevice_serveQop _ _ _ _
theorem isDevice_qopCommit (frame : Frame) (s : State) : IsDevice s (execQopCommit frame s) :=
  isDevice_serveQop _ _ _ _
theorem isDevice_commitSafePoint (txn : Nat) (s : State) : IsDevice s (execCommitSafePoint txn s) :=
  isDevice_live _ _
theorem isDevice_qopRollback (frame : Frame) (s : State) : IsDevice s (execQopRollback frame s) :=
  isDevice_serveQop _ _ _ _
theorem isDevice_txnExpiry (txn : Nat) (s : State) : IsDevice s (execTxnExpiry txn s) :=
  isDevice_live _ _
theorem isDevice_qopHello (frame : Frame) (s : State) : IsDevice s (execQopHello frame s) :=
  isDevice_serveQop _ _ _ _
theorem isDevice_qopKeyx (frame : Frame) (s : State) : IsDevice s (execQopKeyx frame s) :=
  isDevice_serveQop _ _ _ _
theorem isDevice_qopClose (frame : Frame) (s : State) : IsDevice s (execQopClose frame s) :=
  isDevice_serveQop _ _ _ _
theorem isDevice_sessionPendingExpiry (sess : Nat) (s : State) : IsDevice s (execSessionPendingExpiry sess s) :=
  isDevice_live _ _
theorem isDevice_sessionIdleExpiry (sess : Nat) (s : State) : IsDevice s (execSessionIdleExpiry sess s) :=
  isDevice_live _ _
theorem isDevice_logRead (frame : Frame) (s : State) : IsDevice s (execLogRead frame s) :=
  isDevice_serveQop _ _ _ _
theorem isDevice_attest (frame : Frame) (s : State) : IsDevice s (execAttest frame s) :=
  isDevice_serveQop _ _ _ _
theorem isDevice_mgr (frame : Frame) (s : State) : IsDevice s (execMgr frame s) :=
  isDevice_serveQop _ _ _ _
theorem isDevice_fwStage (sess offset : Nat) (bytes : List Nat) (s : State) : IsDevice s (execFwStage sess offset bytes s) :=
  isDevice_onWrite _ _ _
theorem isDevice_fwVerify (sess : Nat) (s : State) : IsDevice s (execFwVerify sess s) :=
  isDevice_onWrite _ _ _
theorem isDevice_fwActivate (sess : Nat) (s : State) : IsDevice s (execFwActivate sess s) :=
  isDevice_onWrite _ _ _
theorem isDevice_fwConfirm (sess : Nat) (s : State) : IsDevice s (execFwConfirm sess s) :=
  isDevice_onWrite _ _ _
theorem isDevice_fwDiscard (sess : Nat) (s : State) : IsDevice s (execFwDiscard sess s) :=
  isDevice_onWrite _ _ _
theorem isDevice_resetWarm (sess : Nat) (s : State) : IsDevice s (execResetWarm sess s) :=
  isDevice_onWrite _ _ _
theorem isDevice_resetHard (sess : Nat) (s : State) : IsDevice s (execResetHard sess s) :=
  isDevice_onWrite _ _ _
theorem isDevice_btCmd (sess : Nat) (s : State) : IsDevice s (execBtCmd sess s) :=
  isDevice_onWrite _ _ _
theorem isDevice_bayTestComplete (bay result : Nat) (s : State) : IsDevice s (execBayTestComplete bay result s) :=
  isDevice_ite (isDevice_next _) (isDevice_live _ _)
theorem isDevice_lbStart (sess value : Nat) (s : State) : IsDevice s (execLbStart sess value s) :=
  isDevice_onWrite _ _ _
theorem isDevice_lbRunEnd (port bits errors worstLane : Nat) (s : State) : IsDevice s (execLbRunEnd port bits errors worstLane s) :=
  isDevice_live _ _
theorem isDevice_logFlush (count : Nat) (s : State) : IsDevice s (execLogFlush count s) :=
  isDevice_live _ _
theorem isDevice_mgmtWatchdogExpiry (s : State) : IsDevice s (execMgmtWatchdogExpiry s) :=
  isDevice_live _ _
theorem isDevice_lockstepError (s : State) : IsDevice s (execLockstepError s) :=
  isDevice_live _ _
theorem isDevice_ptpMessage (port : Nat) (offset : Int) (s : State) : IsDevice s (execPtpMessage port offset s) :=
  isDevice_ite (isDevice_next _) (isDevice_live _ _)
theorem isDevice_ptpHoldover (s : State) : IsDevice s (execPtpHoldover s) :=
  isDevice_live _ _
theorem isDevice_arbiterInterval (m : PowerSample) (s : State) : IsDevice s (execArbiterInterval m s) :=
  isDevice_live _ _
theorem isDevice_bayCurrentLimit (bay current : Nat) (s : State) : IsDevice s (execBayCurrentLimit bay current s) :=
  isDevice_ite (isDevice_next _) (isDevice_live _ _)
theorem isDevice_vinDip (mv : Nat) (s : State) : IsDevice s (execVinDip mv s) :=
  isDevice_live _ _
theorem isDevice_railFault (rail ns : Nat) (s : State) : IsDevice s (execRailFault rail ns s) :=
  isDevice_ite (isDevice_next _) (isDevice_live _ _)
theorem isDevice_stageRom (pufOk slotAOk slotBOk : Bool) (s : State) : IsDevice s (execStageRom pufOk slotAOk slotBOk s) :=
  isDevice_live _ _
theorem isDevice_stageMgmt (records : List CfgRecord) (s : State) : IsDevice s (execStageMgmt records s) :=
  isDevice_live _ _
theorem isDevice_stageHbm (failed : Option Nat) (spareRows : List Nat) (s : State) : IsDevice s (execStageHbm failed spareRows s) :=
  isDevice_live _ _
theorem isDevice_stageHbmtest (results : List ChanTest) (s : State) : IsDevice s (execStageHbmtest results s) :=
  isDevice_live _ _
theorem isDevice_stageBaytest (failed : Option (Nat × Nat)) (s : State) : IsDevice s (execStageBaytest failed s) :=
  isDevice_live _ _
theorem isDevice_stageFtl (journalOk : Bool) (spare lifeUsed badBlocks : Nat) (s : State) : IsDevice s (execStageFtl journalOk spare lifeUsed badBlocks s) :=
  isDevice_live _ _
theorem isDevice_stageLinks (s : State) : IsDevice s (execStageLinks s) :=
  isDevice_live _ _
theorem isDevice_stagePair (offer : PairOffer) (s : State) : IsDevice s (execStagePair offer s) :=
  isDevice_live _ _
theorem isDevice_stageJoin (s : State) : IsDevice s (execStageJoin s) :=
  isDevice_live _ _
theorem isDevice_pairRetry (offer : PairOffer) (s : State) : IsDevice s (execPairRetry offer s) :=
  isDevice_live _ _
theorem isDevice_managerReportRetry (s : State) : IsDevice s (execManagerReportRetry s) :=
  isDevice_live _ _
theorem isDevice_souneFrameReceive (port : Nat) (frame : SouneFrame) (s : State) : IsDevice s (execSouneFrameReceive port frame s) :=
  isDevice_ite (isDevice_next _) (isDevice_live _ _)
theorem isDevice_sounePortTimeout (port : Nat) (s : State) : IsDevice s (execSounePortTimeout port s) :=
  isDevice_ite (isDevice_next _) (isDevice_live _ _)
theorem isDevice_collJoin (pkt : Packet) (s : State) : IsDevice s (execCollJoin pkt s) :=
  isDevice_live _ _
theorem isDevice_collGo (pkt : Packet) (s : State) : IsDevice s (execCollGo pkt s) :=
  isDevice_live _ _
theorem isDevice_collAbort (pkt : Packet) (s : State) : IsDevice s (execCollAbort pkt s) :=
  isDevice_live _ _
theorem isDevice_chunk (pkt : Packet) (s : State) : IsDevice s (execChunk pkt s) :=
  isDevice_live _ _
theorem isDevice_chunkAck (pkt : Packet) (s : State) : IsDevice s (execChunkAck pkt s) :=
  isDevice_live _ _
theorem isDevice_resend (pkt : Packet) (s : State) : IsDevice s (execResend pkt s) :=
  isDevice_live _ _
theorem isDevice_ticketReq (pkt : Packet) (s : State) : IsDevice s (execTicketReq pkt s) :=
  isDevice_live _ _
theorem isDevice_ticket (pkt : Packet) (s : State) : IsDevice s (execTicket pkt s) :=
  isDevice_live _ _
theorem isDevice_collectiveStart (op : Nat) (s : State) : IsDevice s (execCollectiveStart op s) :=
  isDevice_live _ _
theorem isDevice_remoteSignal (pkt : Packet) (s : State) : IsDevice s (execRemoteSignal pkt s) :=
  isDevice_live _ _
theorem isDevice_withheld (pkt : Packet) (s : State) : IsDevice s (execWithheld pkt s) :=
  isDevice_live _ _
theorem isDevice_collectiveWaitExpiry (op : Nat) (s : State) : IsDevice s (execCollectiveWaitExpiry op s) :=
  isDevice_live _ _
theorem isDevice_heartbeatSend (s : State) : IsDevice s (execHeartbeatSend s) :=
  isDevice_live _ _
theorem isDevice_heartbeat (pkt : Packet) (s : State) : IsDevice s (execHeartbeat pkt s) :=
  isDevice_onTether _ _ _
theorem isDevice_heartbeatIntervalMiss (s : State) : IsDevice s (execHeartbeatIntervalMiss s) :=
  isDevice_live _ _
theorem isDevice_mirror (pkt : Packet) (s : State) : IsDevice s (execMirror pkt s) :=
  isDevice_onTether _ _ _
theorem isDevice_mirrorAck (pkt : Packet) (s : State) : IsDevice s (execMirrorAck pkt s) :=
  isDevice_onTether _ _ _
theorem isDevice_tetherFault (pkt : Packet) (s : State) : IsDevice s (execTetherFault pkt s) :=
  isDevice_onTether _ _ _
theorem isDevice_probeRequest (pkt : Packet) (s : State) : IsDevice s (execProbeRequest pkt s) :=
  isDevice_onTether _ _ _
theorem isDevice_probeAnswer (pkt : Packet) (s : State) : IsDevice s (execProbeAnswer pkt s) :=
  isDevice_onTether _ _ _
theorem isDevice_probeTimeout (s : State) : IsDevice s (execProbeTimeout s) :=
  isDevice_live _ _
theorem isDevice_digest (pkt : Packet) (s : State) : IsDevice s (execDigest pkt s) :=
  isDevice_onTether _ _ _
theorem isDevice_leafReport (member : Nat) (fenced : Bool) (s : State) : IsDevice s (execLeafReport member fenced s) :=
  isDevice_live _ _
theorem isDevice_prepare (roster : Roster) (s : State) : IsDevice s (execPrepare roster s) :=
  isDevice_live _ _
theorem isDevice_prepareAck (group member : Nat) (s : State) : IsDevice s (execPrepareAck group member s) :=
  isDevice_onGroup _ _ _
theorem isDevice_prepareTimeout (group member : Nat) (s : State) : IsDevice s (execPrepareTimeout group member s) :=
  isDevice_onGroup _ _ _
theorem isDevice_reformCommit (roster : Roster) (s : State) : IsDevice s (execReformCommit roster s) :=
  isDevice_onGroup _ _ _
theorem isDevice_synced (group member : Nat) (s : State) : IsDevice s (execSynced group member s) :=
  isDevice_onGroup _ _ _
theorem isDevice_beaconSend (group : Nat) (s : State) : IsDevice s (execBeaconSend group s) :=
  isDevice_onGroup _ _ _
theorem isDevice_tokenBeacon (group epoch : Nat) (s : State) : IsDevice s (execTokenBeacon group epoch s) :=
  isDevice_onGroup _ _ _
theorem isDevice_lease (group epoch : Nat) (s : State) : IsDevice s (execLease group epoch s) :=
  isDevice_onGroup _ _ _
theorem isDevice_tokenLeaseExpiry (group : Nat) (s : State) : IsDevice s (execTokenLeaseExpiry group s) :=
  isDevice_onGroup _ _ _
theorem isDevice_mdcParseLimit (op : Nat) (s : State) : IsDevice s (execMdcParseLimit op s) :=
  isDevice_live _ _
theorem isDevice_hostDecodeResult (op sample : Nat) (s : State) : IsDevice s (execHostDecodeResult op sample s) :=
  isDevice_live _ _
theorem isDevice_ingDecodeDeadline (op sample : Nat) (s : State) : IsDevice s (execIngDecodeDeadline op sample s) :=
  isDevice_live _ _
theorem isDevice_liveAlignWaitExpiry (op : Nat) (s : State) : IsDevice s (execLiveAlignWaitExpiry op s) :=
  isDevice_live _ _
theorem isDevice_souneReceiverDetect (port lanes : Nat) (s : State) : IsDevice s (execSouneReceiverDetect port lanes s) :=
  isDevice_ite (isDevice_next _) (isDevice_live _ _)
theorem isDevice_deviceDecodeComplete (op sample ps : Nat) (s : State) : IsDevice s (execDeviceDecodeComplete op sample ps s) :=
  isDevice_live _ _
theorem isDevice_liveEntryPublished (op stream : Nat) (s : State) : IsDevice s (execLiveEntryPublished op stream s) :=
  isDevice_live _ _
theorem isDevice_leaseSend (group : Nat) (s : State) : IsDevice s (execLeaseSend group s) :=
  isDevice_onGroup _ _ _
theorem isDevice_unknownQcmd (frame : Frame) (s : State) : IsDevice s (execUnknownQcmd frame s) :=
  isDevice_serveQop _ _ _ _
theorem isDevice_icmpv6Echo (port : Nat) (payload : List Nat) (s : State) : IsDevice s (execIcmpv6Echo port payload s) :=
  isDevice_ite (isDevice_next _) (isDevice_live _ _)
theorem isDevice_neighbourDiscovery (port target : Nat) (s : State) : IsDevice s (execNeighbourDiscovery port target s) :=
  isDevice_ite (isDevice_next _) (isDevice_live _ _)
theorem isDevice_cqModExpiry (ctx : Nat) (s : State) : IsDevice s (execCqModExpiry ctx s) :=
  isDevice_onCtx _ _ _
theorem isDevice_managerReportAck (s : State) : IsDevice s (execManagerReportAck s) :=
  isDevice_live _ _
theorem isDevice_cacheFlushComplete (s : State) : IsDevice s (execCacheFlushComplete s) :=
  isDevice_live _ _
theorem isDevice_measurementSample (m : EnergySample) (s : State) : IsDevice s (execMeasurementSample m s) :=
  isDevice_live _ _

/-- Every command but those of the signals is a command of the device. -/
theorem exec_device (i : Instr) (s : State) (h : signalCommand i = false) : IsDevice s (exec i s) :=
  match i, h with
  | .mma op, _ => isDevice_mma op s
  | .mmg op, _ => isDevice_mmg op s
  | .mmgIndexForm op, _ => isDevice_mmgIndexForm op s
  | .att op, _ => isDevice_att op s
  | .atgStatistics op, _ => isDevice_atgStatistics op s
  | .atgGradient op, _ => isDevice_atgGradient op s
  | .cnv op, _ => isDevice_cnv op s
  | .cnt op, _ => isDevice_cnt op s
  | .vec op v, _ => isDevice_vec op v s
  | .eval op, _ => isDevice_eval op s
  | .mul op, _ => isDevice_mul op s
  | .sincos op, _ => isDevice_sincos op s
  | .rope op, _ => isDevice_rope op s
  | .tblLoad op, _ => isDevice_tblLoad op s
  | .rms op, _ => isDevice_rms op s
  | .rmsBackward op, _ => isDevice_rmsBackward op s
  | .smx op, _ => isDevice_smx op s
  | .upd op, _ => isDevice_upd op s
  | .psh op, _ => isDevice_psh op s
  | .pop op, _ => isDevice_pop op s
  | .mrkOpen op, _ => isDevice_mrkOpen op s
  | .mrkClose op, _ => isDevice_mrkClose op s
  | .mrkDrop op, _ => isDevice_mrkDrop op s
  | .copy op, _ => isDevice_copy op s
  | .fill op, _ => isDevice_fill op s
  | .slotOut op, _ => isDevice_slotOut op s
  | .pftRun op, _ => isDevice_pftRun op s
  | .pftCancel op, _ => isDevice_pftCancel op s
  | .fnc op, _ => isDevice_fnc op s
  | .bcs op, _ => isDevice_bcs op s
  | .rdo op, _ => isDevice_rdo op s
  | .rdoAll op, _ => isDevice_rdoAll op s
  | .mdc op, _ => isDevice_mdc op s
  | .men op, _ => isDevice_men op s
  | .ing op, _ => isDevice_ing op s
  | .ingLiveAligned op, _ => isDevice_ingLiveAligned op s
  | .ingLiveStamped op, _ => isDevice_ingLiveStamped op s
  | .dispatch ctx, _ => isDevice_dispatch ctx s
  | .opStart op, _ => isDevice_opStart op s
  | .opComplete op, _ => isDevice_opComplete op s
  | .cqFullWaitExpiry ctx, _ => isDevice_cqFullWaitExpiry ctx s
  | .opWatchdogExpiry op, _ => isDevice_opWatchdogExpiry op s
  | .fncTimeout op, _ => isDevice_fncTimeout op s
  | .sqDb ctx index, _ => isDevice_sqDb ctx index s
  | .cqDb ctx index, _ => isDevice_cqDb ctx index s
  | .mbxDb len, _ => isDevice_mbxDb len s
  | .controlWindowWrite offset size value, _ => isDevice_controlWindowWrite offset size value s
  | .zlFlitReceive port flit, _ => isDevice_zlFlitReceive port flit s
  | .zlReceiverDetect port lanes, _ => isDevice_zlReceiverDetect port lanes s
  | .zlLinkStateTimeout port, _ => isDevice_zlLinkStateTimeout port s
  | .hostReadCompletion port ttag err, _ => isDevice_hostReadCompletion port ttag err s
  | .hostReadTimeout port ttag, _ => isDevice_hostReadTimeout port ttag s
  | .build ctx word, _ => isDevice_build ctx word s
  | .tickCommit ctx word, _ => isDevice_tickCommit ctx word s
  | .tickAbort ctx word, _ => isDevice_tickAbort ctx word s
  | .ctxCreate sess, _ => isDevice_ctxCreate sess s
  | .kill sess, _ => isDevice_kill sess s
  | .restart sess, _ => isDevice_restart sess s
  | .destroy sess, _ => isDevice_destroy sess s
  | .pftGateMet ctx sched, _ => isDevice_pftGateMet ctx sched s
  | .pftCopyComplete ctx sched entry, _ => isDevice_pftCopyComplete ctx sched entry s
  | .pftHoldLimit op, _ => isDevice_pftHoldLimit op s
  | .reelSpill ctx bay, _ => isDevice_reelSpill ctx bay s
  | .reelFetch ctx bay bad1 bad2, _ => isDevice_reelFetch ctx bay bad1 bad2 s
  | .reelWaitLimit op, _ => isDevice_reelWaitLimit op s
  | .cacheFlush value, _ => isDevice_cacheFlush value s
  | .tgStart sess value, _ => isDevice_tgStart sess value s
  | .tgStop sess value, _ => isDevice_tgStop sess value s
  | .tgRunComplete chan run, _ => isDevice_tgRunComplete chan run s
  | .patrolScrub sector severity lastOfPass, _ => isDevice_patrolScrub sector severity lastOfPass s
  | .flashRelocation block, _ => isDevice_flashRelocation block s
  | .flashWearLevelling cold worn, _ => isDevice_flashWearLevelling cold worn s
  | .tblOwnerWrite sess slot value, _ => isDevice_tblOwnerWrite sess slot value s
  | .widTableWrite sub value, _ => isDevice_widTableWrite sub value s
  | .serveRecWrite value, _ => isDevice_serveRecWrite value s
  | .hbmRegionWrite region value, _ => isDevice_hbmRegionWrite region value s
  | .twinWindowWrite sub value, _ => isDevice_twinWindowWrite sub value s
  | .cksInjectWrite sess value, _ => isDevice_cksInjectWrite sess value s
  | .portEnable port value, _ => isDevice_portEnable port value s
  | .unpair sess, _ => isDevice_unpair sess s
  | .dictWrite sess index sub value, _ => isDevice_dictWrite sess index sub value s
  | .qopRead frame, _ => isDevice_qopRead frame s
  | .qopWrite frame, _ => isDevice_qopWrite frame s
  | .qopBegin frame, _ => isDevice_qopBegin frame s
  | .qopCommit frame, _ => isDevice_qopCommit frame s
  | .commitSafePoint txn, _ => isDevice_commitSafePoint txn s
  | .qopRollback frame, _ => isDevice_qopRollback frame s
  | .txnExpiry txn, _ => isDevice_txnExpiry txn s
  | .qopHello frame, _ => isDevice_qopHello frame s
  | .qopKeyx frame, _ => isDevice_qopKeyx frame s
  | .qopClose frame, _ => isDevice_qopClose frame s
  | .sessionPendingExpiry sess, _ => isDevice_sessionPendingExpiry sess s
  | .sessionIdleExpiry sess, _ => isDevice_sessionIdleExpiry sess s
  | .logRead frame, _ => isDevice_logRead frame s
  | .attest frame, _ => isDevice_attest frame s
  | .mgr frame, _ => isDevice_mgr frame s
  | .fwStage sess offset bytes, _ => isDevice_fwStage sess offset bytes s
  | .fwVerify sess, _ => isDevice_fwVerify sess s
  | .fwActivate sess, _ => isDevice_fwActivate sess s
  | .fwConfirm sess, _ => isDevice_fwConfirm sess s
  | .fwDiscard sess, _ => isDevice_fwDiscard sess s
  | .resetWarm sess, _ => isDevice_resetWarm sess s
  | .resetHard sess, _ => isDevice_resetHard sess s
  | .btCmd sess, _ => isDevice_btCmd sess s
  | .bayTestComplete bay result, _ => isDevice_bayTestComplete bay result s
  | .lbStart sess value, _ => isDevice_lbStart sess value s
  | .lbRunEnd port bits errors worstLane, _ => isDevice_lbRunEnd port bits errors worstLane s
  | .logFlush count, _ => isDevice_logFlush count s
  | .mgmtWatchdogExpiry, _ => isDevice_mgmtWatchdogExpiry s
  | .lockstepError, _ => isDevice_lockstepError s
  | .ptpMessage port offset, _ => isDevice_ptpMessage port offset s
  | .ptpHoldover, _ => isDevice_ptpHoldover s
  | .arbiterInterval m, _ => isDevice_arbiterInterval m s
  | .bayCurrentLimit bay current, _ => isDevice_bayCurrentLimit bay current s
  | .vinDip mv, _ => isDevice_vinDip mv s
  | .railFault rail ns, _ => isDevice_railFault rail ns s
  | .stageRom pufOk slotAOk slotBOk, _ => isDevice_stageRom pufOk slotAOk slotBOk s
  | .stageMgmt records, _ => isDevice_stageMgmt records s
  | .stageHbm failed spareRows, _ => isDevice_stageHbm failed spareRows s
  | .stageHbmtest results, _ => isDevice_stageHbmtest results s
  | .stageBaytest failed, _ => isDevice_stageBaytest failed s
  | .stageFtl journalOk spare lifeUsed badBlocks, _ => isDevice_stageFtl journalOk spare lifeUsed badBlocks s
  | .stageLinks, _ => isDevice_stageLinks s
  | .stagePair offer, _ => isDevice_stagePair offer s
  | .stageJoin, _ => isDevice_stageJoin s
  | .pairRetry offer, _ => isDevice_pairRetry offer s
  | .managerReportRetry, _ => isDevice_managerReportRetry s
  | .souneFrameReceive port frame, _ => isDevice_souneFrameReceive port frame s
  | .sounePortTimeout port, _ => isDevice_sounePortTimeout port s
  | .collJoin pkt, _ => isDevice_collJoin pkt s
  | .collGo pkt, _ => isDevice_collGo pkt s
  | .collAbort pkt, _ => isDevice_collAbort pkt s
  | .chunk pkt, _ => isDevice_chunk pkt s
  | .chunkAck pkt, _ => isDevice_chunkAck pkt s
  | .resend pkt, _ => isDevice_resend pkt s
  | .ticketReq pkt, _ => isDevice_ticketReq pkt s
  | .ticket pkt, _ => isDevice_ticket pkt s
  | .collectiveStart op, _ => isDevice_collectiveStart op s
  | .remoteSignal pkt, _ => isDevice_remoteSignal pkt s
  | .withheld pkt, _ => isDevice_withheld pkt s
  | .collectiveWaitExpiry op, _ => isDevice_collectiveWaitExpiry op s
  | .heartbeatSend, _ => isDevice_heartbeatSend s
  | .heartbeat pkt, _ => isDevice_heartbeat pkt s
  | .heartbeatIntervalMiss, _ => isDevice_heartbeatIntervalMiss s
  | .mirror pkt, _ => isDevice_mirror pkt s
  | .mirrorAck pkt, _ => isDevice_mirrorAck pkt s
  | .tetherFault pkt, _ => isDevice_tetherFault pkt s
  | .probeRequest pkt, _ => isDevice_probeRequest pkt s
  | .probeAnswer pkt, _ => isDevice_probeAnswer pkt s
  | .probeTimeout, _ => isDevice_probeTimeout s
  | .digest pkt, _ => isDevice_digest pkt s
  | .leafReport member fenced, _ => isDevice_leafReport member fenced s
  | .prepare roster, _ => isDevice_prepare roster s
  | .prepareAck group member, _ => isDevice_prepareAck group member s
  | .prepareTimeout group member, _ => isDevice_prepareTimeout group member s
  | .reformCommit roster, _ => isDevice_reformCommit roster s
  | .synced group member, _ => isDevice_synced group member s
  | .beaconSend group, _ => isDevice_beaconSend group s
  | .tokenBeacon group epoch, _ => isDevice_tokenBeacon group epoch s
  | .lease group epoch, _ => isDevice_lease group epoch s
  | .tokenLeaseExpiry group, _ => isDevice_tokenLeaseExpiry group s
  | .mdcParseLimit op, _ => isDevice_mdcParseLimit op s
  | .hostDecodeResult op sample, _ => isDevice_hostDecodeResult op sample s
  | .ingDecodeDeadline op sample, _ => isDevice_ingDecodeDeadline op sample s
  | .liveAlignWaitExpiry op, _ => isDevice_liveAlignWaitExpiry op s
  | .souneReceiverDetect port lanes, _ => isDevice_souneReceiverDetect port lanes s
  | .deviceDecodeComplete op sample ps, _ => isDevice_deviceDecodeComplete op sample ps s
  | .liveEntryPublished op stream, _ => isDevice_liveEntryPublished op stream s
  | .leaseSend group, _ => isDevice_leaseSend group s
  | .unknownQcmd frame, _ => isDevice_unknownQcmd frame s
  | .icmpv6Echo port payload, _ => isDevice_icmpv6Echo port payload s
  | .neighbourDiscovery port target, _ => isDevice_neighbourDiscovery port target s
  | .cqModExpiry ctx, _ => isDevice_cqModExpiry ctx s
  | .managerReportAck, _ => isDevice_managerReportAck s
  | .cacheFlushComplete, _ => isDevice_cacheFlushComplete s
  | .measurementSample m, _ => isDevice_measurementSample m s

/-- All that a command of the device can do to what is not the device's. -/
theorem exec_device_next {i : Instr} {s t : State} (h : signalCommand i = false) (he : exec i s = .next t) :
    t.pending = s.pending ∧ t.off = s.off ∧ t.pins = s.pins ∧ t.temps = s.temps := by
  obtain ⟨f, hf⟩ := exec_device i s h
  exact live_next (hf ▸ he)

/-- A device in reset takes no command of the device. -/
theorem exec_device_off {i : Instr} {s : State} (h : signalCommand i = false) (ho : s.off = true) :
    exec i s = .next s := by
  obtain ⟨f, hf⟩ := exec_device i s h
  exact hf ▸ live_off f ho

end Sys2Proof.Machine
end

