-- ==== Sys2Proof/Laws/Kv.lean ====
section
/-! SUPPORT. Reading after writing in sparse data and in the memories, and the canonical form that every write keeps. -/

namespace Sys2Proof.Machine

variable {α : Type} [DecidableEq α]

theorem kvGet_kvDrop_same {β : Type} (d : β) (l : List (Nat × β)) (k : Nat) : kvGet d (kvDrop l k) k = d := by
  induction l with
  | nil => rfl
  | cons p t ih =>
    obtain ⟨j, w⟩ := p
    unfold kvDrop
    by_cases h : k = j <;> simp [h, kvGet]
    · subst h; exact ih
    · exact ih

theorem kvGet_kvDrop_other {β : Type} (d : β) (l : List (Nat × β)) {k k' : Nat} (h : k' ≠ k) : kvGet d (kvDrop l k) k' = kvGet d l k' := by
  induction l with
  | nil => rfl
  | cons p t ih =>
    obtain ⟨j, w⟩ := p
    unfold kvDrop
    by_cases h1 : k = j
    · subst h1; simp [kvGet, h, ih]
    · by_cases h2 : k' = j <;> simp [h1, kvGet, h2, ih]

theorem kvGet_kvPut_same {β : Type} (d v : β) (l : List (Nat × β)) (k : Nat) : kvGet d (kvPut l k v) k = v := by
  induction l with
  | nil => simp [kvPut, kvGet]
  | cons p t ih =>
    obtain ⟨j, w⟩ := p
    unfold kvPut
    by_cases h1 : k < j
    · simp [h1, kvGet]
    · by_cases h2 : k = j <;> simp [h1, h2, kvGet, ih]

theorem kvGet_kvPut_other {β : Type} (d v : β) (l : List (Nat × β)) {k k' : Nat} (h : k' ≠ k) : kvGet d (kvPut l k v) k' = kvGet d l k' := by
  induction l with
  | nil => simp [kvPut, kvGet, h]
  | cons p t ih =>
    obtain ⟨j, w⟩ := p
    unfold kvPut
    by_cases h1 : k < j
    · simp [h1, kvGet, h]
    · by_cases h2 : k = j
      · subst h2; simp [kvGet, h]
      · by_cases h3 : k' = j <;> simp [h1, h2, kvGet, h3, ih]

/-- A key reads what was written to it. -/
@[simp] theorem kvGet_kvSet_same (d v : α) (l : List (Nat × α)) (k : Nat) : kvGet d (kvSet d l k v) k = v := by
  unfold kvSet
  by_cases h : v = d
  · simp [h, kvGet_kvDrop_same]
  · simp [h, kvGet_kvPut_same]

/-- A write leaves every other key alone, by whatever default that key reads. -/
theorem kvGet_kvSet_skip (d d' v : α) (l : List (Nat × α)) {k k' : Nat} (h : k' ≠ k) :
    kvGet d' (kvSet d l k v) k' = kvGet d' l k' := by
  unfold kvSet
  by_cases hv : v = d
  · simp [hv, kvGet_kvDrop_other _ _ h]
  · simp [hv, kvGet_kvPut_other _ _ _ h]

@[simp] theorem kvGet_kvSet_other (d v : α) (l : List (Nat × α)) {k k' : Nat} (h : k' ≠ k) :
    kvGet d (kvSet d l k v) k' = kvGet d l k' := kvGet_kvSet_skip d d v l h

theorem kvWfFrom_le (e : Nat → α) (l : List (Nat × α)) {n m : Nat} (h : kvWfFrom e n l = true) (hm : m ≤ n) :
    kvWfFrom e m l = true := by
  cases l with
  | nil => rfl
  | cons p t =>
    simp only [kvWfFrom, Bool.and_eq_true, decide_eq_true_eq] at h ⊢
    exact ⟨⟨by omega, h.1.2⟩, h.2⟩

/-- A write keeps the canonical form. -/
theorem kvWf_kvSet (e : Nat → α) (v : α) (l : List (Nat × α)) (k : Nat) (h : kvWf e l = true) :
    kvWf e (kvSet (e k) l k v) = true := by
  have drop : ∀ (l : List (Nat × α)) (n : Nat), kvWfFrom e n l = true → kvWfFrom e n (kvDrop l k) = true := by
    intro l
    induction l with
    | nil => intros; rfl
    | cons p t ih =>
      intro n h
      obtain ⟨j, w⟩ := p
      simp only [kvWfFrom, Bool.and_eq_true, decide_eq_true_eq] at h
      unfold kvDrop
      by_cases h1 : k = j
      · simp only [h1, if_true]; rw [← h1]; exact kvWfFrom_le e _ (ih _ h.2) (by omega)
      · simp [h1, kvWfFrom, h.1.1, h.1.2, ih _ h.2]
  have put : v ≠ e k → ∀ (l : List (Nat × α)) (n m : Nat), kvWfFrom e n l = true → m ≤ n → m ≤ k →
      kvWfFrom e m (kvPut l k v) = true := by
    intro hv l
    induction l with
    | nil => intro n m _ _ hk; simp [kvPut, kvWfFrom, hv, hk]
    | cons p t ih =>
      intro n m h hm hk
      obtain ⟨j, w⟩ := p
      simp only [kvWfFrom, Bool.and_eq_true, decide_eq_true_eq] at h
      unfold kvPut
      by_cases h1 : k < j
      · simp [h1, kvWfFrom, hv, hk, h.1.2, h.2]
      · by_cases h2 : k = j
        · subst h2; simp [kvWfFrom, hv, h.2, hk]
        · have := ih (j + 1) (j + 1) h.2 (Nat.le_refl _) (by omega)
          simp [h1, h2, kvWfFrom, h.1.2, this]; omega
  unfold kvSet kvWf
  by_cases hv : v = e k
  · simp [hv]; exact drop l 0 h
  · simp [hv]; exact put hv l 0 0 h (Nat.le_refl _) (Nat.zero_le _)

/-- Filtering keeps the canonical form. -/
theorem kvWf_filter (d : Nat → α) (p : Nat × α → Bool) (l : List (Nat × α)) (h : kvWf d l = true) :
    kvWf d (l.filter p) = true := by
  have go : ∀ (l : List (Nat × α)) (n m : Nat), kvWfFrom d n l = true → m ≤ n → kvWfFrom d m (l.filter p) = true := by
    intro l
    induction l with
    | nil => intros; rfl
    | cons q t ih =>
      intro n m h hm
      obtain ⟨j, w⟩ := q
      simp only [kvWfFrom, Bool.and_eq_true, decide_eq_true_eq] at h
      by_cases hp : p (j, w) = true
      · simp [hp, kvWfFrom, h.1.2, ih (j + 1) (j + 1) h.2 (Nat.le_refl _)]; omega
      · simp [hp]; exact ih (j + 1) m h.2 (by omega)
  exact go l 0 0 h (Nat.le_refl _)

/-! ## Memories -/

theorem memWf_memSet (m : List Host.Cell) (a b : Nat) (h : memWf m = true) : memWf (memSet m a b) = true :=
  kvWf_kvSet (fun _ => 0) _ _ _ h

/-- Storing bytes keeps the canonical form. -/
theorem memWf_memStore (ks bs : List Nat) (m : List Host.Cell) (h : memWf m = true) : memWf (memStore m ks bs) = true := by
  induction ks generalizing m bs with
  | nil => simpa [memStore] using h
  | cons k ks ih =>
    cases bs with
    | nil => simpa [memStore] using h
    | cons b bs => exact ih bs _ (memWf_memSet m k b h)

theorem memByte_memSet_same (m : List Host.Cell) (a b : Nat) : memByte (memSet m a b) a = b % 256 := by
  rw [memByte, memSet, kvGet_kvSet_same, BitVec.toNat_ofNat]

theorem memByte_memSet_other (m : List Host.Cell) {a a' : Nat} (b : Nat) (h : a' ≠ a) :
    memByte (memSet m a b) a' = memByte m a' := by
  simp [memByte, memSet, h]

/-- A store leaves every other byte alone. -/
theorem memByte_memStore_other (ks bs : List Nat) (m : List Host.Cell) {a : Nat} (h : a ∉ ks) :
    memByte (memStore m ks bs) a = memByte m a := by
  induction ks generalizing m bs with
  | nil => simp [memStore]
  | cons k ks ih =>
    cases bs with
    | nil => simp [memStore]
    | cons b bs =>
      simp only [List.mem_cons, not_or] at h
      rw [memStore, ih bs _ h.2, memByte_memSet_other _ _ h.1]

/-- A store of as many bytes as keys reads back. -/
theorem memRead_memStore (ks bs : List Nat) (m : List Host.Cell) (hn : ks.Nodup)
    (hl : ks.length = bs.length) (hb : ∀ b ∈ bs, b < 256) : memRead (memStore m ks bs) ks = bs := by
  induction ks generalizing m bs with
  | nil => cases bs <;> simp_all [memRead]
  | cons k ks ih =>
    cases bs with
    | nil => simp at hl
    | cons b bs =>
      simp only [List.nodup_cons] at hn
      simp only [List.length_cons, Nat.add_right_cancel_iff] at hl
      have hb' : ∀ x ∈ bs, x < 256 := fun x hx => hb x (List.mem_cons_of_mem _ hx)
      have h1 := ih bs (memSet m k b) hn.2 hl hb'
      simp only [memRead] at h1 ⊢
      rw [List.map_cons, memStore, h1, memByte_memStore_other ks bs _ hn.1, memByte_memSet_same m k b,
        Nat.mod_eq_of_lt (hb b (List.mem_cons_self ..))]

@[simp] theorem hostWrite_near (m : Mem) (a : Nat) (bs : List Nat) : (hostWrite m a bs).near = m.near := rfl
@[simp] theorem hostWrite_hbm (m : Mem) (a : Nat) (bs : List Nat) : (hostWrite m a bs).hbm = m.hbm := rfl
@[simp] theorem hostWrite_flash (m : Mem) (a : Nat) (bs : List Nat) : (hostWrite m a bs).flash = m.flash := rfl

theorem length_leBytes (n x : Nat) : (leBytes n x).length = n := by
  induction n generalizing x with
  | zero => rfl
  | succ n ih => simp [leBytes, ih]

theorem leBytes_lt (n x : Nat) : ∀ b ∈ leBytes n x, b < 256 := by
  induction n generalizing x with
  | zero => simp [leBytes]
  | succ n ih =>
    intro b hb
    simp only [leBytes, List.mem_cons] at hb
    rcases hb with rfl | hb
    · exact Nat.mod_lt _ (by decide)
    · exact ih _ _ hb

/-- Bytes written to host memory read back, and every other byte is as before. -/
theorem hostRead_hostWrite (m : Mem) (a : Nat) (bs : List Nat) (hb : ∀ b ∈ bs, b < 256) :
    hostRead (hostWrite m a bs) a bs.length = bs :=
  memRead_memStore _ _ _ (List.Nodup.map (fun _ _ h => Nat.add_left_cancel h) List.nodup_range) (by simp [keysFrom]) hb

theorem hostWrite_other (m : Mem) (a : Nat) (bs : List Nat) {k : Nat} (h : k < a ∨ a + bs.length ≤ k) :
    memByte (hostWrite m a bs).host k = memByte m.host k := by
  apply memByte_memStore_other
  simp only [keysFrom, List.mem_map, List.mem_range, not_exists, not_and]
  intro x hx; omega

/-! ## Stored objects -/

/-- An object reads what was written to it. -/
@[simp] theorem objGet_objSet_same (d : Dp) (k v : Nat) : objGet (objSet d k v) k = v :=
  kvGet_kvSet_same _ _ _ _

/-- A write leaves every other object alone. -/
@[simp] theorem objGet_objSet_other (d : Dp) {k k' : Nat} (v : Nat) (h : k' ≠ k) : objGet (objSet d k v) k' = objGet d k' :=
  kvGet_kvSet_skip _ _ _ _ h

theorem objsWf_objSet (d : Dp) (k v : Nat) (h : kvWf objDefault d.objs = true) : kvWf objDefault (objSet d k v).objs = true :=
  kvWf_kvSet objDefault v d.objs k h

end Sys2Proof.Machine
end

