-- ==== Sys2Proof/Laws/Objects.lean ====
section
/-! SUPPORT. What the updates of the state do to its stored objects and counters (R56, R560). -/

namespace Sys2Proof.Machine

/-! ## Objects and counters of the data path -/

/-- A counter gains what is added to it, and saturates. -/
theorem objGet_bump_same (d : Dp) (k n : Nat) (h : n ≠ 0) : objGet (bump d k n) k = min (objGet d k + n) (2 ^ 64 - 1) := by
  unfold bump; rw [if_neg h]; exact objGet_objSet_same d k _

@[simp] theorem objGet_bump_other (d : Dp) {k k' : Nat} (n : Nat) (h : k' ≠ k) : objGet (bump d k n) k' = objGet d k' := by
  unfold bump
  split
  · rfl
  · exact objGet_objSet_other d _ h

/-- An event changes no object but the count of dropped entries. -/
theorem objGet_logEvent (d : Dp) {k : Nat} (e : Event) (h : k ≠ kLogDropped) : objGet (logEvent d e) k = objGet d k := by
  unfold logEvent
  split
  · rfl
  · exact objGet_bump_other _ 1 h

/-- An event is added while fewer than 1,024 entries wait. -/
theorem logEvent_sram (d : Dp) (e : Event) (h : d.log.sram.length < 1024) :
    (logEvent d e).log.sram = d.log.sram ++ [{ seq := d.log.nextSeq, time := d.time, ev := e }] := by
  unfold logEvent; rw [if_pos h]

/-! ## The same of the state -/

@[simp] theorem obj_setObj_same (s : State) (k v : Nat) : (s.setObj k v).obj k = v := objGet_objSet_same s.dp k v

@[simp] theorem obj_setObj_other (s : State) {k k' : Nat} (v : Nat) (h : k' ≠ k) : (s.setObj k v).obj k' = s.obj k' :=
  objGet_objSet_other s.dp v h

@[simp] theorem obj_bump_one (s : State) (k : Nat) : (s.bump k 1).obj k = min (s.obj k + 1) (2 ^ 64 - 1) :=
  objGet_bump_same s.dp k 1 (by decide)

@[simp] theorem obj_bump_other (s : State) {k k' : Nat} (n : Nat) (h : k' ≠ k) : (s.bump k n).obj k' = s.obj k' :=
  objGet_bump_other s.dp n h

@[simp] theorem obj_log (s : State) {k : Nat} (e : Event) (h : k ≠ kLogDropped) : (s.log e).obj k = s.obj k :=
  objGet_logEvent s.dp e h

@[simp] theorem obj_send (s : State) (k : Nat) (o : OutKind) (d : Nat) (x : List Nat) : (s.send o d x).obj k = s.obj k := rfl

@[simp] theorem obj_inside (s t : State) (k : Nat) : (s.inside t).obj k = t.obj k := rfl

@[simp] theorem bump_time (d : Dp) (k n : Nat) : (bump d k n).time = d.time := by
  unfold bump; split <;> rfl

@[simp] theorem bump_mem (d : Dp) (k n : Nat) : (bump d k n).mem = d.mem := by
  unfold bump; split <;> rfl

@[simp] theorem bump_log (d : Dp) (k n : Nat) : (bump d k n).log = d.log := by
  unfold bump; split <;> rfl

@[simp] theorem logEvent_mem (d : Dp) (e : Event) : (logEvent d e).mem = d.mem := by
  unfold logEvent; split
  · rfl
  · exact bump_mem _ _ _

@[simp] theorem logEvent_time (d : Dp) (e : Event) : (logEvent d e).time = d.time := by
  unfold logEvent; split
  · rfl
  · exact bump_time _ _ _

end Sys2Proof.Machine
end

