-- ==== Sys2Proof/Laws/Ops.lean ====
section
/-! SUPPORT. What sending, and the completion of an op, can do. -/

namespace Sys2Proof.Machine

/-! ## Sending -/

theorem Sends.refl (s : State) : Sends s s := rfl

theorem Sends.trans {s t u : State} (h : Sends s t) (k : Sends t u) : Sends s u := by
  unfold Sends at *; rw [k, h]

theorem sends_send (s : State) (k : OutKind) (d : Nat) (x : List Nat) : Sends s (s.send k d x) := rfl

theorem sends_setPort (s : State) (zl : Bool) (p : Nat) (x : Port) : Sends s (s.setPort zl p x) := by
  unfold Sends State.setPort; cases zl <;> rfl

theorem sends_emitFrame (s : State) (zl : Bool) (p ft cls hdr data : Nat) (nak : Bool) (crd : Nat × Nat) :
    Sends s (emitFrame s zl p ft cls hdr data nak crd) := by
  unfold emitFrame
  exact (sends_setPort s zl p _).trans (sends_send _ _ _ _)

theorem sends_sendFrame (s : State) (zl : Bool) (p cls hdr data : Nat) : Sends s (sendFrame s zl p cls hdr data) := by
  unfold sendFrame
  simp only []
  split
  · exact Sends.refl s
  · split
    · exact sends_setPort s zl p _
    · exact (sends_setPort s zl p _).trans (sends_emitFrame _ _ _ _ _ _ _ _ _)

theorem sends_zlTransact (s : State) (p cls hdr : Nat) (bs : List Nat) : Sends s (zlTransact s p cls hdr bs) := by
  unfold zlTransact
  generalize framesOf true bs = l
  suffices h : ∀ (l : List Nat) (a : State × Nat),
      Sends a.1 ((l.foldl (fun (a : State × Nat) d => (sendFrame a.1 true p cls a.2 d, 0)) a).1) from h l (s, hdr)
  intro l
  induction l with
  | nil => intro a; exact Sends.refl _
  | cons d l ih => intro a; exact (sends_sendFrame a.1 true p cls a.2 d).trans (ih _)

theorem sends_souneTransact (s : State) (p vc : Nat) (bs : List Nat) : Sends s (souneTransact s p vc bs) := by
  unfold souneTransact
  generalize framesOf false bs = l
  induction l generalizing s with
  | nil => exact Sends.refl _
  | cons d l ih => exact (sends_sendFrame s false p vc 0 d).trans (ih _)

theorem sends_sendInt (s : State) (c v : Nat) : Sends s (sendInt s c v) := by
  unfold sendInt
  exact (sends_send s _ _ _).trans (sends_zlTransact _ _ _ _ _)

theorem Sends.foldl {α : Type} (f : State → α → State) (h : ∀ s a, Sends s (f s a)) (l : List α) (s : State) : Sends s (l.foldl f s) := by
  induction l generalizing s with
  | nil => exact Sends.refl _
  | cons a l ih => exact (h s a).trans (ih _)

/-- What accesses write to host memory is sent, and nothing else changes. -/
theorem sends_hostWrites (s : State) (c : Nat) (as : List Act) : Sends s (hostWrites s c as) :=
  Sends.foldl _ (fun s w => by unfold sendMwrs; exact Sends.foldl _ (fun s t => sends_zlTransact _ _ _ _ _) _ s) _ s

theorem sendFrame_soune (s : State) (p cls hdr data : Nat) : (sendFrame s true p cls hdr data).soune = s.soune := by
  unfold sendFrame emitFrame
  simp only []
  split
  · rfl
  · split <;> rfl

theorem zlTransact_soune (s : State) (p cls hdr : Nat) (bs : List Nat) : (zlTransact s p cls hdr bs).soune = s.soune := by
  unfold zlTransact
  generalize framesOf true bs = l
  suffices h : ∀ (l : List Nat) (a : State × Nat),
      ((l.foldl (fun (a : State × Nat) d => (sendFrame a.1 true p cls a.2 d, 0)) a).1).soune = a.1.soune from h l (s, hdr)
  intro l
  induction l with
  | nil => intro a; rfl
  | cons d l ih => intro a; rw [List.foldl_cons, ih]; exact sendFrame_soune _ _ _ _ _

theorem hostWrites_soune (s : State) (c : Nat) (as : List Act) : (hostWrites s c as).soune = s.soune := by
  unfold hostWrites
  generalize as.filterMap hostRun? = l
  induction l generalizing s with
  | nil => rfl
  | cons w l ih =>
    rw [List.foldl_cons, ih]
    unfold sendMwrs
    generalize transfers w.1 w.2.length = ts
    induction ts generalizing s with
    | nil => rfl
    | cons t ts iht => rw [List.foldl_cons, iht, zlTransact_soune]

/-- A state from which `t` differs only in what has been sent, in the ports' own state, and in outstanding reads. -/
def Reads (s t : State) : Prop := t = { s with out := t.out, zl := t.zl, soune := t.soune, zlReads := t.zlReads, zlTag := t.zlTag }

theorem Reads.refl (s : State) : Reads s s := rfl

theorem Reads.trans {s t u : State} (h : Reads s t) (k : Reads t u) : Reads s u := by
  unfold Reads at *; rw [k, h]

theorem Sends.reads {s t : State} (h : Sends s t) : Reads s t := by
  unfold Sends at h; unfold Reads; rw [h]

theorem reads_sendMrd (s : State) (id port k : Nat) (t : Nat × Nat × Nat) : Reads s (sendMrd s id port k t) := by
  unfold sendMrd
  exact ((sends_zlTransact s port 1 (zlHdr 0 (transferLen t.2) k t.2.1 0) []).reads).trans rfl

theorem reads_sendNext (id ctx : Nat) (a : State × List (Nat × Nat × Nat)) (t : Nat × Nat × Nat) : Reads a.1 (sendNext id ctx a t).1 := by
  unfold sendNext
  generalize freeTag? a.1 (zlPortFor a.1 ctx) = k
  cases k with
  | none => exact Reads.refl _
  | some k => exact reads_sendMrd _ _ _ _ _

/-- Reads of host memory are sent and noted as outstanding, and nothing else changes. -/
theorem reads_sendMrds (id ctx : Nat) (ts : List (Nat × Nat × Nat)) (s : State) : Reads s (sendMrds id ctx ts s).1 := by
  unfold sendMrds
  generalize hf : sendNext id ctx = f
  have hr : ∀ a t, Reads a.1 (f a t).1 := fun a t => hf ▸ reads_sendNext id ctx a t
  suffices h : ∀ (l : List (Nat × Nat × Nat)) (a : State × List (Nat × Nat × Nat)), Reads a.1 (l.foldl f a).1 from h ts (s, [])
  intro l
  induction l with
  | nil => intro a; exact Reads.refl _
  | cons t ts ih => intro a; exact (hr a t).trans (ih (f a t))

/-! ## Contexts and ops -/

@[simp] theorem ctx_setCtx_same (s : State) (c : Nat) (x : Ctx) : (s.setCtx c x).ctx c = x := by
  simp [State.ctx, State.setCtx]

@[simp] theorem ctx_setCtx_other (s : State) {c d : Nat} (x : Ctx) (h : d ≠ c) : (s.setCtx c x).ctx d = s.ctx d := by
  simp [State.ctx, State.setCtx, h]

theorem op?_id {s : State} {id : Nat} {o : Op} (h : s.op? id = some o) : o.id = id := by
  have := List.find?_some h; simpa using this

/-- A change of ops that keeps their numbers. -/
theorem op?_map {s t : State} (f : Op → Op) (hf : ∀ o, (f o).id = o.id) (h : t.ops = s.ops.map f) (id : Nat) :
    t.op? id = (s.op? id).map f := by
  unfold State.op?
  have e : ((fun o : Op => o.id == id) ∘ f) = (fun o => o.id == id) := by funext o; exact congrArg (· == id) (hf o)
  rw [h, List.find?_map, e]

/-- An op that is in the device reads as it was put back. -/
theorem op?_putOp {s : State} {id : Nat} {o : Op} (x : Op) (h : s.op? id = some o) (hx : x.id = id) :
    (s.putOp x).op? id = some x := by
  rw [op?_map (s := s) (fun e => if e.id = x.id then x else e) (fun e => by by_cases he : e.id = x.id <;> simp [he]) rfl, h]
  simp [op?_id h, hx]

/-- Waits of fences change no op that has completed. -/
theorem op?_noteFences {s : State} {id : Nat} {o : Op} (h : s.op? id = some o) (hd : o.phase = .done) :
    (noteFences s).op? id = some o := by
  rw [op?_map (s := s) (t := noteFences s) (fun o => if o.opc = opFNC ∧ o.phase ≠ .done ∧ o.waitSince = none ∧
    (fncOf o.desc).waitEn ∧ fenceStep1 s o then { o with waitSince := some s.time } else o)
    (fun e => by split <;> rfl) rfl, h]
  simp [hd]

/-- All that the completion of an op does to it, and to what is not ops, contexts or counters. -/
theorem finishOp_frame (s : State) (id status info : Nat) :
    finishOp s id status info =
      { s with dp := { s.dp with objs := (finishOp s id status info).dp.objs }, ops := (finishOp s id status info).ops
               ctxs := (finishOp s id status info).ctxs } := by
  unfold finishOp
  split
  · rfl
  · split
    · rfl
    · split <;> (simp only [State.bump, bump]; split <;> (try split) <;> rfl)

theorem finishOp_ended {s : State} {id status info : Nat} {o : Op} (h : s.op? id = some o) (hp : o.phase ≠ .done) :
    EndedAs (finishOp s id status info) id status info := by
  refine ⟨{ o with phase := .done, status := status, info := info }, ?_, rfl, rfl, rfl⟩
  unfold finishOp
  rw [h]
  simp only [hp, if_false]
  apply op?_noteFences _ rfl
  have h0 := op?_id h
  have h1 := op?_putOp { o with phase := .done, status := status, info := info } h h0
  split <;> exact h1

theorem finishOp_ctx {s : State} {id status info : Nat} {o : Op} (h : s.op? id = some o) (hp : o.phase ≠ .done) :
    (finishOp s id status info).ctxs =
      kvSet {} s.ctxs o.ctx { s.ctx o.ctx with doneQ := (s.ctx o.ctx).doneQ ++ [id] } := by
  unfold finishOp
  rw [h]
  simp only [hp, if_false]
  split <;> rfl

end Sys2Proof.Machine
end

