-- ==== Sys2Proof/Laws/PerInstr.lean ====
section
/-! SUPPORT. A property of every command as syntax: a command that the interface can carry names only units that the device has
(R12, R77, R267, R295, R465, R488, R588, R606). -/

namespace Sys2Proof.Laws.UnitsExist

/-- The numbered units that a command names, each with how many of them the device has. -/
def named : Instr → List (Nat × Nat)
  | .mma _ => []
  | .mmg _ => []
  | .mmgIndexForm _ => []
  | .att _ => []
  | .atgStatistics _ => []
  | .atgGradient _ => []
  | .cnv _ => []
  | .cnt _ => []
  | .vec _ _ => []
  | .eval _ => []
  | .mul _ => []
  | .sincos _ => []
  | .rope _ => []
  | .tblLoad _ => []
  | .rms _ => []
  | .rmsBackward _ => []
  | .smx _ => []
  | .upd _ => []
  | .psh _ => []
  | .pop _ => []
  | .mrkOpen _ => []
  | .mrkClose _ => []
  | .mrkDrop _ => []
  | .copy _ => []
  | .fill _ => []
  | .slotOut _ => []
  | .pftRun _ => []
  | .pftCancel _ => []
  | .fnc _ => []
  | .bcs _ => []
  | .rdo _ => []
  | .rdoAll _ => []
  | .mdc _ => []
  | .men _ => []
  | .ing _ => []
  | .ingLiveAligned _ => []
  | .ingLiveStamped _ => []
  | .dispatch ctx => [(ctx, 256)]
  | .opStart _ => []
  | .opComplete _ => []
  | .cqFullWaitExpiry ctx => [(ctx, 256)]
  | .opWatchdogExpiry _ => []
  | .fncTimeout _ => []
  | .sqDb ctx _ => [(ctx, 256)]
  | .cqDb ctx _ => [(ctx, 256)]
  | .mbxDb _ => []
  | .controlWindowWrite _ _ _ => []
  | .zlFlitReceive port _ => [(port, 2)]
  | .zlReceiverDetect port _ => [(port, 2)]
  | .zlLinkStateTimeout port => [(port, 2)]
  | .hostReadCompletion port _ _ => [(port, 2)]
  | .hostReadTimeout port _ => [(port, 2)]
  | .build ctx _ => [(ctx, 256)]
  | .tickCommit ctx _ => [(ctx, 256)]
  | .tickAbort ctx _ => [(ctx, 256)]
  | .ctxCreate _ => []
  | .kill _ => []
  | .restart _ => []
  | .destroy _ => []
  | .pftGateMet ctx _ => [(ctx, 256)]
  | .pftCopyComplete ctx _ _ => [(ctx, 256)]
  | .pftHoldLimit _ => []
  | .reelSpill ctx bay => [(ctx, 256), (bay, Config.bays)]
  | .reelFetch ctx bay _ _ => [(ctx, 256), (bay, Config.bays)]
  | .reelWaitLimit _ => []
  | .cacheFlush _ => []
  | .tgStart _ _ => []
  | .tgStop _ _ => []
  | .tgRunComplete chan _ => [(chan, 320)]
  | .patrolScrub _ _ _ => []
  | .flashRelocation _ => []
  | .flashWearLevelling _ _ => []
  | .tblOwnerWrite _ slot _ => [(slot, 16)]
  | .widTableWrite _ _ => []
  | .serveRecWrite _ => []
  | .hbmRegionWrite region _ => [(region, 8)]
  | .twinWindowWrite _ _ => []
  | .cksInjectWrite _ _ => []
  | .portEnable port _ => [(port, 36)]
  | .unpair _ => []
  | .dictWrite _ _ _ _ => []
  | .qopRead _ => []
  | .qopWrite _ => []
  | .qopBegin _ => []
  | .qopCommit _ => []
  | .commitSafePoint _ => []
  | .qopRollback _ => []
  | .txnExpiry _ => []
  | .qopHello _ => []
  | .qopKeyx _ => []
  | .qopClose _ => []
  | .sessionPendingExpiry _ => []
  | .sessionIdleExpiry _ => []
  | .logRead _ => []
  | .attest _ => []
  | .mgr _ => []
  | .fwStage _ _ _ => []
  | .fwVerify _ => []
  | .fwActivate _ => []
  | .fwConfirm _ => []
  | .fwDiscard _ => []
  | .resetWarm _ => []
  | .resetHard _ => []
  | .btCmd _ => []
  | .bayTestComplete bay _ => [(bay, Config.bays)]
  | .lbStart _ _ => []
  | .lbRunEnd _ _ _ _ => []
  | .logFlush _ => []
  | .sensorSample sensor _ => [(sensor, 404)]
  | .mgmtWatchdogExpiry => []
  | .lockstepError => []
  | .ptpMessage port _ => [(port, 2)]
  | .ptpHoldover => []
  | .arbiterInterval _ => []
  | .bayCurrentLimit bay _ => [(bay, Config.bays)]
  | .vinDip _ => []
  | .vinUndervoltage _ _ => []
  | .vinOvervoltage _ _ => []
  | .railFault rail _ => [(rail, 129)]
  | .thermTripTimeout => []
  | .pwrEnAssert => []
  | .pwrEnRemove => []
  | .modRstNAssert _ => []
  | .modRstNRelease => []
  | .alertAck => []
  | .stageRom _ _ _ => []
  | .stageMgmt _ => []
  | .stageHbm _ _ => []
  | .stageHbmtest _ => []
  | .stageBaytest _ => []
  | .stageFtl _ _ _ _ => []
  | .stageLinks => []
  | .stagePair _ => []
  | .stageJoin => []
  | .pairRetry _ => []
  | .managerReportRetry => []
  | .souneFrameReceive port _ => [(port, 36)]
  | .sounePortTimeout port => [(port, 36)]
  | .collJoin _ => []
  | .collGo _ => []
  | .collAbort _ => []
  | .chunk _ => []
  | .chunkAck _ => []
  | .resend _ => []
  | .ticketReq _ => []
  | .ticket _ => []
  | .collectiveStart _ => []
  | .remoteSignal _ => []
  | .withheld _ => []
  | .collectiveWaitExpiry _ => []
  | .heartbeatSend => []
  | .heartbeat _ => []
  | .heartbeatIntervalMiss => []
  | .mirror _ => []
  | .mirrorAck _ => []
  | .tetherFault _ => []
  | .probeRequest _ => []
  | .probeAnswer _ => []
  | .probeTimeout => []
  | .digest _ => []
  | .leafReport _ _ => []
  | .prepare _ => []
  | .prepareAck _ _ => []
  | .prepareTimeout _ _ => []
  | .reformCommit _ => []
  | .synced _ _ => []
  | .beaconSend _ => []
  | .tokenBeacon _ _ => []
  | .lease _ _ => []
  | .tokenLeaseExpiry _ => []
  | .mdcParseLimit _ => []
  | .hostDecodeResult _ _ => []
  | .ingDecodeDeadline _ _ => []
  | .liveAlignWaitExpiry _ => []
  | .souneReceiverDetect port _ => [(port, 36)]
  | .deviceDecodeComplete _ _ _ => []
  | .liveEntryPublished _ _ => []
  | .leaseSend _ => []
  | .unknownQcmd _ => []
  | .icmpv6Echo port _ => [(port, 2)]
  | .neighbourDiscovery port _ => [(port, 2)]
  | .pwrGoodRelease => []
  | .thermTripComparator => []
  | .cqModExpiry ctx => [(ctx, 256)]
  | .managerReportAck => []
  | .cacheFlushComplete => []
  | .measurementSample _ => []

/-- A well-formed command names only units that the device has. -/
def Statement (i : Instr) : Prop := i.wf = true → ∀ u ∈ named i, u.1 < u.2

theorem mma (op : Nat) : Statement (.mma op) := fun _ _ h => nomatch h
theorem mmg (op : Nat) : Statement (.mmg op) := fun _ _ h => nomatch h
theorem mmgIndexForm (op : Nat) : Statement (.mmgIndexForm op) := fun _ _ h => nomatch h
theorem att (op : Nat) : Statement (.att op) := fun _ _ h => nomatch h
theorem atgStatistics (op : Nat) : Statement (.atgStatistics op) := fun _ _ h => nomatch h
theorem atgGradient (op : Nat) : Statement (.atgGradient op) := fun _ _ h => nomatch h
theorem cnv (op : Nat) : Statement (.cnv op) := fun _ _ h => nomatch h
theorem cnt (op : Nat) : Statement (.cnt op) := fun _ _ h => nomatch h
theorem vec (op : Nat) (v : VecFields) : Statement (.vec op v) := fun _ _ h => nomatch h
theorem eval (op : Nat) : Statement (.eval op) := fun _ _ h => nomatch h
theorem mul (op : Nat) : Statement (.mul op) := fun _ _ h => nomatch h
theorem sincos (op : Nat) : Statement (.sincos op) := fun _ _ h => nomatch h
theorem rope (op : Nat) : Statement (.rope op) := fun _ _ h => nomatch h
theorem tblLoad (op : Nat) : Statement (.tblLoad op) := fun _ _ h => nomatch h
theorem rms (op : Nat) : Statement (.rms op) := fun _ _ h => nomatch h
theorem rmsBackward (op : Nat) : Statement (.rmsBackward op) := fun _ _ h => nomatch h
theorem smx (op : Nat) : Statement (.smx op) := fun _ _ h => nomatch h
theorem upd (op : Nat) : Statement (.upd op) := fun _ _ h => nomatch h
theorem psh (op : Nat) : Statement (.psh op) := fun _ _ h => nomatch h
theorem pop (op : Nat) : Statement (.pop op) := fun _ _ h => nomatch h
theorem mrkOpen (op : Nat) : Statement (.mrkOpen op) := fun _ _ h => nomatch h
theorem mrkClose (op : Nat) : Statement (.mrkClose op) := fun _ _ h => nomatch h
theorem mrkDrop (op : Nat) : Statement (.mrkDrop op) := fun _ _ h => nomatch h
theorem copy (op : Nat) : Statement (.copy op) := fun _ _ h => nomatch h
theorem fill (op : Nat) : Statement (.fill op) := fun _ _ h => nomatch h
theorem slotOut (op : Nat) : Statement (.slotOut op) := fun _ _ h => nomatch h
theorem pftRun (op : Nat) : Statement (.pftRun op) := fun _ _ h => nomatch h
theorem pftCancel (op : Nat) : Statement (.pftCancel op) := fun _ _ h => nomatch h
theorem fnc (op : Nat) : Statement (.fnc op) := fun _ _ h => nomatch h
theorem bcs (op : Nat) : Statement (.bcs op) := fun _ _ h => nomatch h
theorem rdo (op : Nat) : Statement (.rdo op) := fun _ _ h => nomatch h
theorem rdoAll (op : Nat) : Statement (.rdoAll op) := fun _ _ h => nomatch h
theorem mdc (op : Nat) : Statement (.mdc op) := fun _ _ h => nomatch h
theorem men (op : Nat) : Statement (.men op) := fun _ _ h => nomatch h
theorem ing (op : Nat) : Statement (.ing op) := fun _ _ h => nomatch h
theorem ingLiveAligned (op : Nat) : Statement (.ingLiveAligned op) := fun _ _ h => nomatch h
theorem ingLiveStamped (op : Nat) : Statement (.ingLiveStamped op) := fun _ _ h => nomatch h
theorem dispatch (ctx : Nat) : Statement (.dispatch ctx) := by
  intro h
  unfold Instr.wf at h; unfold named
  simp [ctxOk, bayOk, fitsBits] at h ⊢
  omega
theorem opStart (op : Nat) : Statement (.opStart op) := fun _ _ h => nomatch h
theorem opComplete (op : Nat) : Statement (.opComplete op) := fun _ _ h => nomatch h
theorem cqFullWaitExpiry (ctx : Nat) : Statement (.cqFullWaitExpiry ctx) := by
  intro h
  unfold Instr.wf at h; unfold named
  simp [ctxOk, bayOk, fitsBits] at h ⊢
  omega
theorem opWatchdogExpiry (op : Nat) : Statement (.opWatchdogExpiry op) := fun _ _ h => nomatch h
theorem fncTimeout (op : Nat) : Statement (.fncTimeout op) := fun _ _ h => nomatch h
theorem sqDb (ctx index : Nat) : Statement (.sqDb ctx index) := by
  intro h
  unfold Instr.wf at h; unfold named
  simp [ctxOk, bayOk, fitsBits] at h ⊢
  omega
theorem cqDb (ctx index : Nat) : Statement (.cqDb ctx index) := by
  intro h
  unfold Instr.wf at h; unfold named
  simp [ctxOk, bayOk, fitsBits] at h ⊢
  omega
theorem mbxDb (len : Nat) : Statement (.mbxDb len) := fun _ _ h => nomatch h
theorem controlWindowWrite (offset size value : Nat) : Statement (.controlWindowWrite offset size value) := fun _ _ h => nomatch h
theorem zlFlitReceive (port : Nat) (flit : Flit) : Statement (.zlFlitReceive port flit) := by
  intro h
  unfold Instr.wf at h; unfold named
  simp [ctxOk, bayOk, fitsBits] at h ⊢
  omega
theorem zlReceiverDetect (port lanes : Nat) : Statement (.zlReceiverDetect port lanes) := by
  intro h
  unfold Instr.wf at h; unfold named
  simp [ctxOk, bayOk, fitsBits] at h ⊢
  omega
theorem zlLinkStateTimeout (port : Nat) : Statement (.zlLinkStateTimeout port) := by
  intro h
  unfold Instr.wf at h; unfold named
  simp [ctxOk, bayOk, fitsBits] at h ⊢
  omega
theorem hostReadCompletion (port ttag err : Nat) : Statement (.hostReadCompletion port ttag err) := by
  intro h
  unfold Instr.wf at h; unfold named
  simp [ctxOk, bayOk, fitsBits] at h ⊢
  omega
theorem hostReadTimeout (port ttag : Nat) : Statement (.hostReadTimeout port ttag) := by
  intro h
  unfold Instr.wf at h; unfold named
  simp [ctxOk, bayOk, fitsBits] at h ⊢
  omega
theorem build (ctx word : Nat) : Statement (.build ctx word) := by
  intro h
  unfold Instr.wf at h; unfold named
  simp [ctxOk, bayOk, fitsBits] at h ⊢
  omega
theorem tickCommit (ctx word : Nat) : Statement (.tickCommit ctx word) := by
  intro h
  unfold Instr.wf at h; unfold named
  simp [ctxOk, bayOk, fitsBits] at h ⊢
  omega
theorem tickAbort (ctx word : Nat) : Statement (.tickAbort ctx word) := by
  intro h
  unfold Instr.wf at h; unfold named
  simp [ctxOk, bayOk, fitsBits] at h ⊢
  omega
theorem ctxCreate (sess : Nat) : Statement (.ctxCreate sess) := fun _ _ h => nomatch h
theorem kill (sess : Nat) : Statement (.kill sess) := fun _ _ h => nomatch h
theorem restart (sess : Nat) : Statement (.restart sess) := fun _ _ h => nomatch h
theorem destroy (sess : Nat) : Statement (.destroy sess) := fun _ _ h => nomatch h
theorem pftGateMet (ctx sched : Nat) : Statement (.pftGateMet ctx sched) := by
  intro h
  unfold Instr.wf at h; unfold named
  simp [ctxOk, bayOk, fitsBits] at h ⊢
  omega
theorem pftCopyComplete (ctx sched entry : Nat) : Statement (.pftCopyComplete ctx sched entry) := by
  intro h
  unfold Instr.wf at h; unfold named
  simp [ctxOk, bayOk, fitsBits] at h ⊢
  omega
theorem pftHoldLimit (op : Nat) : Statement (.pftHoldLimit op) := fun _ _ h => nomatch h
theorem reelSpill (ctx bay : Nat) : Statement (.reelSpill ctx bay) := by
  intro h
  unfold Instr.wf at h; unfold named
  simp [ctxOk, bayOk, fitsBits] at h ⊢
  omega
theorem reelFetch (ctx bay : Nat) (bad1 bad2 : Bool) : Statement (.reelFetch ctx bay bad1 bad2) := by
  intro h
  unfold Instr.wf at h; unfold named
  simp [ctxOk, bayOk, fitsBits] at h ⊢
  omega
theorem reelWaitLimit (op : Nat) : Statement (.reelWaitLimit op) := fun _ _ h => nomatch h
theorem cacheFlush (value : Nat) : Statement (.cacheFlush value) := fun _ _ h => nomatch h
theorem tgStart (sess value : Nat) : Statement (.tgStart sess value) := fun _ _ h => nomatch h
theorem tgStop (sess value : Nat) : Statement (.tgStop sess value) := fun _ _ h => nomatch h
theorem tgRunComplete (chan : Nat) (run : TgRun) : Statement (.tgRunComplete chan run) := by
  intro h
  unfold Instr.wf at h; unfold named
  simp [ctxOk, bayOk, fitsBits] at h ⊢
  omega
theorem patrolScrub (sector severity : Nat) (lastOfPass : Bool) : Statement (.patrolScrub sector severity lastOfPass) := fun _ _ h => nomatch h
theorem flashRelocation (block : Nat) : Statement (.flashRelocation block) := fun _ _ h => nomatch h
theorem flashWearLevelling (cold worn : Nat) : Statement (.flashWearLevelling cold worn) := fun _ _ h => nomatch h
theorem tblOwnerWrite (sess slot value : Nat) : Statement (.tblOwnerWrite sess slot value) := by
  intro h
  unfold Instr.wf at h; unfold named
  simp [ctxOk, bayOk, fitsBits] at h ⊢
  omega
theorem widTableWrite (sub value : Nat) : Statement (.widTableWrite sub value) := fun _ _ h => nomatch h
theorem serveRecWrite (value : Nat) : Statement (.serveRecWrite value) := fun _ _ h => nomatch h
theorem hbmRegionWrite (region value : Nat) : Statement (.hbmRegionWrite region value) := by
  intro h
  unfold Instr.wf at h; unfold named
  simp [ctxOk, bayOk, fitsBits] at h ⊢
  omega
theorem twinWindowWrite (sub value : Nat) : Statement (.twinWindowWrite sub value) := fun _ _ h => nomatch h
theorem cksInjectWrite (sess value : Nat) : Statement (.cksInjectWrite sess value) := fun _ _ h => nomatch h
theorem portEnable (port value : Nat) : Statement (.portEnable port value) := by
  intro h
  unfold Instr.wf at h; unfold named
  simp [ctxOk, bayOk, fitsBits] at h ⊢
  omega
theorem unpair (sess : Nat) : Statement (.unpair sess) := fun _ _ h => nomatch h
theorem dictWrite (sess index sub value : Nat) : Statement (.dictWrite sess index sub value) := fun _ _ h => nomatch h
theorem qopRead (frame : Frame) : Statement (.qopRead frame) := fun _ _ h => nomatch h
theorem qopWrite (frame : Frame) : Statement (.qopWrite frame) := fun _ _ h => nomatch h
theorem qopBegin (frame : Frame) : Statement (.qopBegin frame) := fun _ _ h => nomatch h
theorem qopCommit (frame : Frame) : Statement (.qopCommit frame) := fun _ _ h => nomatch h
theorem commitSafePoint (txn : Nat) : Statement (.commitSafePoint txn) := fun _ _ h => nomatch h
theorem qopRollback (frame : Frame) : Statement (.qopRollback frame) := fun _ _ h => nomatch h
theorem txnExpiry (txn : Nat) : Statement (.txnExpiry txn) := fun _ _ h => nomatch h
theorem qopHello (frame : Frame) : Statement (.qopHello frame) := fun _ _ h => nomatch h
theorem qopKeyx (frame : Frame) : Statement (.qopKeyx frame) := fun _ _ h => nomatch h
theorem qopClose (frame : Frame) : Statement (.qopClose frame) := fun _ _ h => nomatch h
theorem sessionPendingExpiry (sess : Nat) : Statement (.sessionPendingExpiry sess) := fun _ _ h => nomatch h
theorem sessionIdleExpiry (sess : Nat) : Statement (.sessionIdleExpiry sess) := fun _ _ h => nomatch h
theorem logRead (frame : Frame) : Statement (.logRead frame) := fun _ _ h => nomatch h
theorem attest (frame : Frame) : Statement (.attest frame) := fun _ _ h => nomatch h
theorem mgr (frame : Frame) : Statement (.mgr frame) := fun _ _ h => nomatch h
theorem fwStage (sess offset : Nat) (bytes : List Nat) : Statement (.fwStage sess offset bytes) := fun _ _ h => nomatch h
theorem fwVerify (sess : Nat) : Statement (.fwVerify sess) := fun _ _ h => nomatch h
theorem fwActivate (sess : Nat) : Statement (.fwActivate sess) := fun _ _ h => nomatch h
theorem fwConfirm (sess : Nat) : Statement (.fwConfirm sess) := fun _ _ h => nomatch h
theorem fwDiscard (sess : Nat) : Statement (.fwDiscard sess) := fun _ _ h => nomatch h
theorem resetWarm (sess : Nat) : Statement (.resetWarm sess) := fun _ _ h => nomatch h
theorem resetHard (sess : Nat) : Statement (.resetHard sess) := fun _ _ h => nomatch h
theorem btCmd (sess : Nat) : Statement (.btCmd sess) := fun _ _ h => nomatch h
theorem bayTestComplete (bay result : Nat) : Statement (.bayTestComplete bay result) := by
  intro h
  unfold Instr.wf at h; unfold named
  simp [ctxOk, bayOk, fitsBits] at h ⊢
  omega
theorem lbStart (sess value : Nat) : Statement (.lbStart sess value) := fun _ _ h => nomatch h
theorem lbRunEnd (port bits errors worstLane : Nat) : Statement (.lbRunEnd port bits errors worstLane) := fun _ _ h => nomatch h
theorem logFlush (count : Nat) : Statement (.logFlush count) := fun _ _ h => nomatch h
theorem sensorSample (sensor : Nat) (temp : Int) : Statement (.sensorSample sensor temp) := by
  intro h
  unfold Instr.wf at h; unfold named
  simp [ctxOk, bayOk, fitsBits] at h ⊢
  omega
theorem mgmtWatchdogExpiry : Statement .mgmtWatchdogExpiry := fun _ _ h => nomatch h
theorem lockstepError : Statement .lockstepError := fun _ _ h => nomatch h
theorem ptpMessage (port : Nat) (offset : Int) : Statement (.ptpMessage port offset) := by
  intro h
  unfold Instr.wf at h; unfold named
  simp [ctxOk, bayOk, fitsBits] at h ⊢
  omega
theorem ptpHoldover : Statement .ptpHoldover := fun _ _ h => nomatch h
theorem arbiterInterval (m : PowerSample) : Statement (.arbiterInterval m) := fun _ _ h => nomatch h
theorem bayCurrentLimit (bay current : Nat) : Statement (.bayCurrentLimit bay current) := by
  intro h
  unfold Instr.wf at h; unfold named
  simp [ctxOk, bayOk, fitsBits] at h ⊢
  omega
theorem vinDip (mv : Nat) : Statement (.vinDip mv) := fun _ _ h => nomatch h
theorem vinUndervoltage (mv ns : Nat) : Statement (.vinUndervoltage mv ns) := fun _ _ h => nomatch h
theorem vinOvervoltage (mv ns : Nat) : Statement (.vinOvervoltage mv ns) := fun _ _ h => nomatch h
theorem railFault (rail ns : Nat) : Statement (.railFault rail ns) := by
  intro h
  unfold Instr.wf at h; unfold named
  simp [ctxOk, bayOk, fitsBits] at h ⊢
  omega
theorem thermTripTimeout : Statement .thermTripTimeout := fun _ _ h => nomatch h
theorem pwrEnAssert : Statement .pwrEnAssert := fun _ _ h => nomatch h
theorem pwrEnRemove : Statement .pwrEnRemove := fun _ _ h => nomatch h
theorem modRstNAssert (pwrGoodLow : Bool) : Statement (.modRstNAssert pwrGoodLow) := fun _ _ h => nomatch h
theorem modRstNRelease : Statement .modRstNRelease := fun _ _ h => nomatch h
theorem alertAck : Statement .alertAck := fun _ _ h => nomatch h
theorem stageRom (pufOk : Bool) (slotAOk slotBOk : Bool) : Statement (.stageRom pufOk slotAOk slotBOk) := fun _ _ h => nomatch h
theorem stageMgmt (records : List CfgRecord) : Statement (.stageMgmt records) := fun _ _ h => nomatch h
theorem stageHbm (failed : Option Nat) (spareRows : List Nat) : Statement (.stageHbm failed spareRows) := fun _ _ h => nomatch h
theorem stageHbmtest (results : List ChanTest) : Statement (.stageHbmtest results) := fun _ _ h => nomatch h
theorem stageBaytest (failed : Option (Nat × Nat)) : Statement (.stageBaytest failed) := fun _ _ h => nomatch h
theorem stageFtl (journalOk : Bool) (spare lifeUsed badBlocks : Nat) : Statement (.stageFtl journalOk spare lifeUsed badBlocks) := fun _ _ h => nomatch h
theorem stageLinks : Statement .stageLinks := fun _ _ h => nomatch h
theorem stagePair (offer : PairOffer) : Statement (.stagePair offer) := fun _ _ h => nomatch h
theorem stageJoin : Statement .stageJoin := fun _ _ h => nomatch h
theorem pairRetry (offer : PairOffer) : Statement (.pairRetry offer) := fun _ _ h => nomatch h
theorem managerReportRetry : Statement .managerReportRetry := fun _ _ h => nomatch h
theorem souneFrameReceive (port : Nat) (frame : SouneFrame) : Statement (.souneFrameReceive port frame) := by
  intro h
  unfold Instr.wf at h; unfold named
  simp [ctxOk, bayOk, fitsBits] at h ⊢
  omega
theorem sounePortTimeout (port : Nat) : Statement (.sounePortTimeout port) := by
  intro h
  unfold Instr.wf at h; unfold named
  simp [ctxOk, bayOk, fitsBits] at h ⊢
  omega
theorem collJoin (pkt : Packet) : Statement (.collJoin pkt) := fun _ _ h => nomatch h
theorem collGo (pkt : Packet) : Statement (.collGo pkt) := fun _ _ h => nomatch h
theorem collAbort (pkt : Packet) : Statement (.collAbort pkt) := fun _ _ h => nomatch h
theorem chunk (pkt : Packet) : Statement (.chunk pkt) := fun _ _ h => nomatch h
theorem chunkAck (pkt : Packet) : Statement (.chunkAck pkt) := fun _ _ h => nomatch h
theorem resend (pkt : Packet) : Statement (.resend pkt) := fun _ _ h => nomatch h
theorem ticketReq (pkt : Packet) : Statement (.ticketReq pkt) := fun _ _ h => nomatch h
theorem ticket (pkt : Packet) : Statement (.ticket pkt) := fun _ _ h => nomatch h
theorem collectiveStart (op : Nat) : Statement (.collectiveStart op) := fun _ _ h => nomatch h
theorem remoteSignal (pkt : Packet) : Statement (.remoteSignal pkt) := fun _ _ h => nomatch h
theorem withheld (pkt : Packet) : Statement (.withheld pkt) := fun _ _ h => nomatch h
theorem collectiveWaitExpiry (op : Nat) : Statement (.collectiveWaitExpiry op) := fun _ _ h => nomatch h
theorem heartbeatSend : Statement .heartbeatSend := fun _ _ h => nomatch h
theorem heartbeat (pkt : Packet) : Statement (.heartbeat pkt) := fun _ _ h => nomatch h
theorem heartbeatIntervalMiss : Statement .heartbeatIntervalMiss := fun _ _ h => nomatch h
theorem mirror (pkt : Packet) : Statement (.mirror pkt) := fun _ _ h => nomatch h
theorem mirrorAck (pkt : Packet) : Statement (.mirrorAck pkt) := fun _ _ h => nomatch h
theorem tetherFault (pkt : Packet) : Statement (.tetherFault pkt) := fun _ _ h => nomatch h
theorem probeRequest (pkt : Packet) : Statement (.probeRequest pkt) := fun _ _ h => nomatch h
theorem probeAnswer (pkt : Packet) : Statement (.probeAnswer pkt) := fun _ _ h => nomatch h
theorem probeTimeout : Statement .probeTimeout := fun _ _ h => nomatch h
theorem digest (pkt : Packet) : Statement (.digest pkt) := fun _ _ h => nomatch h
theorem leafReport (member : Nat) (fenced : Bool) : Statement (.leafReport member fenced) := fun _ _ h => nomatch h
theorem prepare (roster : Roster) : Statement (.prepare roster) := fun _ _ h => nomatch h
theorem prepareAck (group member : Nat) : Statement (.prepareAck group member) := fun _ _ h => nomatch h
theorem prepareTimeout (group member : Nat) : Statement (.prepareTimeout group member) := fun _ _ h => nomatch h
theorem reformCommit (roster : Roster) : Statement (.reformCommit roster) := fun _ _ h => nomatch h
theorem synced (group member : Nat) : Statement (.synced group member) := fun _ _ h => nomatch h
theorem beaconSend (group : Nat) : Statement (.beaconSend group) := fun _ _ h => nomatch h
theorem tokenBeacon (group epoch : Nat) : Statement (.tokenBeacon group epoch) := fun _ _ h => nomatch h
theorem lease (group epoch : Nat) : Statement (.lease group epoch) := fun _ _ h => nomatch h
theorem tokenLeaseExpiry (group : Nat) : Statement (.tokenLeaseExpiry group) := fun _ _ h => nomatch h
theorem mdcParseLimit (op : Nat) : Statement (.mdcParseLimit op) := fun _ _ h => nomatch h
theorem hostDecodeResult (op sample : Nat) : Statement (.hostDecodeResult op sample) := fun _ _ h => nomatch h
theorem ingDecodeDeadline (op sample : Nat) : Statement (.ingDecodeDeadline op sample) := fun _ _ h => nomatch h
theorem liveAlignWaitExpiry (op : Nat) : Statement (.liveAlignWaitExpiry op) := fun _ _ h => nomatch h
theorem souneReceiverDetect (port lanes : Nat) : Statement (.souneReceiverDetect port lanes) := by
  intro h
  unfold Instr.wf at h; unfold named
  simp [ctxOk, bayOk, fitsBits] at h ⊢
  omega
theorem deviceDecodeComplete (op sample ps : Nat) : Statement (.deviceDecodeComplete op sample ps) := fun _ _ h => nomatch h
theorem liveEntryPublished (op stream : Nat) : Statement (.liveEntryPublished op stream) := fun _ _ h => nomatch h
theorem leaseSend (group : Nat) : Statement (.leaseSend group) := fun _ _ h => nomatch h
theorem unknownQcmd (frame : Frame) : Statement (.unknownQcmd frame) := fun _ _ h => nomatch h
theorem icmpv6Echo (port : Nat) (payload : List Nat) : Statement (.icmpv6Echo port payload) := by
  intro h
  unfold Instr.wf at h; unfold named
  simp [ctxOk, bayOk, fitsBits] at h ⊢
  omega
theorem neighbourDiscovery (port : Nat) (target : Nat) : Statement (.neighbourDiscovery port target) := by
  intro h
  unfold Instr.wf at h; unfold named
  simp [ctxOk, bayOk, fitsBits] at h ⊢
  omega
theorem pwrGoodRelease : Statement .pwrGoodRelease := fun _ _ h => nomatch h
theorem thermTripComparator : Statement .thermTripComparator := fun _ _ h => nomatch h
theorem cqModExpiry (ctx : Nat) : Statement (.cqModExpiry ctx) := by
  intro h
  unfold Instr.wf at h; unfold named
  simp [ctxOk, bayOk, fitsBits] at h ⊢
  omega
theorem managerReportAck : Statement .managerReportAck := fun _ _ h => nomatch h
theorem cacheFlushComplete : Statement .cacheFlushComplete := fun _ _ h => nomatch h
theorem measurementSample (m : EnergySample) : Statement (.measurementSample m) := fun _ _ h => nomatch h

end Sys2Proof.Laws.UnitsExist
end

