-- ==== Sys2Proof/Laws/Plan.lean ====
section
/-! SUPPORT. What the working of an op does, step by step: the parts that workings are made of, run from what has been done so
far, and what the completion of a working leaves. -/

namespace Sys2Proof.Machine

/-! ## Runs of workings -/

/-- A working run from what the op has done so far. -/
abbrev Plan.go {α : Type} (p : Plan α) (e : Eff) : Except Nat α × Eff := p.run e

theorem Plan.go_pure {α : Type} (a : α) (e : Eff) : (pure a : Plan α).go e = (.ok a, e) := rfl

theorem Plan.go_stop {α : Type} (c : Nat) (e : Eff) : (Plan.stop c : Plan α).go e = (.error c, e) := rfl

theorem Plan.go_bind {α β : Type} (p : Plan α) (k : α → Plan β) (e : Eff) :
    (p >>= k).go e = match p.go e with
      | (.ok a, e1) => (k a).go e1
      | (.error c, e1) => (.error c, e1) := by
  show (ExceptT.bind p k) e = _
  unfold ExceptT.bind ExceptT.mk
  show (StateT.bind p (ExceptT.bindCont k)) e = _
  unfold StateT.bind
  show (match p e with | (a, s') => ExceptT.bindCont k a s') = _
  simp only [Plan.go, ExceptT.run]
  cases hp : p e with
  | mk a e1 => cases a <;> rfl

theorem Plan.go_ok {α β : Type} {p : Plan α} {k : α → Plan β} {e e1 : Eff} {a : α} (h : p.go e = (.ok a, e1)) :
    (p >>= k).go e = (k a).go e1 := by rw [Plan.go_bind, h]

theorem Plan.go_error {α β : Type} {p : Plan α} {k : α → Plan β} {e e1 : Eff} {c : Nat} (h : p.go e = (.error c, e1)) :
    (p >>= k).go e = (.error c, e1) := by rw [Plan.go_bind, h]

theorem Plan.go_need (b : Bool) (c : Nat) (e : Eff) : (Plan.need b c).go e = if b then (.ok (), e) else (.error c, e) := by
  unfold Plan.need; cases b <;> rfl

theorem Plan.go_act (a : Act) (e : Eff) : (Plan.act a).go e = (.ok (), { e with acts := a :: e.acts }) := rfl

/-- A working that succeeds under `allOrNone` is the working. -/
theorem Plan.go_allOrNone {p : Plan Unit} {e e1 : Eff} (h : p.go e = (.ok (), e1)) : (allOrNone p).go e = (.ok (), e1) := by
  unfold allOrNone
  have hg : ((get : Plan Eff)).go e = (.ok e, e) := rfl
  rw [Plan.go_ok hg]
  show (ExceptT.tryCatch p _) e = _
  unfold ExceptT.tryCatch ExceptT.mk
  show (StateT.bind p _) e = _
  unfold StateT.bind
  show (match p e with | (a, s') => _) = _
  have h' : p e = (.ok (), e1) := h
  rw [h']; rfl

/-- What the op has done once it has asked for a translation: a page that the device has not cached is walked for, and cached. -/
def met (E : Env) (va : Nat) (e : Eff) : Eff :=
  let E' : Env := { E with turn := e.turn }
  let k := xlatKey E.ctx va
  let walks := kvGet 0 e.xlats k == 0 && !usesCached E' va
  { e with
    turn := e.turn + 1
    acts := if walks then (walkAddrs E.d va walkLevels E.root).reverse.map Act.walk ++ e.acts else e.acts
    xlats := match entryOf E' va with | .ok x => if walks then kvPut e.xlats k x else e.xlats | .error _ => e.xlats }

/-- A translation, and where it stops. -/
theorem go_xlate (E : Env) (va n : Nat) (w : Bool) (e : Eff) :
    (xlate E va n w).go e = (translate { E with turn := e.turn } va n w, met E va e) := by
  have h : (xlate E va n w).go e = (match translate { E with turn := e.turn } va n w with
      | .error c => (Plan.stop c : Plan Place)
      | .ok p => pure p).go (met E va e) := rfl
  rw [h]
  split <;> rename_i h1 <;> rw [h1] <;> rfl

/-- A write within one page. -/
theorem go_wr {E : Env} {va : Nat} {bs : List Nat} {pl : Place} (e : Eff) (h : runsOf va bs.length = [(va, bs.length)])
    (ht : translate { E with turn := e.turn } va bs.length true = .ok pl) :
    (wr E va bs).go e = (.ok (), { met E va e with acts := .wr pl bs false :: (met E va e).acts }) := by
  unfold wr wrN
  rw [h]
  simp only [wrRuns, List.take_length]
  rw [Plan.go_ok (show (xlate E va bs.length true).go e = (.ok pl, met E va e) by rw [go_xlate, ht])]
  rfl

/-- A read within one page that nothing stops. -/
theorem go_rd {E : Env} {va n : Nat} {pl : Place} (e : Eff) (h : runsOf va n = [(va, n)])
    (ht : translate { E with turn := e.turn } va n false = .ok pl) (hs : readStop E.d pl n = none) :
    (rd E va n).go e = (.ok (runBytes E.d pl n), { met E va e with acts := .rd pl n false :: (met E va e).acts }) := by
  generalize he : ({ met E va e with acts := Act.rd pl n false :: (met E va e).acts } : Eff) = e1
  have h0 : (rdPlace E false (va, n)).go e = (.ok ((pl, n), runBytes E.d pl n), e1) := by
    unfold rdPlace
    rw [Plan.go_ok (show (xlate E va n false).go e = (.ok pl, met E va e) by rw [go_xlate, ht])]
    rw [Plan.go_ok (Plan.go_act _ _), he]
    simp only [hs]
    rfl
  have h1 : (rdRun E false (va, n)).go e = (.ok (runBytes E.d pl n), e1) := by
    unfold rdRun
    rw [Plan.go_ok h0]
    rfl
  unfold rd rdN
  rw [h]
  have h2 : (([(va, n)] : List (Nat × Nat)).mapM (rdRun E false)).go e = (.ok [runBytes E.d pl n], e1) := by
    rw [List.mapM_cons, Plan.go_ok h1, List.mapM_nil, Plan.go_ok (Plan.go_pure _ _)]
    rfl
  rw [Plan.go_ok h2]
  simp [Plan.go_pure]

/-! ## Accesses -/

/-- A write outside HBM3E changes the bytes of its run and no other memory. -/
theorem applyAct_wr_mem (E : Env) (d : Dp) (pl : Place) (bs : List Nat) (w : Bool) (h : pl.tier ≠ 1) :
    (applyAct E d (.wr pl bs w)).mem =
      d.mem.setTier pl.tier (memStore (d.mem.tier pl.tier) (keysFrom pl.addr bs.length) bs) := by
  unfold applyAct
  simp only [h, if_false, tierKeys]
  have hb : ∀ (d : Dp) (k n : Nat), (bump d k n).mem = d.mem := by intro d k n; unfold bump; split <;> rfl
  have hf : ∀ (d : Dp) (a n : Nat), (flashWritten d a n).mem = d.mem := fun d a n => hb _ _ _
  split <;> simp [hf, hb]

/-! ## Completion of a working -/

/-- A working without hardware faults and decisions completes the op, leaves the memories as its accesses do, and changes nothing
but what ops read and change, ops, contexts, and what it sends to host memory. -/
theorem settle_done {s : State} {o : Op} {e : Eff} {id st : Nat} (h1 : s.op? id = some o) (hp : o.phase = .started)
    (hw : e.hw = none) (hd : (applyEff (s.opEnv o) e s.dp).hwDue = none) (hn : ∀ n ∈ e.notes, n.1 < 10) :
    EndedAs (s.inside (settle s o e st)) id st e.info ∧
    (s.inside (settle s o e st)).dp.mem = (applyEff (s.opEnv o) e s.dp).mem ∧
    s.inside (settle s o e st) = { s with dp := (s.inside (settle s o e st)).dp, ops := (s.inside (settle s o e st)).ops
                                          ctxs := (s.inside (settle s o e st)).ctxs, zl := (s.inside (settle s o e st)).zl
                                          out := (s.inside (settle s o e st)).out } := by
  have hid := op?_id h1
  have hf : e.notes.reverse.filter (fun n => decide (10 ≤ n.1)) = [] := by
    rw [List.filter_eq_nil_iff]; intro n hn'; have := hn n (by simpa using hn'); simp; omega
  have hnote : ∀ (l : List (Nat × Nat)) (u : State), ∃ ob, l.foldl applyNote u = { u with dp := { u.dp with objs := ob } } := by
    intro l
    induction l with
    | nil => intro u; exact ⟨_, rfl⟩
    | cons n l ih =>
      intro u
      have : ∃ ob, applyNote u n = { u with dp := { u.dp with objs := ob } } := by unfold applyNote; split <;> exact ⟨_, rfl⟩
      obtain ⟨ob, h⟩ := this
      obtain ⟨ob', h'⟩ := ih (applyNote u n)
      exact ⟨ob', by rw [List.foldl_cons, h', h]⟩
  have hse := sends_hostWrites (s.setDp (applyEff (s.opEnv o) e s.dp)) (s.opEnv o).ctx e.acts.reverse
  have hsn := hostWrites_soune (s.setDp (applyEff (s.opEnv o) e s.dp)) (s.opEnv o).ctx e.acts.reverse
  generalize hv : hostWrites (s.setDp (applyEff (s.opEnv o) e s.dp)) (s.opEnv o).ctx e.acts.reverse = v at hse hsn
  have hvdp : v.dp = applyEff (s.opEnv o) e s.dp := by rw [hse]; rfl
  obtain ⟨ob, ho⟩ := hnote e.notes.reverse v
  have key : settle s o e st = finishOp { v with dp := { applyEff (s.opEnv o) e s.dp with objs := ob } } o.id st e.info := by
    have hc : carryOut s o e = { v with dp := { applyEff (s.opEnv o) e s.dp with objs := ob } } := by
      unfold carryOut State.effect; rw [hv, ho, hvdp]
    unfold settle
    simp only [hw, hf, hc, hd]
    have hr : ∀ u : State, u.dp.hwDue = none → afterAccess o.ctx (u, none) = u := by
      intro u hu; unfold afterAccess raiseDue; simp [hu]
    have hwid : ∀ u : State, widDecisions u o.ctx [] = (u, none) := fun _ => rfl
    rw [hwid]
    apply hr
    rw [finishOp_frame]
  rw [key, hid]
  generalize hu : ({ v with dp := { applyEff (s.opEnv o) e s.dp with objs := ob } } : State) = u
  have h1' : u.op? id = some o := by rw [← hu, hse]; exact h1
  obtain ⟨oo, a, b, c, dd⟩ := finishOp_ended (status := st) (info := e.info) h1' (by rw [hp]; decide)
  have fr := finishOp_frame u id st e.info
  refine ⟨⟨oo, a, b, c, dd⟩, ?_, ?_⟩
  · show (finishOp u id st e.info).dp.mem = _
    rw [fr, ← hu]
  · rw [fr, ← hu, hse, hsn]; rfl

end Sys2Proof.Machine
end

