-- ==== Sys2Proof/Tests/Slice0.lean ====
section
/-! SUPPORT. Tests: which commands are well formed, single commands with results worked out from the spec, and for each obligation
states and operands that meet its hypotheses. -/

namespace Sys2Proof.Tests

set_option Elab.async false

open Sys2Proof.Machine

/-! ## States -/

/-- A context record (R438): bay 0, weight 1, sixteen ops, signal words 0 to 15, ops limited to 1 ms. -/
def rec0 : Nat := 2 ^ 896 + 2 ^ 816 + 16 * 2 ^ 803 + 16 * 2 ^ 775 + 2 ^ 736

/-- Page tables at HBM3E address 0 whose entry 0 names the table itself; virtual page 1 is the first 2 MiB of bay 0's near store. -/
def tables0 : Mem := { hbm := [(7, 0x80), (13, 0xC0), (14, 0x07), (15, 0xC0)], near := [(0, 5), (1, 6)] }

/-- Stages 1 to 6 of start-up have completed. -/
def up : State := { State.reset with boot := { done := [1, 2, 3, 4, 5, 6] } }

/-- Context 0 is ACTIVE, and virtual page 1 is mapped. -/
def act0 : State := { up with ctxs := [(0, { st := .active, record := rec0 })], dp := { up.dp with mem := tables0, time := 10000000 } }

/-- A descriptor's header: version 1 and an op code. -/
def hdr0 (opc : Nat) : Nat := 1 + opc * 2 ^ 32

/-- Op 0 of context 0. -/
def op0 (x : Nat) (ph : Phase) : Op := { id := 0, ctx := 0, queue := hQueue x, opc := hOpc x, desc := x, phase := ph }

/-- The device with op 0 as its only op in flight. -/
def withOp (o : Op) : State := { act0 with ops := [o], nextOp := 1 }

theorem started_of {s : State} {id : Nat} {o : Op} {f : Form}
    (h : (s.off == false && s.op? id == some o && o.phase == .started && formOf o.desc == some f) = true) : Started s id o f := by
  simpa [Started, and_assoc] using h

/-- The op works on, and its partition never runs dry of tokens. -/
theorem works_of {s : State} {id : Nat} {o : Op} {f : Form}
    (h : ((s.off == false && s.op? id == some o && o.phase == .started && formOf o.desc == some f) &&
      !dryPartition s.dp (cPartition (s.ctx o.ctx).record)) = true) : Works s id o f := by
  rw [Bool.and_eq_true] at h
  exact ⟨started_of h.1, by simpa using h.2⟩

theorem sound_of {s : State} (h : (s.dp.sev.isEmpty && s.dp.sram.isEmpty && s.dp.hwDue.isNone && s.dp.cache.all (fun l => l.stale == 0)) = true) :
    MemoriesSound s := by
  simpa [MemoriesSound, and_assoc] using h

/-- A mailbox frame without a session (R565): command, transaction and body. -/
def mbxFrame (cmd txn : Nat) (body : List Nat) : Frame :=
  { net := false, bytes := leBytes 32 (2 ^ 248 + cmd * 2 ^ 240 + body.length * 2 ^ 184 + txn * 2 ^ 120) ++ body }

/-- A frame is the mailbox request in service. -/
def serving (f : Frame) : State := { up with mbx := { cur := f.bytes, busy := true } }

/-- Whether a working came to its end. -/
def came {α : Type} (r : Except Nat α × Eff) : Bool :=
  match r.1 with
  | .ok _ => true
  | .error _ => false

/-! ## Well-formedness: each check accepts a term and refuses another -/

theorem test_wf_units : (Instr.dispatch 255).wf = true ∧ (Instr.dispatch 256).wf = false ∧ (Instr.zlLinkStateTimeout 1).wf = true ∧
    (Instr.zlLinkStateTimeout 2).wf = false ∧ (Instr.sounePortTimeout 35).wf = true ∧ (Instr.sounePortTimeout 36).wf = false ∧
    (Instr.bayTestComplete 127 2).wf = true ∧ (Instr.bayTestComplete 128 2).wf = false ∧ (Instr.sensorSample 403 0).wf = true ∧
    (Instr.sensorSample 404 0).wf = false ∧ (Instr.railFault 128 0).wf = true ∧ (Instr.railFault 129 0).wf = false ∧
    (Instr.hbmRegionWrite 7 0).wf = true ∧ (Instr.hbmRegionWrite 8 0).wf = false ∧ (Instr.tblOwnerWrite 0 15 0).wf = true ∧
    (Instr.tblOwnerWrite 0 16 0).wf = false := by decide

theorem test_wf_widths : (Instr.sqDb 0 (2 ^ 32 - 1)).wf = true ∧ (Instr.sqDb 0 (2 ^ 32)).wf = false ∧ (Instr.kill 65535).wf = true ∧
    (Instr.kill 65536).wf = false ∧ (Instr.txnExpiry (2 ^ 32)).wf = false ∧ (Instr.beaconSend (2 ^ 16)).wf = false ∧
    (Instr.leafReport (2 ^ 32) true).wf = false ∧ (Instr.hostReadCompletion 0 4096 0).wf = false ∧
    (Instr.hostReadCompletion 0 4095 256).wf = false ∧ (Instr.deviceDecodeComplete 0 0 65536).wf = false ∧
    (Instr.neighbourDiscovery 0 (2 ^ 128)).wf = false ∧ (Instr.dictWrite 0 65536 0 0).wf = false ∧
    (Instr.dictWrite 0 0 256 0).wf = false ∧ (Instr.pftGateMet 0 256).wf = false ∧ (Instr.ptpMessage 0 2147483648).wf = false ∧
    (Instr.sensorSample 0 32768).wf = false := by decide

theorem test_wf_values : (Instr.build 0 5).wf = true ∧ (Instr.build 0 (2 ^ 62)).wf = false ∧ (Instr.tickCommit 0 (2 ^ 62)).wf = true ∧
    (Instr.tickCommit 0 0).wf = false ∧ (Instr.tickAbort 0 (2 ^ 63)).wf = true ∧ (Instr.tickAbort 0 (2 ^ 62)).wf = false ∧
    (Instr.cacheFlush 1).wf = true ∧ (Instr.cacheFlush 2).wf = false ∧ (Instr.tgStart 0 (2 ^ 63)).wf = true ∧
    (Instr.tgStart 0 0).wf = false ∧ (Instr.tgStop 0 (2 ^ 62)).wf = true ∧ (Instr.tgStop 0 (2 ^ 63)).wf = false ∧
    (Instr.widTableWrite 2 65535).wf = true ∧ (Instr.widTableWrite 3 0).wf = false ∧ (Instr.twinWindowWrite 3 0).wf = false ∧
    (Instr.portEnable 0 2).wf = false ∧ (Instr.bayTestComplete 0 1).wf = false ∧ (Instr.bayTestComplete 0 7).wf = false ∧
    (Instr.lbStart 0 128).wf = true ∧ (Instr.lbStart 0 127).wf = false ∧ (Instr.lbRunEnd 81 0 0 0).wf = true ∧
    (Instr.lbRunEnd 36 0 0 0).wf = false ∧ (Instr.controlWindowWrite 0 0 0).wf = false ∧ (Instr.zlReceiverDetect 0 17).wf = false ∧
    (Instr.souneReceiverDetect 0 5).wf = false := by decide

theorem test_wf_records : (Instr.qopRead ⟨false, [255]⟩).wf = true ∧ (Instr.qopRead ⟨false, [256]⟩).wf = false ∧
    (Instr.fwStage 0 0 [255]).wf = true ∧ (Instr.fwStage 0 0 [256]).wf = false ∧ (Instr.chunk ⟨0, 0, [1], 0⟩).wf = true ∧
    (Instr.chunk ⟨2 ^ 256, 0, [], 0⟩).wf = false ∧ (Instr.zlFlitReceive 0 ⟨0, 0, false⟩).wf = true ∧
    (Instr.zlFlitReceive 0 ⟨2 ^ 256, 0, false⟩).wf = false ∧ (Instr.souneFrameReceive 0 ⟨2 ^ 128, 0, false, false⟩).wf = false ∧
    (Instr.tgRunComplete 319 ⟨1, 1, 1, []⟩).wf = true ∧ (Instr.tgRunComplete 320 ⟨1, 1, 1, []⟩).wf = false ∧
    (Instr.stageMgmt [⟨15, [⟨0, 0, false, 255, 1⟩], []⟩]).wf = true ∧ (Instr.stageMgmt [⟨16, [], []⟩]).wf = false ∧
    (Instr.stageMgmt [⟨0, [⟨0, 0, false, 256, 1⟩], []⟩]).wf = false ∧ (Instr.stageHbm (some 19) []).wf = true ∧
    (Instr.stageHbm (some 20) []).wf = false ∧ (Instr.stageHbmtest [⟨0, [1], 1, false⟩]).wf = true ∧
    (Instr.stageHbmtest [⟨0, [1], 2, false⟩]).wf = false ∧ (Instr.stageBaytest (some (0, 0x0F24))).wf = true ∧
    (Instr.stageBaytest (some (0, 0x0F23))).wf = false ∧ (Instr.stageFtl true 1001 0 0).wf = false ∧
    (Instr.stagePair ⟨0, 0, true, 6, 0⟩).wf = false ∧ (Instr.arbiterInterval ⟨0, 0, 0, []⟩).wf = false ∧
    (Instr.prepare ⟨0, 0, 0, 0, 4, 0, 0, 0, false, []⟩).wf = true ∧ (Instr.prepare ⟨0, 0, 0, 0, 5, 0, 0, 0, false, []⟩).wf = false ∧
    (Instr.patrolScrub 0 6 false).wf = true ∧ (Instr.patrolScrub 0 7 false).wf = false ∧
    (Instr.patrolScrub (2 ^ 40) 0 false).wf = false := by decide +kernel

theorem test_wf_vec : (Instr.vec 0 ⟨15, 0, 0, 0, 0, 0, 0, 0, 1, 1, 0, 0, 0, 0, 0, 0⟩).wf = true ∧
    (Instr.vec 0 ⟨16, 0, 0, 0, 0, 0, 0, 0, 1, 1, 0, 0, 0, 0, 0, 0⟩).wf = false ∧
    (Instr.vec 0 ⟨0, 32, 0, 0, 0, 0, 0, 0, 1, 1, 0, 0, 0, 0, 0, 0⟩).wf = false ∧
    (Instr.vec 0 ⟨0, 0, 0, 0, 0, 0, 0, 0, 2 ^ 24, 1, 0, 0, 0, 0, 0, 0⟩).wf = false ∧
    (Instr.vec 0 ⟨0, 0, 0, 0, 0, 0, 0, 0, 1, 1, 2 ^ 56, 0, 0, 0, 0, 0⟩).wf = false := by decide

/-- No row of the table gives bits: no word spells a command. -/
theorem test_no_word_spells_a_command : decodeTableWord 8 0 = none ∧ decodeTableWord 64 (2 ^ 64 - 1) = none := by decide

/-- An infinite operand stays infinite where the format has infinities (R35); an overflow follows `OVF` (R34). -/
theorem test_infinity_stays : (encodeNum fFP32 { ovf := 1 } 0 (.inf true)).code = 0xFF800000 ∧
    (encodeNum fE4M3 { ovf := 1 } 0 (.inf true)).code = 0xFE ∧
    (encodeNum fE4M3 { ovf := 1 } 0 (.fin false 1 10)).code = 0x7E := by decide

/-- A group of E4M3S (R318): s = ceil(log2(1 / 448)) = −8, so the codes are those of −0 and 256. -/
theorem test_fulled_zero_sign : fullGroup 2 fFP32 [0x80000000, 0x3F800000] = [119, 0x80, 0x78] := by decide

/-- SHA-384 of "abc", as FIPS 180-4 publishes it. -/
theorem test_sha384_abc : (sha384 [0x61, 0x62, 0x63]).take 4 = [0xCB, 0x00, 0x75, 0x3F] := by decide +kernel

/-- The family of `Sys2Proof.Laws.UnitsExist` names units where a command has them. -/
theorem test_named_units : Laws.UnitsExist.named (.reelSpill 3 7) = [(3, 256), (7, 128)] ∧ Laws.UnitsExist.named .alertAck = [] := by
  decide

/-! ## Witnesses: steps, signals and doorbells -/

theorem witness_steps : State.reset.pending = [] ∧ (∃ t, step { State.reset with pending := [.alertAck] } = .next t) ∧
    SignalsAgree State.reset := ⟨rfl, ⟨_, rfl⟩, by unfold SignalsAgree; decide⟩

theorem witness_HeldDeviceTakesNoCommand : signalCommand .lockstepError = false ∧ ({ State.reset with off := true } : State).off = true :=
  ⟨rfl, rfl⟩

theorem witness_DeviceCommandsKeepSignals : signalCommand .lockstepError = false ∧ ∃ t, exec .lockstepError State.reset = .next t :=
  ⟨rfl, _, rfl⟩

theorem witness_CarriedCommandsContinue : (Instr.dispatch 255).wf = true := rfl

theorem witness_AbsentUnitsTakeNothing : exec (.zlLinkStateTimeout 2) up = .next up ∧ exec (.sounePortTimeout 36) up = .next up ∧
    exec (.dispatch 256) up = .next up ∧ exec (.sensorSample 404 0) up = .next up ∧
    exec (.bayCurrentLimit 128 0) up = .next up ∧ exec (.tgRunComplete 320 ⟨0, 0, 0, []⟩) up = .next up := by
  refine ⟨rfl, rfl, rfl, rfl, rfl, rfl⟩

/-- Context 3 with 256 slots, consumer `c` and producer `p`, as in the example of 14_host_link.md. -/
def queue3 (c p : Nat) : State :=
  ({ up with ctxs := [(3, { st := .active, record := rec0, sqCons := c, sqProd := p, cqCons := 4, cqProd := 9 })] } : State).setObj
    (objKey 3 kSqLog2) 8

/-- Whether a submission doorbell is accepted. -/
def sqAccepts (s : State) (c p : Nat) : Bool :=
  decide ((p + 2 ^ 32 - (s.ctx c).sqCons) % 2 ^ 32 ≤ 2 ^ s.obj (objKey c kSqLog2)) &&
  decide (((s.ctx c).sqProd + 2 ^ 32 - (s.ctx c).sqCons) % 2 ^ 32 ≤ (p + 2 ^ 32 - (s.ctx c).sqCons) % 2 ^ 32)

/-- The example of 14_host_link.md: with C = 250, 260 is accepted; 255 is not once C = 252; the queue's size is the last value. -/
theorem witness_SubmissionDoorbellRules : (queue3 250 250).off = false ∧ ((queue3 250 250).ctx 3).st = .active ∧
    ((queue3 250 250).ctx 4).st ≠ .active ∧ sqAccepts (queue3 250 250) 3 260 = true ∧ sqAccepts (queue3 250 250) 3 506 = true ∧
    sqAccepts (queue3 250 250) 3 507 = false ∧ sqAccepts (queue3 252 260) 3 255 = false ∧ sqAccepts (queue3 252 260) 3 260 = true := by
  decide +kernel

theorem test_sqDb_example : ∃ t, exec (.sqDb 3 260) (queue3 250 250) = .next t ∧ (t.ctx 3).sqProd = 260 ∧ (t.ctx 3).sqCons = 250 :=
  ⟨_, rfl, by decide +kernel, by decide +kernel⟩

/-- Completion doorbells 4 to 9 are accepted, 3 and 10 are not. -/
theorem witness_CompletionDoorbellRules : ((queue3 0 0).ctx 3).cqCons = 4 ∧ ((queue3 0 0).ctx 3).cqProd = 9 ∧
    (9 + 2 ^ 32 - 4) % 2 ^ 32 ≤ (9 + 2 ^ 32 - 4) % 2 ^ 32 ∧ (9 + 2 ^ 32 - 4) % 2 ^ 32 < (10 + 2 ^ 32 - 4) % 2 ^ 32 ∧
    (9 + 2 ^ 32 - 4) % 2 ^ 32 < (3 + 2 ^ 32 - 4) % 2 ^ 32 := by decide +kernel

/-- A held interrupt, sent 1 µs after the latest one. -/
def held3 (now : Nat) : State :=
  ({ up with ctxs := [(3, { st := .active, intHeld := true, lastInt := some 500 })], dp := { up.dp with time := now } } : State).setObj
    (objKey 3 kCqModUs) 1

theorem witness_held_interrupt : ((held3 1500).ctx 3).intHeld = true ∧ ((held3 1500).ctx 3).lastInt = some 500 ∧
    500 + (held3 1500).obj (objKey 3 kCqModUs) * 1000 ≤ (held3 1500).time ∧
    (held3 1499).time < 500 + (held3 1499).obj (objKey 3 kCqModUs) * 1000 := by decide +kernel

theorem witness_MailboxDoorbellRules : up.off = false ∧ up.mbx.busy = false ∧ (serving (mbxFrame 3 0 [])).mbx.busy = true := by
  decide +kernel

theorem test_mbxDb_limits : (∃ t, exec (.mbxDb 4096) up = .next t ∧ t.mbx.busy = true) ∧ (∃ t, exec (.mbxDb 4097) up = .next t ∧ t.mbx.busy = false) ∧
    (∃ t, exec (.mbxDb 0) up = .next t ∧ t.mbx.busy = false) :=
  ⟨⟨_, rfl, by decide +kernel⟩, ⟨_, rfl, by decide +kernel⟩, ⟨_, rfl, by decide +kernel⟩⟩

/-- Boundaries of the control window: the last byte of the request buffer, a doorbell at a wrong size, the response buffer. -/
theorem witness_ControlWindowRules : 0x100000 ≤ 0x100FFF ∧ 0x100FFF + 1 ≤ 0x101000 ∧
    (0x3000 < 0x100000 ∧ ¬ (0x3000 % 4096 = 0 ∧ 8 = 4) ∧ ¬ (0x3000 % 4096 = 8 ∧ 8 = 4) ∧ ¬ (0x3000 % 4096 = 16 ∧ 8 = 8)) ∧
    (0x101000 ≤ 0x101000 ∧ ¬ (0x101000 = 0x102000 ∧ 4 = 4)) := by decide

/-! ## Witnesses: dispatch, start and completion -/

/-- Context 0 with one descriptor in host memory at 0x1000. -/
def submitted (x : Nat) : State :=
  let s : State := { act0 with ctxs := [(0, { st := .active, record := rec0, sqProd := 1 })]
                               dp := { act0.dp with mem := hostWrite tables0 0x1000 (leBytes 128 x) } }
  (s.setObj (objKey 0 kSqBase) 0x1000).setObj (objKey 0 kSqLog2) 4

/-- MMA in bay 0, a MOV, a fence in each scope, a collective, and a header without an op code. -/
theorem witness_DispatchPlacesNextOp : canPlace (submitted (hdr0 opMMA)) 0 = true ∧ isTurn (submitted (hdr0 opMMA)) 0 = true ∧
    targetOf (submitted (hdr0 opMMA)) 0 (nextDesc (submitted (hdr0 opMMA)) 0) = .queue 0 ∧ isColl (hOpc (nextDesc (submitted (hdr0 opMMA)) 0)) = false ∧
    (let s := submitted (hdr0 opFNC + 0xFE * 2 ^ 40 + 2 ^ 822); canPlace s 0 = true ∧ targetOf s 0 (nextDesc s 0) = .fence) ∧
    (let s := submitted (hdr0 0xEE); canPlace s 0 = true ∧ targetOf s 0 (nextDesc s 0) = .reject 0x0101) ∧
    (let s : State := { submitted (hdr0 opBCS + 0x83 * 2 ^ 40) with twin := { st := 2, paired := true } }
     canPlace s 0 = true ∧ isTurn s 0 = true ∧ targetOf s 0 (nextDesc s 0) = .queue 0x83 ∧ isColl (hOpc (nextDesc s 0)) = true) ∧
    canPlace act0 0 = false := by decide +kernel

theorem test_dispatch_places : ∃ t, exec (.dispatch 0) (submitted (hdr0 opMMA)) = .next t ∧ t.ops.map (·.opc) = [opMMA] ∧
    (t.ctx 0).sqCons = 1 := ⟨_, rfl, by decide +kernel, by decide +kernel⟩

def placed (x : Nat) : Op := op0 x .placed
def begun (x : Nat) : Op := op0 x .started
def ended (x : Nat) : Op := op0 x .done

theorem witness_OpStartRules : (let s := withOp (placed (hdr0 opMMA)); let o := placed (hdr0 opMMA)
      s.op? 0 = some o ∧ o.phase = .placed ∧ s.twin.st ≠ 5 ∧ isColl o.opc = false ∧ queueTurn s o = true ∧ o.opc ≠ opFNC ∧
      mediaTurn s o = true ∧ engineFree s o.queue = true ∧ unitsFor o.desc (busyUnits s o.queue) = some 1 ∧ prefetchHeld s o = false ∧
      (formOf o.desc).isSome = true) ∧
    (let s := withOp (placed (hdr0 opFNC)); queueTurn s (placed (hdr0 opFNC)) = true) ∧
    (let o : Op := { placed (hdr0 opMMA) with id := 1 }
     let s : State := { act0 with ops := [placed (hdr0 opMMA), o] }; s.op? 1 = some o ∧ queueTurn s o = false) ∧
    (let o : Op := { placed (hdr0 opVEC) with id := 1 }
     let s : State := { act0 with ops := [{ begun (hdr0 opVEC) with arrays := 4 }, o] }
     queueTurn s o = true ∧ unitsFor o.desc (busyUnits s o.queue) = none) ∧
    (let o := placed (hdr0 opMMA + 5 * 2 ^ 52)
     let e : SchedEntry := { src := 0, dst := 0, bytes := 0, after := 0, done := 0, forLayer := 5, bay := 0 }
     let s : State := { withOp o with scheds := [{ op := 9, ctx := 0, id := 0, addr := 0, entries := 1, rep := 1, window := 1, cur := some e }] }
     prefetchHeld s o = true ∧ o.heldSince = none) ∧
    -- an MDC alone, and one behind a waiting decode of an ING that started before it
    ingAhead (withOp (placed (hdr0 opMDC))) = false ∧
    (let o : Op := { placed (hdr0 opMDC) with id := 1 }
     let s : State := { act0 with ops := [begun (hdr0 opING), o], ing := [{ op := 0, samples := [{}], scratchBytes := 2 ^ 40 }] }
     s.op? 1 = some o ∧ ingAhead s = true) := by decide +kernel

/-- An op that has completed, in a context with completion queue 2^k and producer `p`. -/
def finished (k p : Nat) (st : CtxSt) : State :=
  ({ withOp (ended (hdr0 opMMA)) with ctxs := [(0, { st := st, record := rec0, doneQ := [0], cqProd := p })] } : State).setObj (objKey 0 kCqLog2) k

theorem witness_CompletionEntryPosted : (finished 4 3 .active).off = false ∧ (finished 4 3 .active).op? 0 = some (ended (hdr0 opMMA)) ∧
    ((finished 4 3 .active).ctx 0).doneQ.head? = some 0 ∧ ((finished 4 3 .active).ctx 0).st = .active ∧
    cqFull (finished 4 3 .active) 0 = false := by decide +kernel

/-- The phase bit is 1 on the first pass and 0 on the second (R476). -/
theorem test_phase_bit : cqEntry (finished 4 15 .active) (ended (hdr0 opMMA)) % 2 = 1 ∧
    cqEntry (finished 4 16 .active) (ended (hdr0 opMMA)) % 2 = 0 := by decide +kernel

theorem witness_FullCompletionQueue : cqFull (finished 4 16 .active) 0 = true ∧ ((finished 4 16 .active).ctx 0).st ≠ .teardown ∧
    (ended (hdr0 opMMA)).cqSince = none ∧ cqFull (finished 4 16 .teardown) 0 = true ∧ ((finished 4 16 .teardown).ctx 0).st = .teardown := by
  decide +kernel

/-- A fence that waits for word 3 to reach 5, with a limit of 7 µs and `TO_ACT` as given. -/
def waitFnc (toAct : Nat) : Nat := hdr0 opFNC + 5 * 2 ^ 960 + 3 * 2 ^ 868 + 7 * 2 ^ 824 + 2 ^ 821 + toAct * 2 ^ 816

theorem witness_WaitsThatEndInAJobFault :
    (let o : Op := { ended (hdr0 opMMA) with cqSince := some 0 }
     let s : State := { finished 4 16 .active with ops := [o] }
     s.op? 0 = some o ∧ cqFull s 0 = true ∧ s.expired 0 (s.obj (objKey 0 kCqFullWaitUs) * 1000) = true) ∧
    (let s := withOp (begun (hdr0 opMMA))
     (s.ctx 0).st = .active ∧ cOpLimitMs (s.ctx 0).record = 1 ∧ isMedia opMMA = false ∧ s.expired 0 1000000 = true) ∧
    (∀ a ∈ [0, 1], let o : Op := { begun (waitFnc a) with waitSince := some 0 }
     formOf o.desc = some .fnc ∧ (fncOf o.desc).timeoutUs = 7 ∧ kvGet 0 (withOp o).sig (fncOf o.desc).waitSig < (fncOf o.desc).thresh ∧
     (withOp o).expired 0 7000 = true ∧ (fncOf o.desc).toAct = (a == 1)) := by decide +kernel

theorem witness_FenceRules : Started (withOp (begun (waitFnc 0))) 0 (begun (waitFnc 0)) .fnc ∧
    fenceStep1 (withOp (begun (waitFnc 0))) (begun (waitFnc 0)) = true ∧ (fncOf (waitFnc 0)).waitEn = true ∧
    (fncOf (hdr0 opFNC)).waitEn = false ∧ (fncOf (hdr0 opFNC + 2 ^ 817)).stepEn = true ∧
    Started (withOp (begun (hdr0 opFNC + 2 ^ 817))) 0 (begun (hdr0 opFNC + 2 ^ 817)) .fnc :=
  ⟨started_of (by decide +kernel), by decide +kernel, by decide +kernel, by decide +kernel, by decide +kernel, started_of (by decide +kernel)⟩

theorem witness_FinishedOpWaitsForItsEntry : (withOp (begun (hdr0 opMMA))).op? 0 = some (begun (hdr0 opMMA)) ∧
    (begun (hdr0 opMMA)).phase ≠ .done ∧ (withOp (begun (hdr0 opMMA))).obj (objKey 0 kAcctOps) < 2 ^ 64 - 1 := by decide +kernel

/-! ## Witnesses: the working of ops -/

/-- MOV FILL of 16 bytes, and MOV COPY of 16 bytes, within virtual page 1. -/
def fillD : Nat := hdr0 opMOV + 2 ^ 570 + 0xA5 * 2 ^ 384 + 16 * 2 ^ 352 + 16 * 2 ^ 288 + 2 ^ 256 + 2 ^ 21 * 2 ^ 192
def copyD : Nat := hdr0 opMOV + 16 * 2 ^ 352 + 16 * 2 ^ 320 + 16 * 2 ^ 288 + 2 ^ 256 + (2 ^ 21 + 64) * 2 ^ 192 + 2 ^ 21 * 2 ^ 128

/-- Every form that works on memories alone, with a descriptor that selects it. -/
def worked : List (Instr × Form × Nat) :=
  [(.mma 0, .mma, hdr0 opMMA), (.mmg 0, .mmg, hdr0 opMMG), (.mmgIndexForm 0, .mmgIndex, mmgIx), (.att 0, .att, hdr0 opATT),
   (.atgStatistics 0, .atgStat, hdr0 opATG), (.atgGradient 0, .atgGrad, hdr0 opATG + 2 ^ 591), (.cnv 0, .cnv, hdr0 opCNV),
   (.cnt 0, .cnt, hdr0 opCNT), (.eval 0, .eval, hdr0 opFUN), (.mul 0, .mul, fun_ 1), (.sincos 0, .sincos, fun_ 2), (.rope 0, .rope, fun_ 3),
   (.rms 0, .rms, hdr0 opRMS), (.rmsBackward 0, .rmsBack, rmsBk), (.smx 0, .smx, hdr0 opSMX), (.upd 0, .upd, hdr0 opUPD),
   (.copy 0, .copy, copyD), (.fill 0, .fill, fillD), (.slotOut 0, .slotOut, hdr0 opMOV + 2 ^ 571)]
where
  mmgIx : Nat := hdr0 opMMG + fINT32 * 2 ^ 704
  fun_ (k : Nat) : Nat := hdr0 opFUN + k * 2 ^ 760
  rmsBk : Nat := hdr0 opRMS + 2 ^ 384

/-- Whether the op's partition runs dry of tokens in a state. -/
def dryNow (s : State) : Bool := dryPartition s.dp (cPartition (s.ctx 0).record)

/-- Each of them has started in a partition that gains tokens, has a working, and needs nothing from host memory. -/
theorem witness_WorkingOpsComplete : (∀ w ∈ worked, workForm w.1 = some (0, w.2.1) ∧ formOf w.2.2 = some w.2.1 ∧
      (withOp (begun w.2.2)).op? 0 = some (begun w.2.2) ∧ dryNow (withOp (begun w.2.2)) = false ∧
      (opPlan (withOp (begun w.2.2)) (begun w.2.2) w.2.1).any (fun p =>
        waitsForHost (begun w.2.2) (runPlan p codeOrder).1 == none && (runPlan p codeOrder).1.hw == none &&
        (applyEff ((withOp (begun w.2.2)).opEnv (begun w.2.2)) (runPlan p codeOrder).1 (withOp (begun w.2.2)).dp).hwDue == none &&
        (runPlan p codeOrder).1.notes.all (fun n => decide (n.1 < 10))) = true) := by decide +kernel

/-- FILL of 256 bytes of an HBM3E page (virtual page 2) and of a host page (virtual page 3). -/
def fillAt (page : Nat) : Nat := hdr0 opMOV + 2 ^ 570 + 0xA5 * 2 ^ 384 + 256 * 2 ^ 352 + 256 * 2 ^ 288 + 2 ^ 256 + page * 2 ^ 21 * 2 ^ 192
def copyAt (src dst : Nat) : Nat :=
  hdr0 opMOV + 256 * 2 ^ 352 + 256 * 2 ^ 320 + 256 * 2 ^ 288 + 2 ^ 256 + dst * 2 ^ 21 * 2 ^ 192 + src * 2 ^ 21 * 2 ^ 128
def mapped (o : Op) (rate : Nat) : State :=
  let s := withOp o
  let h : List Host.Cell := [(16, 1), (23, 0xD0), (24, 1), (31, 0xE0)]
  ((({ s with dp := { s.dp with mem := { tables0 with hbm := tables0.hbm ++ h } } } : State).setObj (objKey 0 kRegRate) rate).setObj
    (objKey 0 kRegBorrow) rate).setObj kHostWinPages 8

/-- An op that reads host memory, and one that needs more tokens than a bucket without a rate holds. -/
theorem witness_waiting_ops :
    (let o := begun (copyAt 3 1)
     (opPlan (mapped o 1) o .copy).any (fun p => (waitsForHost o (runPlan p codeOrder).1).isSome) = true) ∧
    (let o : Op := begun (fillAt 2)
     let s := mapped o 0
     let t : State := { s with dp := { s.dp with buckets := [(bucketKey 0 0, bucketDepth s.dp 0 + 1)] } }
     dryNow s = true ∧ starves s.dp t.dp 0 = true) := by decide +kernel

theorem witness_VecCompletes : Works (withOp (begun (hdr0 opVEC))) 0 (begun (hdr0 opVEC)) .vec ∧
    (let v : VecFields := ⟨8, 0, 0, 0, 0, 0, 0, 0, 1, 4, 2 ^ 21, 2 ^ 21, 2 ^ 21 + 64, 16, 16, 16⟩
     let s := withOp (begun (hdr0 opVEC))
     let r := runPlan (vecPlan (s.opEnv (begun (hdr0 opVEC))) v) codeOrder
     waitsForHost (begun (hdr0 opVEC)) r.1 = none ∧ r.1.hw = none ∧ (applyEff (s.opEnv (begun (hdr0 opVEC))) r.1 s.dp).hwDue = none ∧
     r.1.notes = [] ∧ r.2 = 0) :=
  ⟨works_of (by decide +kernel), by decide +kernel⟩

/-- Whether a working came to its end with a value and had the given effect. -/
def gave {α : Type} [DecidableEq α] (r : Except Nat α × Eff) (a : α) (e : Eff) : Bool :=
  match r with
  | (.ok b, e1) => decide (b = a ∧ e1 = e)
  | (.error _, _) => false

theorem eq_of_gave {α : Type} [DecidableEq α] {r : Except Nat α × Eff} {a : α} {e : Eff} (h : gave r a e = true) : r = (.ok a, e) := by
  rcases r with ⟨_ | b, e1⟩
  · simp [gave] at h
  · simp [gave] at h; rw [h.1, h.2]

/-- Whether a translation answers a place. -/
def mapsTo (r : Except Nat Place) (p : Place) : Bool :=
  match r with
  | .ok q => decide (q = p)
  | .error _ => false

theorem witness_FillWritesThePattern : Works (withOp (begun fillD)) 0 (begun fillD) .fill ∧ MemoriesSound (withOp (begun fillD)) ∧
    ((movIssue ((withOp (begun fillD)).opEnv (begun fillD)) fillD).run {} : Except Nat MovDesc × Eff) = (.ok (movDesc fillD), {}) ∧
    (let d := movDesc fillD
     d.rows = 1 ∧ d.rowBytes % 8 = 0 ∧ runsOf d.dst d.rowBytes = [(d.dst, d.rowBytes)] ∧
     mapsTo (translate ((withOp (begun fillD)).opEnv (begun fillD)) d.dst d.rowBytes true) ⟨0, 0, 0⟩ = true) :=
  ⟨works_of (by decide +kernel), sound_of (by decide +kernel), eq_of_gave (by decide +kernel), by decide +kernel⟩

/-- A FILL of 16 bytes with 0xA5 repeats the eight little-endian bytes twice (R330). -/
theorem test_fill : ∃ t, exec (.fill 0) (withOp (begun fillD)) = .next t ∧ t.dp.mem.near = [(0, 0xA5), (8, 0xA5)] :=
  ⟨_, rfl, by decide +kernel⟩

/-- A started COPY whose reads of host memory have come. -/
def copyO : Op := { begun copyD with hostOk := true }

theorem witness_CopyMovesTheBytes : Works (withOp copyO) 0 copyO .copy ∧ MemoriesSound (withOp copyO) ∧
    gave ((movIssue ((withOp copyO).opEnv copyO) copyD).run {}) (movDesc copyD) {} = true ∧
    (let E := (withOp copyO).opEnv copyO
     let d := movDesc copyD
     d.rows = 1 ∧ runsOf d.src d.rowBytes = [(d.src, d.rowBytes)] ∧ runsOf d.dst d.rowBytes = [(d.dst, d.rowBytes)] ∧
     mapsTo (translate E d.src d.rowBytes false) ⟨0, 0, 0⟩ = true ∧ mapsTo (translate { E with turn := 1 } d.dst d.rowBytes true) ⟨0, 64, 0⟩ = true ∧
     dstFlash E d = false) := ⟨works_of (by decide +kernel), sound_of (by decide +kernel), by decide +kernel, by decide +kernel⟩

/-- A LOAD of the slot of its descriptor; with a started op before it, with its image read, and with the shadow bank held. -/
def loadD : Nat := hdr0 opFUN + 4 * 2 ^ 760
def loadO (image : Option Nat) : Op := { begun loadD with id := 1, startNo := 1, image := image }
def loads (image : Option Nat) (ahead : Bool) (held : List BankRef) : State :=
  { act0 with ops := [{ begun (if ahead then loadD else hdr0 opMMA) with banks := held }, loadO image], nextOp := 2 }

/-- A LOAD behind another, one whose image lies outside every page, and one whose image has been read, with its bank free or held. -/
theorem witness_LoadExchangesTheBanks : Works (loads none false []) 1 (loadO none) .load ∧ Works (loads none true []) 1 (loadO none) .load ∧
    (∀ held ∈ [true, false], let s := loads (some 5) false [⟨loadSlot (loadO none), 0, 0, none, held⟩]
      s.op? 1 = some (loadO (some 5)) ∧ earlierLoad s (loadO (some 5)) = false ∧ shadowHeld s (loadO (some 5)) = held) ∧
    earlierLoad (loads none true []) (loadO none) = true ∧
    (let s := loads none false []
     let o := loadO none
     let r : Except Nat Nat × Eff := (loadPlan (s.opEnv o) o.banks o.desc).run {}
     earlierLoad s o = false ∧ waitsForHost o r.2 = none ∧ came r = false ∧ r.2.hw = none ∧ (applyEff (s.opEnv o) r.2 s.dp).hwDue = none ∧
     r.2.notes = []) :=
  ⟨works_of (by decide +kernel), works_of (by decide +kernel), by decide +kernel, by decide +kernel, by decide +kernel⟩

/-- A flush of a fresh stream: a decode without bytes, and an encode without a frame; the state block lies in virtual page 1. -/
def mdcD : Nat := hdr0 opMDC + 64 * 2 ^ 896 + 4096 * 2 ^ 864 + 8192 * 2 ^ 832 + 8192 * 2 ^ 800 + 2 ^ 792 + 3 * 2 ^ 780 +
  2 ^ 40 * 2 ^ 384 + (2 ^ 21 + 2 ^ 16) * 2 ^ 320 + 2 ^ 41 * 2 ^ 256 + 2 ^ 42 * 2 ^ 192
def menD : Nat := hdr0 opMEN + 64 * 2 ^ 928 + 4096 * 2 ^ 896 + 64 * 2 ^ 720 + 64 * 2 ^ 704 + 3 * 2 ^ 665 + 8192 * 2 ^ 617 +
  (2 ^ 21 + 2 ^ 15) * 2 ^ 384 + (2 ^ 21 + 2 ^ 16) * 2 ^ 320 + 2 ^ 41 * 2 ^ 256 + 2 ^ 21 * 2 ^ 192

theorem witness_media_flush : Works (withOp (begun mdcD)) 0 (begun mdcD) .mdc ∧ Works (withOp (begun menD)) 0 (begun menD) .men ∧
    (let s := withOp (begun mdcD)
     let r : Except Nat MediaBlk × Eff := (mdcPlan (s.opEnv (begun mdcD)) mdcD (mediaBlk s (begun mdcD))).run {}
     waitsForHost (begun mdcD) r.2 = none ∧ came r = true ∧ firstCode mediaOrder r.2.codes ≠ 0x0608) ∧
    (let s := withOp (begun menD)
     let r : Except Nat MediaBlk × Eff := (menPlan (s.opEnv (begun menD)) menD (mediaBlk s (begun menD))).run {}
     waitsForHost (begun menD) r.2 = none ∧ came r = true ∧ firstCode mediaOrder r.2.codes ≠ 0x0608) :=
  ⟨works_of (by decide +kernel), works_of (by decide +kernel), by decide +kernel, by decide +kernel⟩

theorem witness_MediaOpsComplete : Works (withOp (begun (hdr0 opMDC))) 0 (begun (hdr0 opMDC)) .mdc ∧
    Works (withOp (begun (hdr0 opMEN))) 0 (begun (hdr0 opMEN)) .men ∧
    (begun (hdr0 opMDC)).startedAt + 2000000 ≤ (withOp (begun (hdr0 opMDC))).time ∧
    (let s := withOp (begun (hdr0 opMDC))
     let r : Except Nat MediaBlk × Eff := (mdcPlan (s.opEnv (begun (hdr0 opMDC))) (hdr0 opMDC) (mediaBlk s (begun (hdr0 opMDC)))).run {}
     waitsForHost (begun (hdr0 opMDC)) r.2 = none ∧ came r = false) ∧
    (let s := withOp (begun (hdr0 opMEN))
     let r : Except Nat MediaBlk × Eff := (menPlan (s.opEnv (begun (hdr0 opMEN))) (hdr0 opMEN) (mediaBlk s (begun (hdr0 opMEN)))).run {}
     waitsForHost (begun (hdr0 opMEN)) r.2 = none ∧ came r = false) :=
  ⟨works_of (by decide +kernel), works_of (by decide +kernel), by decide +kernel, by decide +kernel, by decide +kernel⟩

/-! ## Witnesses: the reel -/

/-- A reel record: 4 blocks at 0x100000 of virtual page `page`, a spill area of 4 blocks at the partner (2) or in host memory (1), from
above 60 % down to 30 %, one block ahead, two frames. -/
def reelAt (page spill : Nat) : Nat :=
  (page * 2 ^ 21 + 2 ^ 20) * 2 ^ 448 + 4 * 2 ^ 416 + 3 * 2 ^ 21 * 2 ^ 352 + 4 * 2 ^ 320 + spill * 2 ^ 318 + 60 * 2 ^ 311 + 30 * 2 ^ 304 +
    2 ^ 288 + 2 * 2 ^ 280
def reelX : Nat := reelAt 1 1

/-- A started op in a context with one reel of a record in bay 0; the partner lends one page. -/
def withReelAt (rec x : Nat) (fs : List ReelFrame) : State :=
  let s := mapped (begun x) 1
  { s with dp := { s.dp with partnerPages := 1, reels := [{ ctx := 0, bay := 0, record := rec, frames := fs }] } }
def withReel (x : Nat) (fs : List ReelFrame) : State := withReelAt reelX x fs

def mrkD (act tag : Nat) : Nat := hdr0 opMRK + tag * 2 ^ 296 + act * 2 ^ 280
def issueOf (kind x : Nat) : Bool := gave ((reelIssue kind x).run {}) (reelDesc x) {}

theorem witness_ReelMarks : formOf (mrkD 0 7) = some .mrkOpen ∧ formOf (mrkD 1 7) = some .mrkClose ∧ formOf (mrkD 2 7) = some .mrkDrop ∧
    issueOf 2 (mrkD 0 7) = true ∧ issueOf 2 (mrkD 1 7) = true ∧ issueOf 2 (mrkD 2 7) = true ∧ issueOf 2 (mrkD 0 7 + 2 ^ 292) = false ∧
    (∀ a ∈ [0, 1, 2], (withReel (mrkD a 7) []).op? 0 = some (begun (mrkD a 7)) ∧ dryNow (withReel (mrkD a 7) []) = false) ∧ findReel act0.dp 0 0 = none ∧
    ((findReel (withReel 0 [{ tag := 7, rank := 0 }]).dp 0 0).bind (fun r => r.frame 7)).isSome = true ∧
    ((findReel (withReel 0 [{ tag := 8, rank := 0 }]).dp 0 0).bind (fun r => r.frame 7)) = none ∧ (reelRec reelX).maxFrames = 2 := by
  decide +kernel

/-- The record of the example lies at entry 0 of a table in virtual page 1; its area is virtual page 2, a page of HBM3E. -/
def openable : State :=
  let x := reelAt 2 0
  let s := mapped (begun (mrkD 0 7)) 1
  let m : Mem := { near := memStore [] (keysFrom 0 64) (leBytes 64 x), hbm := s.dp.mem.hbm }
  ({ s with dp := { s.dp with mem := m } } : State).setObj (objKey 0 kReelTable) (2 ^ 21)

theorem witness_open_first_frame : findReel openable.dp 0 0 = none ∧
    came ((reelRecord (openable.opEnv (begun (mrkD 0 7))) 0).run {}) = true ∧
    -- a table in near store is there at once; one in host memory (virtual page 3) is read over ZelugLink
    (∀ w ∈ [(1, false), (3, true)],
      let t := openable.setObj (objKey 0 kReelTable) (w.1 * 2 ^ 21)
      let r : Except Nat Nat × Eff := (reelRecord (t.opEnv (begun (mrkD 0 7))) 0).run {}
      (waitsForHost (begun (mrkD 0 7)) r.2).isSome = w.2) := by decide +kernel

/-- PSH and POP of one row of sixteen FP32 elements at virtual page 1 in frame 7. -/
def pshD (opc : Nat) : Nat := hdr0 opc + 7 * 2 ^ 296 + 16 * 2 ^ 248 + 2 ^ 224 + 64 * 2 ^ 192 + 2 ^ 21 * 2 ^ 128
def entry7 : ReelEntry := { rows := 1, elems := 16, fmt := 0, full := 0, len := 64 }
def frame7 (st : FrameSt) (es : List ReelEntry) (away : Bool) : ReelFrame :=
  { tag := 7, rank := 0, st := st, entries := es, blocks := if es = [] then [] else [{ slot := 0, spilled := away }] }
/-- A frame that fills the area and the spill area. -/
def frame8 : ReelFrame :=
  { tag := 8, rank := 1, blocks := (List.range 4).map (fun i => { slot := i }) ++ (List.range 4).map (fun i => { slot := i, spilled := true }) }

/-- How work of a reel engine ended: its status, and `none` where it came to its end. -/
def reelEnd {α : Type} (r : Except Nat α × ReelSt) : Option Nat :=
  match r.1 with
  | .ok _ => none
  | .error c => some c

/-- How the push of `entry7` ends with given frames, and how the reading of frame 7's top entry does. -/
def pushEnd (fs : List ReelFrame) : Option Nat :=
  let s := withReel (pshD opPSH) fs
  match findReel s.dp 0 0 with
  | some r => reelEnd (reelWork s.dp r (pushEntry (s.opEnv (begun (pshD opPSH))) 7 entry7 (List.replicate 64 0)))
  | none => some 1
def popEnd (page : Nat) (f : ReelFrame) (fs : List ReelFrame) : Option Nat :=
  let s := withReelAt (reelAt page 1) (pshD opPOP) (f :: fs)
  match findReel s.dp 0 0 with
  | some r => reelEnd (reelWork s.dp r (topData (s.opEnv (begun (pshD opPOP))) f entry7))
  | none => some 1

/-- A push with room, and one without that begins to wait or waits on; a pop of an entry that agrees, of one that does not, of one whose
block cannot come back yet, and of one whose area is not mapped. -/
theorem witness_PushAndPop : (∀ x ∈ [(opPSH, Form.psh), (opPOP, Form.pop)], formOf (pshD x.1) = some x.2 ∧
      (withReel (pshD x.1) []).op? 0 = some (begun (pshD x.1)) ∧ dryNow (withReel (pshD x.1) []) = false) ∧
    issueOf 0 (pshD opPSH) = true ∧ issueOf 1 (pshD opPOP) = true ∧
    (∀ st ∈ [FrameSt.opened, .closed, .broken, .lost], let s := withReel 0 [frame7 st [] false]
      ((findReel s.dp 0 0).bind (fun r => r.frame 7)) = some (frame7 st [] false)) ∧
    ((findReel (withReel 0 [frame8]).dp 0 0).bind (fun r => r.frame 7)) = none ∧
    (let r : Except Nat (ReelEntry × List Nat) × Eff :=
       (pshPlan ((withReel (pshD opPSH) []).opEnv (begun (pshD opPSH))) (reelDesc (pshD opPSH))).run {}
     came r = true ∧ waitsForHost (begun (pshD opPSH)) r.2 = none) ∧
    pushEnd [frame7 .opened [] false] = none ∧ pushEnd [frame7 .opened [] false, frame8] = some 0 ∧
    (begun (pshD opPSH)).waitSince = none ∧ ({ begun (pshD opPSH) with waitSince := some 0 } : Op).waitSince.isSome = true ∧
    popEnd 1 (frame7 .opened [entry7] false) [] = none ∧ popEnd 1 (frame7 .opened [entry7] true) [frame8] = some 0 ∧
    (popEnd 9 (frame7 .opened [entry7] false) []).any (fun c => c != 0) = true ∧
    popAgrees (reelDesc (pshD opPOP)) entry7 = true ∧ popAgrees (reelDesc (pshD opPOP)) { entry7 with elems := 15 } = false ∧
    came ((popPlan ((withReel (pshD opPOP) []).opEnv (begun (pshD opPOP))) (reelDesc (pshD opPOP)) entry7 (List.replicate 64 0)).run {}) = true ∧
    (withReel (pshD opPSH) []).expired 0 ((withReel (pshD opPSH) []).obj kReelWaitLimitUs * 1000) = true ∧
    (∀ es ∈ [[], [entry7]], ({ ctx := 0, bay := 0, frames := [frame7 .opened (entry7 :: es) false] } : Reel).frame 7 =
      some (frame7 .opened (entry7 :: es) false)) := by decide +kernel

/-- Frame 7 with three blocks in the area, and with one that the partner holds. -/
def threeHere : ReelFrame := { tag := 7, rank := 0, blocks := (List.range 3).map (fun i => { slot := i }) }
def oneAway (crc : Nat) : ReelFrame := { tag := 7, rank := 0, blocks := [{ slot := 0, spilled := true, crc := crc, away := [0] }] }
def reelOf (spill : Nat) (f : ReelFrame) : Option Reel := findReel (withReelAt (reelAt 1 spill) 0 [f]).dp 0 0

/-- Three resident blocks of four are above 60 %, and the last goes out, to the partner or to host memory, unless there is no partner; one
block away and none in the area are below it, and it comes back. -/
theorem witness_ReelSpillsAndFetches : (∀ m ∈ [1, 2], (reelOf m threeHere).any (fun r => r.spills && !r.fetches &&
      r.victim true [] == some (7, 0) && r.block? 7 0 == some { slot := 0 } && r.freeSpill == some 0) = true) ∧
    (reelOf 2 threeHere).any (fun r => r.victim false [] == none) = true ∧
    (reelOf 2 (oneAway 0)).any (fun r => !r.spills && r.fetches && r.nextFetch == some (7, 0) && r.freeSlot == some 0) = true ∧
    crc64 [0] ≠ 0 ∧ crc64 [0] = (oneAway (crc64 [0])).blocks.head!.crc ∧
    came ((wr ((withReelAt (reelAt 1 2) 0 []).env 0) (2 ^ 21 + 2 ^ 20) [0]).run {}) = true := by decide +kernel

/-! ## Witnesses: collectives. Group 3, epoch 7, of one pair: this device is member 0 and its primary manager. -/

def roster3 : Roster :=
  { group := 3, epoch := 7, size := 2, member := 0, role := 1, primary := 0, token := 1, standin := 0, incoming := false
    lines := [{ member := 0, addr0 := 16, addr1 := 17, referee := none, incoming := false }] }

/-- A broadcast or reduction of `n` FP32 elements in group 3. -/
def collD (opc n : Nat) : Nat := hdr0 opc + 0x83 * 2 ^ 40 + 7 * 2 ^ 928 + 3 * 2 ^ 912 + n * 2 ^ 856 + 2 ^ 21 * 2 ^ 128
def allD (n : Nat) : Nat := collD opRDO n + 2 ^ 716 + 2 ^ 21 * 2 ^ 192

def collOp (x : Nat) (ph : Phase) : Op := { op0 x ph with queue := 0x83 }

def inGroup (o : Op) (cs : List Coll) : State :=
  ({ withOp o with groups := [{ roster := roster3 }], colls := cs } : State).setObj kSouneAddr 16

/-- A packet of ticket 5 of group 3. -/
def pktOf (kind epoch level src : Nat) (data : List Nat) : Packet :=
  { hdr := ({ dst := 16, src := src, kind := kind, group := 3, epoch := epoch, ticket := 5, level := level } : Hdr).word
    pre := 127, data := data, crc := packetCrc 127 data }

theorem witness_CollectiveWork : (∀ w ∈ [(opBCS, Form.bcs, collD opBCS 0), (opRDO, .rdo, collD opRDO 0), (opRDO, .rdoAll, allD 0)],
      formOf w.2.2 = some w.2.1 ∧ (inGroup (collOp w.2.2 .started) []).op? 0 = some (collOp w.2.2 .started) ∧
      dryNow (inGroup (collOp w.2.2 .started) []) = false) ∧
    (∀ ph ∈ [0, 1, 2, 3], (inGroup (collOp (collD opBCS 0) .started) [{ op := 0, desc := collD opBCS 0, phase := ph }]).coll? 0 =
      some { op := 0, desc := collD opBCS 0, phase := ph }) ∧
    (∀ n ∈ [0, 1], let c : Coll := { op := 0, desc := collD opBCS n, phase := 2 }
      (collEnv (inGroup (collOp c.desc .started) [c]) c).any (fun E => E.d.count == n) = true) ∧
    (let c : Coll := { op := 0, desc := collD opBCS 1, phase := 2, moved := true, written := [0] }
     (collEnv (inGroup (collOp c.desc .started) [c]) c).any (fun E => collFinished E c) = true) ∧
    (let c : Coll := { op := 0, desc := collD opRDO 1, phase := 2, moved := true, lost := [(0, 0x0404)] }
     (collEnv (inGroup (collOp c.desc .started) [c]) c).any (fun E => collFinished E c) = true) ∧
    -- a source in host memory (virtual page 3) is read over ZelugLink
    (∀ w ∈ [(1, false), (3, true)],
      let o := collOp (collD opBCS 1) .started
      let t := { inGroup o [{ op := 0, desc := collD opBCS 1, phase := 2 }] with dp := (mapped o 1).dp }
      (collEnv t { op := 0, desc := collD opBCS 1, phase := 2 }).any (fun E =>
        (waitsForHost o ((sources t { E with d := { E.d with src := w.1 * 2 ^ 21 } }).run {} : Except Nat (List (List Nat)) × Eff).2).isSome == w.2) = true) := by
  decide +kernel

/-- Host memory is read and written in transfers of at most 4 KiB, none across a boundary of 4 KiB, whose `LEN` counts the 16-byte units
that they touch (R462). -/
theorem test_transfers : transfers 4090 4110 = [(4090, 6), (4096, 4096), (8192, 8)] ∧ transferLen (4090, 6) = 1 ∧
    transferLen (4096, 4096) = 0 ∧ transferLen (15, 2) = 2 := by decide +kernel

theorem witness_StalePackets : (inGroup (collOp (collD opBCS 1) .started) []).off = false ∧
    epochOk (inGroup (collOp (collD opBCS 1) .started) []) (pktOf 0 8 0 17 []).hdr = false ∧
    epochOk (inGroup (collOp (collD opBCS 1) .started) []) (pktOf 0 7 0 17 []).hdr = true := by decide +kernel

/-- A collective that holds ticket 5 with the given PRIOR and waits to start. -/
def waiting (prior : Nat) : State :=
  inGroup (collOp (collD opBCS 1) .placed) [{ op := 0, desc := collD opBCS 1, ticket := some 5, prior := prior }]

theorem witness_TicketRules : (findGroup (waiting 0) 3).isSome = true ∧ isPrimary (waiting 0) { roster := roster3 } = true ∧
    isPrimary ((waiting 0).setObj kSouneAddr 17) { roster := roster3 } = false ∧ (waiting 0).twin.st ≠ 2 ∧
    pGroup (pktOf 8 7 0 17 [1, 0, 0, 0]).hdr = 3 ∧
    ((waiting 0).mgr.given.find? (fun x => x.1 == 3 && x.2.1 == 7 && x.2.2.1 == 1)) = none ∧
    (({ waiting 0 with mgr := { next := 1, given := [(3, 7, 1, 0)] } } : State).mgr.given.find?
      (fun x => x.1 == 3 && x.2.1 == 7 && x.2.2.1 == 1)).isSome = true ∧
    (waiting 0).op? 0 = some (collOp (collD opBCS 1) .placed) ∧ isColl opBCS = true ∧ (waiting 0).coll? 0 =
      some { op := 0, desc := collD opBCS 1, ticket := some 5, prior := 0 } ∧
    roster3.epoch = (collDesc (collD opBCS 1)).epoch ∧ (waiting 0).startedOf roster3 = 0 ∧ (waiting 1).startedOf roster3 < 1 ∧
    (waiting 0).skipped.all (fun x => x.1 != startedKey roster3) = true ∧
    -- a ticket that is asked for, one that a collective holds, and one that came too late
    (inGroup (collOp (collD opBCS 1) .placed) [{ op := 0, desc := collD opBCS 1 }]).colls.any (fun c => asks c 3 7 0) = true ∧
    (waiting 0).colls.any (fun c => asks c 3 7 0) = false ∧ (waiting 0).colls.any (fun c => c.ticket == some 5) = true ∧
    (let s : State := { inGroup (collOp (collD opBCS 1) .placed) [] with late := [askKey 3 7 0] }
     s.late.contains (askKey 3 7 0) = true ∧ s.late.contains (askKey 3 7 1) = false ∧ s.colls.any (fun c => c.ticket == some 5) = false) := by
  decide +kernel

/-- A collective of ticket 5 that waits for GO (1) or moves its data (2). -/
def going (ph : Nat) : Coll := { op := 0, desc := collD opBCS 1, ticket := some 5, phase := ph }
def goingS (ph : Nat) : State := inGroup (collOp (collD opBCS 1) .started) [going ph]

theorem witness_JoinGoAndAbort : (∀ lv ∈ [0, 1], (packetColl (goingS 1) (pktOf 1 7 lv 17 []).hdr).any (fun p => p.1.phase == 1) = true) ∧
    pLevel (pktOf 1 7 1 17 []).hdr = 1 ∧ pLevel (pktOf 1 7 0 17 []).hdr = 0 ∧
    ((((List.range (setCount 2)).filter (fun j => addrIs roster3 (goingS 1).self (256 * j))).flatMap (setMembers 2)).find?
      (fun m => addrIs roster3 (pSrc (pktOf 0 7 0 17 [0, 0, 0]).hdr) m &&
        !(goingS 1).joins.any (fun j => j.ticket == 5 && j.level == 0 && j.member == m))) = some 1 ∧
    packetColl (goingS 2) (pktOf 1 7 0 17 []).hdr ≠ none ∧ packetColl (inGroup (collOp (collD opBCS 1) .started) []) (pktOf 1 7 0 17 []).hdr = none ∧
    -- the senders of level 1 are the sets' collectors, and a JOIN that was taken is not taken again
    (((List.range (setCount 2)).map (256 * ·)).find? (fun m => addrIs roster3 (pSrc (pktOf 0 7 1 16 []).hdr) m)) = some 0 ∧
    (let s : State := { goingS 1 with joins := [{ ticket := 5, level := 0, member := 1, sig := [], code := 0, differ := false }] }
     ((((List.range (setCount 2)).filter (fun j => addrIs roster3 s.self (256 * j))).flatMap (setMembers 2)).find?
       (fun m => addrIs roster3 (pSrc (pktOf 0 7 0 17 []).hdr) m &&
         !s.joins.any (fun j => j.ticket == 5 && j.level == 0 && j.member == m))) = none) ∧
    (goingS 1).late.contains 5 = false ∧ ({ goingS 1 with late := [5] } : State).late.contains 5 = true ∧ (goingS 1).coll? 0 = some (going 1) ∧ (goingS 2).coll? 0 = some (going 2) ∧
    (inGroup (collOp (collD opBCS 1) .placed) [{ op := 0, desc := collD opBCS 1 }]).coll? 0 = some { op := 0, desc := collD opBCS 1 } ∧
    (goingS 2).op? 0 = some (collOp (collD opBCS 1) .started) ∧
    (goingS 2).expired (goingS 2).time ((goingS 2).obj kCollTimeoutUs * 1000) = false ∧ (findGroup (goingS 2) 3).isSome = true ∧
    (let s := { (goingS 2).setObj kCollTimeoutUs 10000 with dp := { ((goingS 2).setObj kCollTimeoutUs 10000).dp with time := 10000000 } }
     s.expired 0 (s.obj kCollTimeoutUs * 1000) = true) ∧
    (collDesc (collD opBCS 1)).timeoutUs = 0 := by decide +kernel

/-- A GO lets the collective of its ticket move (R499). -/
theorem test_go : ∃ t, exec (.collGo (pktOf 1 7 0 17 [])) (goingS 1) = .next t ∧ (t.coll? 0).map (·.phase) = some 2 :=
  ⟨_, rfl, by decide +kernel⟩

theorem witness_ChunkRules :
    (let s := goingS 2
     let p := pktOf 3 7 7 17 [1, 2, 3, 4]
     (packetColl s p.hdr).any (fun q => chunkSource s q.2 q.1 p.hdr == some 17) = true ∧ packetCrc p.pre p.data = p.crc ∧
     packetCrc p.pre [1, 2, 3, 5] ≠ p.crc ∧ pLevel p.hdr = 7 ∧ (going 2).again.contains (7, 7, 17) = false ∧
     ({ going 2 with again := [(7, 7, 17)] } : Coll).again.contains (7, 7, 17) = true) ∧
    (packetColl (goingS 1) (pktOf 3 7 7 17 []).hdr).any (fun q => q.1.phase == 1 && chunkSource (goingS 1) q.2 q.1 (pktOf 3 7 7 17 []).hdr == some 17) = true ∧
    (goingS 1).coll? (going 1).op = some (going 1) ∧
    (let s := inGroup (collOp (collD opRDO 1) .started) [{ going 2 with desc := collD opRDO 1, seen := [(0, 0, 1)] }]
     (packetColl s (pktOf 6 7 0 17 []).hdr).any (fun q => chunkSource s q.2 q.1 (pktOf 6 7 0 17 []).hdr == none) = true) ∧
    -- an acknowledgement of no chunk of this device, and one in a group that has gone
    ((goingS 2).colls.find? (fun c => c.sent.any (fun x => x.dst == 17))) = none ∧
    collEnv { goingS 2 with groups := [] } (going 2) = none ∧
    (let s := inGroup (collOp (collD opBCS 1) .started) [{ going 2 with seen := [(0, 7, 17)] }]
     (packetColl s (pktOf 3 7 7 17 []).hdr).any (fun q => chunkSource s q.2 q.1 (pktOf 3 7 7 17 []).hdr == none) = true) ∧
    (let s := inGroup (collOp (collD opRDO 1) .started) [{ going 2 with desc := collD opRDO 1 }]
     (packetColl s (pktOf 3 7 0 17 []).hdr).any (fun q => chunkSource s q.2 q.1 (pktOf 3 7 0 17 []).hdr == some 1) = true) ∧
    (let x : CollSent := { dst := 17, chunk := 0, level := 7, scale := 127, bytes := [1], port := 0 }
     let s := inGroup (collOp (collD opBCS 1) .started) [{ going 2 with sent := [x] }]
     let h := (pktOf 4 7 7 17 []).hdr
     ((s.colls.filter (fun c => epochOk s h && c.ticket == some (pTicket h))).findSome? (fun c =>
        c.sent.find? (fun x => x.dst == pSrc h && x.chunk == pChunk h && x.level == pLevel h))) = some x ∧
     ((s.colls.filter (fun c => epochOk s h && c.ticket == some (pTicket h))).find? (fun c =>
        c.sent.any (fun x => x.dst == pSrc h && x.chunk == pChunk h && x.level == pLevel h))).any
          (fun c => (collEnv s c).isSome) = true) := by decide +kernel

theorem witness_RemoteSignalRules : (let s := goingS 1; epochOk s (pktOf 13 7 0 17 []).hdr = true ∧
      s.ctxs.any (fun p => p.2.st == .active && sigOwned p.2.record 15) = true ∧
      s.ctxs.any (fun p => p.2.st == .active && sigOwned p.2.record 16) = false) ∧
    leNat (([15, 0, 1, 0, 0, 0, 0, 0, 0, 0] : List Nat).take 2) = 15 := by decide +kernel

/-! ## Witnesses: ingest. The auxiliary block lies at the start of virtual page 1, the list 256 bytes after it. -/

/-- One list entry: key 9, 16 bytes at 0x12000 of the page, one frame of 64 × 64. -/
def listEntry : Nat := 9 * 2 ^ 448 + (2 ^ 21 + 0x12000) * 2 ^ 384 + 16 * 2 ^ 352 + 2 ^ 304 + 64 * 2 ^ 272 + 64 * 2 ^ 256
/-- One stream: its ring at 0x14000 of the page with 16 slots, BT.709, video range, 64 × 64. -/
def liveEntry0 : Nat := (2 ^ 21 + 0x14000) * 2 ^ 456 + 4 * 2 ^ 448 + 2 * 2 ^ 444 + 2 ^ 442 + 64 * 2 ^ 416 + 64 * 2 ^ 400 + 64 * 2 ^ 368

def ingD (live : Nat) : Nat :=
  hdr0 opING + 2 ^ 904 + 2 ^ 888 + (if live = 0 then 2 ^ 872 + (2 ^ 21 + 256) * 2 ^ 128 else 0) + 2 ^ 867 + 16 * 2 ^ 862 +
    16 * 2 ^ 857 + live * 2 ^ 841 + 768 * 2 ^ 820 + (if live = 1 then 3 * 2 ^ 804 else 0) + 2 ^ 21 * 2 ^ 512 + (2 ^ 21 + 0x11000) * 2 ^ 448 +
    (2 ^ 21 + 0x10200) * 2 ^ 384 + (2 ^ 21 + 0x10100) * 2 ^ 320 + (2 ^ 21 + 0x10000) * 2 ^ 256 + (2 ^ 21 + 0x1000) * 2 ^ 192

/-- A started ING with its auxiliary block and list in memory, in a context whose group 3 lives here. -/
def ingS (live : Nat) : State :=
  let s := inGroup (begun (ingD live)) []
  let aux := if live = 0 then 0 else 2 ^ 720 + (2 ^ 21 + 256) * 2 ^ 640
  let l := if live = 0 then listEntry else liveEntry0
  { s with dp := { s.dp with mem := { tables0 with
      near := memStore (memStore [] (keysFrom 0 128) (leBytes 128 aux)) (keysFrom 256 64) (leBytes 64 l) } } }

def ingOf (s : State) (o : Op) : Option (IngEnv × Eff) :=
  match ingChecked s o with
  | (.ok I, e) => some (I, e)
  | (.error _, _) => none

theorem witness_IngBatchesFromLists : formOf (ingD 0) = some .ing ∧ (ingS 0).op? 0 = some (begun (ingD 0)) ∧ ingJob? (ingS 0) 0 = none ∧
    came (ingChecked (withOp (begun (ingD 0))) (begun (ingD 0))) = false ∧
    ((ingOf (ingS 0) (begun (ingD 0))).any (fun p => came ((chooseAll (ingS 0) ((ingS 0).opEnv (begun (ingD 0))) (begun (ingD 0)) p.1
      ((List.range p.1.list.length).zip p.1.list) []).run p.2)) = true) ∧
    (ingJob? { ingS 0 with ing := [{ op := 0 }] } 0).isSome = true ∧ dryNow (ingS 0) = false := by decide +kernel

/-- The sample of the list entry while its decode runs, on the device or on the host with its ring at 0x14000 of the page. -/
def decoding (host : Bool) : IngSample :=
  { entry := listEntry, begun := listEntry, st := 1, origin := (0, 0), ring := if host then 2 ^ 21 + 0x14000 else 0, ringLog2 := 4
    frameAddr := 2 ^ 21 + 0x18000 }
def decS (host : Bool) (times : List Nat) : State :=
  { ingS 0 with ing := [{ op := 0, samples := [decoding host] }], ingTimes := [(0, times)] }

/-- As `decS true`, with a result word in the ring. -/
def resS (word : Nat) : State :=
  let s := decS true []
  { s with dp := { s.dp with mem := { s.dp.mem with near := memStore s.dp.mem.near (keysFrom (0x14000 + 64) 4) (leBytes 4 word) } } }

/-- Whether a working came to its end with a value. -/
def endedWith {α : Type} [DecidableEq α] (r : Except Nat α × Eff) (a : α) : Bool :=
  match r.1 with
  | .ok b => decide (b = a)
  | .error _ => false

theorem eq_of_ended {α : Type} [DecidableEq α] {r : Except Nat α × Eff} {a : α} (h : endedWith r a = true) : r = (.ok a, r.2) := by
  rcases r with ⟨_ | b, e⟩
  · simp [endedWith] at h
  · simp [endedWith] at h; rw [h]

theorem witness_IngDecodes : findDecode (decS false []) 0 0 false = some (some (begun (ingD 0)), 0, decoding false) ∧
    findDecode (decS true []) 0 0 true = some (some (begun (ingD 0)), 0, decoding true) ∧
    came ((clipPlan ((decS false []).env 0) (decoding false)).run {}) = true ∧
    came ((clipPlan ((decS false []).env 0) { decoding false with begun := listEntry + 2 ^ 414 }).run {}) = false ∧
    (∀ w ∈ [(0, false), (2 ^ 31, true)], ∃ ps r, ((hostResult ((resS w.1).env 0) (decoding true)).run {} :
      Except Nat (Option (List Config.Picture)) × Eff) = (.ok ps, r) ∧ ps.isSome = w.2) ∧
    ((ingJob? (decS false []) 0).bind (fun j => j.samples.find? (fun x => x.origin == (0, 0) && x.st == 1 && !x.carried))) =
      some (decoding false) ∧
    (ingDesc (ingD 0)).strict = false ∧ (timesOf (decS false (List.replicate 15 1)) 0).length < 16 ∧
    (let s := decS false (List.replicate 16 1)
     16 ≤ (timesOf s 0).length ∧
     s.expired 0 (s.obj kIngDeferFactor * median (timesOf s 0) * lumaOf (ingEntry listEntry) / 1000) = true) := by
  refine ⟨by decide +kernel, by decide +kernel, by decide +kernel, by decide +kernel, ?_, by decide +kernel⟩
  intro w hw
  simp only [List.mem_cons, List.not_mem_nil, or_false] at hw
  rcases hw with rfl | rfl
  · exact ⟨_, _, eq_of_ended (a := none) (by decide +kernel), rfl⟩
  · exact ⟨_, _, eq_of_ended (a := some []) (by decide +kernel), rfl⟩

theorem witness_LiveBatches : formOf (ingD 1) = some .ingAligned ∧ formOf (ingD 2) = some .ingStamped ∧
    (∀ v ∈ [1, 2], (ingS v).op? 0 = some (begun (ingD v)) ∧ dryNow (ingS v) = false ∧ (ingOf (ingS v) (begun (ingD v))).isSome = true) ∧
    ((ingOf (ingS 1) (begun (ingD 1))).any (fun p => !allMet (ingS 1) (begun (ingD 1)) p.1 &&
      came ((livePlan ((ingS 1).opEnv (begun (ingD 1))) p.1 true (alignT (ingS 1) p.1)).run p.2) &&
      allMet { ingS 1 with ing := [{ op := 0, met := [0] }] } (begun (ingD 1)) p.1 &&
      (ingS 1).expired (alignT (ingS 1) p.1) ((ingS 1).obj kLiveAlignWaitNs)) = true) ∧
    ((ingOf (ingS 2) (begun (ingD 2))).any (fun p => came ((livePlan ((ingS 2).opEnv (begun (ingD 2))) p.1 false 0).run p.2)) = true) := by
  decide +kernel

/-! ## Witnesses: prefetch. Schedule 4 lies at the start of virtual page 1: entries of 16 bytes from 0x100 to 0x200 of the page. -/

def pftD (cancel : Bool) (entries window addr : Nat) : Nat :=
  hdr0 opPFT + 4 * 2 ^ 232 + (if cancel then 2 ^ 228 else 0) + window * 2 ^ 224 + 2 ^ 208 + entries * 2 ^ 192 + addr * 2 ^ 128

def pftOp (x : Nat) : Op := { begun x with queue := 0x80 }
def entry16 : Nat := (2 ^ 21 + 0x100) * 2 ^ 192 + (2 ^ 21 + 0x200) * 2 ^ 128 + 16 * 2 ^ 96
def pftS (x : Nat) : State :=
  let s := withOp (pftOp x)
  { s with dp := { s.dp with mem := { tables0 with near := memStore [] (keysFrom 0 32) (leBytes 32 entry16) } } }

def sched4 (fl : List (Nat × SchedEntry)) (cur : Option SchedEntry) (started : Bool) : Sched :=
  { op := 0, ctx := 0, id := 4, addr := 2 ^ 21, entries := 1, rep := 1, window := 1, cur := cur, started := started, inflight := fl }
def withSched (x : Sched) : State := { pftS (pftD false 1 1 (2 ^ 21)) with scheds := [x] }

/-- Op 1, a RUN or CANCEL of schedule 4, behind op 0, a RUN of schedule `k` whose schedule runs or not. -/
def pftAt1 (cancel : Bool) : Op := { pftOp (if cancel then pftD true 0 0 0 else pftD false 1 1 (2 ^ 21)) with id := 1 }
def behind (cancel : Bool) (k : Nat) (runs : Bool) : State :=
  { pftS 0 with ops := [pftOp (pftD false 1 1 (2 ^ 21) + (k - 4) * 2 ^ 232), pftAt1 cancel], nextOp := 2
                scheds := if runs then [{ sched4 [] none false with id := k }] else [] }

theorem witness_PrefetchRules :
    (let x := pftD false 1 1 (2 ^ 21)
     Started (pftS x) 0 (pftOp x) .pftRun ∧ pftReservedOk x = true ∧ aligned (2 ^ 21) 32 = true ∧ earlierRuns (pftS x) (pftOp x) = [] ∧
     endedWith ((rdRec ((pftS x).env 0) (2 ^ 21) 32).run {}) entry16 = true ∧ schedEntryOk entry16 = true) ∧
    (let x := pftD false 1 1 (2 ^ 21) + 2 ^ 240
     Started (pftS x) 0 (pftOp x) .pftRun ∧ pftReservedOk x = false) ∧
    (∀ x ∈ [pftD false 1 1 (2 ^ 21 + 16), pftD false 0 1 (2 ^ 21), pftD false 1 0 (2 ^ 21)], formOf x = some .pftRun ∧ pftReservedOk x = true ∧
      (aligned (pftDesc x).addr 32 = false ∨ (pftDesc x).window = 0 ∨ (pftDesc x).entries = 0)) ∧
    (let x := pftD true 0 0 0
     Started (pftS x) 0 (pftOp x) .pftCancel ∧ pftReservedOk x = true ∧ earlierRuns (pftS x) (pftOp x) = []) ∧
    -- behind RUNs of the same and of another schedule, of which a schedule runs or none does
    (∀ k ∈ [4, 5], (earlierRuns (behind false k false) (pftAt1 false)).map (fun p => (pftDesc p.desc).id) = [k] ∧
      (behind false k false).op? 1 = some (pftAt1 false) ∧ (behind true k false).op? 1 = some (pftAt1 true)) ∧
    (earlierRuns (behind false 5 false) (pftAt1 false)).any (fun p => !(behind false 5 false).scheds.any (fun x => x.op == p.id)) = true ∧
    (earlierRuns (behind false 5 true) (pftAt1 false)).all (fun p => (behind false 5 true).scheds.any (fun x => x.op == p.id)) = true ∧
    (∀ r ∈ [true, false], ((earlierRuns (behind true 4 r) (pftAt1 true)).find? (fun p => (pftDesc p.desc).id == 4)).any (fun p =>
      ((behind true 4 r).scheds.find? (fun x => x.op == p.id)).isSome == r) = true) ∧
    (let e := schedEntry entry16
     gateMet (withSched (sched4 [] (some e) true)) (sched4 [] (some e) true) = true ∧
     gateMet (withSched (sched4 [] (some e) false)) (sched4 [] (some e) false) = false ∧
     (withSched (sched4 [(0, e)] none true)).sched? 0 4 = some (sched4 [(0, e)] none true) ∧
     (schedCopy (withSched (sched4 [(0, e)] none true)) (sched4 [(0, e)] none true) e).2 = 0 ∧
     copyWaits (withSched (sched4 [(0, e)] none true)) (sched4 [(0, e)] none true) 0 = false ∧
     fillWindow (sched4 [] none true) = sched4 [] none true) ∧
    (let o : Op := { placed (hdr0 opMMA) with heldSince := some 9000000 }
     let s := withOp o
     s.op? 0 = some o ∧ s.expired 9000000 (s.obj kPftHoldLimitUs * 1000) = false ∧
     s.expired 0 (s.obj kPftHoldLimitUs * 1000) = true) := by
  refine ⟨⟨started_of (by decide +kernel), by decide +kernel⟩, ⟨started_of (by decide +kernel), by decide +kernel⟩, by decide +kernel,
    ⟨started_of (by decide +kernel), by decide +kernel⟩, by decide +kernel, by decide +kernel, by decide +kernel, by decide +kernel,
    by decide +kernel, by decide +kernel⟩

/-! ## Witnesses: links -/

/-- A device with one outstanding read of port 0, for op 0. -/
def reading (o : Op) : State := { withOp o with zlReads := [{ port := 0, tag := 3, op := 0, part := 0, since := 9950000 }] }

theorem witness_HostReadRules : findRead (reading (placed (hdr0 opMMA))) 0 3 = some { port := 0, tag := 3, op := 0, part := 0, since := 9950000 } ∧
    findRead (reading (placed (hdr0 opMMA))) 0 4 = none ∧ findRead (reading (placed (hdr0 opMMA))) 1 3 = none ∧
    (reading (placed (hdr0 opMMA))).op? 0 = some (placed (hdr0 opMMA)) ∧
    (reading (pftOp (pftD false 1 1 (2 ^ 21)))).coll? 0 = none ∧ (goingS 2).coll? 0 ≠ none ∧
    ((formOf (pftD false 1 1 (2 ^ 21))).bind (opPlan (reading (pftOp (pftD false 1 1 (2 ^ 21)))) (pftOp (pftD false 1 1 (2 ^ 21))))).isNone = true ∧
    (let s := reading (placed (hdr0 opMMA)); s.expired 9950000 (s.obj kZlCplTimeoutUs * 1000) = false) ∧
    (let s := reading (placed (hdr0 opMMA))
     let t : State := { s with dp := { s.dp with time := s.obj kZlCplTimeoutUs * 1000 + 9950000 } }
     t.expired 9950000 (t.obj kZlCplTimeoutUs * 1000) = true) := by decide +kernel

/-- The state with one port of each kind in a state, at a time. -/
def ports (x y : Port) (now : Nat) : State :=
  { up with zl := [x, {}], soune := y :: List.replicate 35 {}, dp := { up.dp with time := now } }

def portIn (st : Nat) : Port := { st := st }

/-- A control area with sequence number `n` and its check over `data`. -/
def ctl (zl : Bool) (n ftype data : Nat) : Nat := ctlWord zl { seq := n, ack := 0, nak := false, ftype := ftype, cls := 0, crdClass := 0, crdCount := 0 } data

theorem crcBit_lt (w poly n c : Nat) (hp : poly < 2 ^ w) (hc : c < 2 ^ w) : crcBit poly n c < 2 ^ w := by
  induction n generalizing c with
  | zero => exact hc
  | succ n ih =>
    refine ih _ ?_
    split
    · exact Nat.xor_lt_two_pow (by omega) hp
    · omega

theorem crcReflected_lt (w poly : Nat) (bs : List Nat) (hp : poly < 2 ^ w) (hw : 2 ^ 8 ≤ 2 ^ w) : crcReflected w poly bs < 2 ^ w := by
  have h : ∀ (l : List Nat) (c : Nat), c < 2 ^ w → l.foldl (fun c b => crcBit poly 8 (c ^^^ (b % 256))) c < 2 ^ w := by
    intro l
    induction l with
    | nil => exact fun c hc => hc
    | cons b l ih =>
      refine fun c hc => ih _ (crcBit_lt w poly 8 _ hp (Nat.xor_lt_two_pow hc ?_))
      have : b % 256 < 2 ^ 8 := Nat.mod_lt _ (by decide)
      omega
  exact Nat.xor_lt_two_pow (h bs _ (by omega)) (by omega)

theorem frameCrc_true (w data : Nat) : frameCrc true w data = crc64 (leBytes 256 data ++ leBytes 24 (w >>> 64)) := by
  unfold frameCrc; exact if_pos rfl

theorem frameCrc_false (w data : Nat) : frameCrc false w data = crc32c (leBytes 512 data ++ leBytes 12 (w >>> 32)) := by
  unfold frameCrc; exact if_neg Bool.false_ne_true

theorem ctlOk_made (zl : Bool) (w data : Nat) (hw : w % 2 ^ (if zl then 64 else 89) = 0) : ctlOk zl (w + frameCrc zl w data) data = true := by
  cases zl
  · obtain ⟨k, hk⟩ : ∃ k, k = frameCrc false w data := ⟨_, rfl⟩
    have hc : k < 2 ^ 32 := by rw [hk, frameCrc_false]; unfold crc32c; exact crcReflected_lt 32 _ _ (by decide) (by decide)
    rw [← hk]
    have hw : w % 2 ^ 89 = 0 := hw
    have hs : (w + k) >>> 32 = w >>> 32 := by simp only [Nat.shiftRight_eq_div_pow]; omega
    have he : frameCrc false (w + k) data = k := by rw [frameCrc_false, hs, hk, frameCrc_false]
    simp only [ctlOk, Bool.false_eq_true, if_false, Bool.and_eq_true, beq_iff_eq, he]
    exact ⟨by omega, by simp only [bits, Nat.shiftRight_eq_div_pow]; omega⟩
  · obtain ⟨k, hk⟩ : ∃ k, k = frameCrc true w data := ⟨_, rfl⟩
    have hc : k < 2 ^ 64 := by rw [hk, frameCrc_true]; unfold crc64; exact crcReflected_lt 64 _ _ (by decide) (by decide)
    rw [← hk]
    have hw : w % 2 ^ 64 = 0 := hw
    have hs : (w + k) >>> 64 = w >>> 64 := by simp only [Nat.shiftRight_eq_div_pow]; omega
    have he : frameCrc true (w + k) data = k := by rw [frameCrc_true, hs, hk, frameCrc_true]
    simp only [ctlOk, if_true, beq_iff_eq, he]
    omega

/-- A control area made with its check agrees with it. -/
theorem ctlOk_ctlWord (zl : Bool) (c : FrameCtl) (data : Nat) : ctlOk zl (ctlWord zl c data) data = true := by
  refine ctlOk_made zl _ data ?_
  cases zl
  · simp only [Bool.false_eq_true, if_false]; omega
  · simp only [if_true]; omega

theorem witness_ReceivedFrames : (∀ zl ∈ [true, false],
      portActive zl ((ports (portIn 4) (portIn 2) 0).port zl 0) = true ∧ portActive zl ((ports (portIn 6) (portIn 3) 0).port zl 0) = false ∧
      ((ports (portIn 4) (portIn 2) 0).port zl 0).nextIn = 0 ∧ (ctlOf zl (2 ^ 246 + 2 ^ 116)).seq ≠ 0 ∧ (ctlOf zl (3 * 2 ^ 233 + 3 * 2 ^ 101)).ftype = 3) ∧
    ctlOk true (ctl true 0 0 7) 7 = true ∧ ctlOk false (ctl false 0 0 7) 7 = true :=
  ⟨by decide +kernel, ctlOk_ctlWord _ _ _, ctlOk_ctlWord _ _ _⟩

theorem witness_ZelugLinkPorts : zlTrains (ports (portIn 0) (portIn 0) 0) = true ∧ inLoop (ports (portIn 0) (portIn 0) 0) 64 = false ∧
    (∀ st ∈ [0, 1, 2, 3, 4, 5, 6, 7], ((ports (portIn st) {} 0).port true 0).st = st) ∧ (portIn 3).lanes ≤ 16 ∧
    (ports {} {} 12000000).expired 0 12000000 = true ∧ (ports {} {} 24000000).expired 0 24000000 = true ∧
    (ports {} {} 2000000).expired 0 2000000 = true ∧ (ports {} {} 32000000).expired 0 32000000 = true ∧
    (ports {} {} 1000000).expired 0 1000000 = true ∧ (ports {} {} 999999).expired 0 1000000 = false := by decide +kernel

theorem witness_SounePorts : souneTrains (ports {} (portIn 0) 0) = true ∧ inLoop (ports {} (portIn 0) 0) 0 = false ∧
    (∀ st ∈ [0, 1, 2, 3, 4, 5], ((ports {} (portIn st) 0).port false 0).st = st) ∧
    (ports {} {} 10000000).expired 0 10000000 = true ∧ (ports {} {} 100000000).expired 0 100000000 = true ∧
    (ports {} {} 1000000000).expired 0 1000000000 = true ∧
    (let x : Port := { st := 2, naked := true }; (ports {} x 0).port false 0 = x) ∧
    portActive false ((ports {} (portIn 2) 0).port false 0) = true ∧ portActive false ((ports {} (portIn 3) 0).port false 0) = false ∧
    -- a frame that is lost leaves the port ACTIVE; the fourth replay of a frame does not
    portActive false ((receiveFrame (ports {} (portIn 2) 0) false 0 0 0 true).1.port false 0) = true ∧
    (let x : Port := { st := 2, buf := [(0, 0, 0)], replayed := some (0, 3) }
     portActive false ((replay (ports {} x 0) false 0).port false 0) = false ∧ x.buf ≠ []) ∧
    (let s := ports {} (portIn 3) 0
     inLoop { s with boot := { s.boot with loops := [(0, 9)] } } 0 = true ∧ (s.port false 0).buf = [] ∧ (s.port false 0).wait = []) ∧
    (ports {} (portIn 4) 0).expired 0 1000000000 = false ∧ (∀ n ∈ [2, 3], ({ st := 4, downs := n } : Port).downs = n) := by decide +kernel

/-! ## Witnesses: serving -/

/-- Context 0 serves; a tick is open or not, or waits at its commit. -/
def servingS (t : Option Tick) (commit : Option Nat) : State :=
  { act0 with serve := [(0, { record := 1, tick := t, commitAt := commit })] }

/-- A context that serves with a PREEMPTED stream of one page, whose map entry a started ATT reads. -/
def resuming (reads : Bool) : State :=
  let r := 2 ^ 21 * 2 ^ 848 + 2 ^ 808 + 2 ^ 416
  let v : Serve := { record := r, models := [2 ^ 248], hbm := { extra := [2 ^ 22 + 65536, 2 ^ 22 + 131072] } }
  let x : Stream := { st := stPreempted, alloc := 1 }
  let att := hdr0 opATT + 2 ^ 752 + 2 ^ 743 + 2 ^ 738 + 64 * 2 ^ 728 + 64 * 2 ^ 718 + 2 ^ 712 + (2 ^ 22 + 256) * 2 ^ 448 + (2 ^ 22 + 512) * 2 ^ 384
  let s := mapped (begun att) 1
  let m := memStore (memStore s.dp.mem.hbm (tierKeys s.dp 1 (2 ^ 21 + 256) 128) (leBytes 128 (2 ^ 21 * 2 ^ 704))) (tierKeys s.dp 1 (2 ^ 21 + 512) 32)
    (leBytes 32 (if reads then 2 ^ 96 else 0))
  { s with serve := [(0, v)], seq := [(0, x)], dp := { s.dp with mem := { s.dp.mem with hbm := m } } }

theorem witness_BuildWaits : isServing (resuming true) 0 = true ∧ ((resuming true).srv 0).tick.isSome = false ∧
    devWaits (buildTick 0 (bits 0 31 0)) (noteTickDb (resuming true) 0 0) = true ∧
    devWaits (buildTick 0 (bits 0 31 0)) (noteTickDb (servingS none none) 0 0) = false := by decide +kernel

theorem witness_TickDoorbellRules : isServing (servingS none none) 0 = true ∧ isServing act0 0 = false ∧
    ((servingS none none).srv 0).tick.isSome = false ∧ ((servingS (some {}) none).srv 0).tick.isSome = true ∧
    ((servingS (some {}) none).srv 0).commitAt = none ∧ ((servingS (some {}) (some 0)).srv 0).commitAt ≠ none ∧
    (bits 1 63 62 = 0 ∧ bits (2 ^ 62) 63 62 = 1 ∧ bits (2 ^ 63) 63 62 = 2 ∧ bits (2 ^ 63 + 2 ^ 62) 63 62 = 3) ∧
    (bits (2 ^ 32) 61 32 ≠ 0 ∧ bits (2 ^ 62 + 2 ^ 61) 61 32 ≠ 0 ∧ bits (2 ^ 62 + 1) 31 0 ≠ 0) ∧
    (let s := servingS (some {}) none
     let s1 := noteTickDb s 0 (2 ^ 62)
     let s2 := s1.setSrv 0 { s1.srv 0 with commitAt := some s.time }
     let s3 := runFor 0 (sendRows 0 []) s2
     s.twin.st ≠ 2 ∧ (s3.srv 0).commitAt.isSome = true ∧ (s3.srv 0).acks = []) := by decide +kernel

/-! ## Witnesses: the object dictionary -/

/-- Session 7 is OPEN, and its operator holds the critical right. -/
def sess7 (opened : Bool) : Session := { id := 7, operator := 2, opened := opened, keys := List.replicate 64 0 }
def managed (opened : Bool) : State := { up with mgmt := { sessions := [sess7 opened], operators := [(2, true)] } }

def staged (i : Instr) : List Staged := ((writesOf i).map (·.2)).getD []

theorem witness_WritesAreTransactions : (writesOf (.cacheFlush 1)).isSome = true ∧ up.off = false ∧
    mgmtUp up = true ∧ safePoint up = true ∧ mgmtUp State.reset = false ∧ safePoint (servingS (some {}) (some 0)) = false ∧
    (∃ w ∈ staged (.cacheFlush 2), checkWrite up 0 false w ≠ 0) ∧
    (∀ w ∈ staged (.cacheFlush 1), checkWrite up 0 false w = 0) ∧ (applyWrites 0 (staged (.cacheFlush 1)) up).2 = none ∧
    (∀ w ∈ staged (.cacheFlush 1), setFails (applyWrites 0 (staged (.cacheFlush 1)) up).1 w = false) ∧
    (∀ w ∈ staged (.twinWindowWrite 2 228801), checkWrite up 0 false w = 0) ∧ (applyWrites 0 (staged (.twinWindowWrite 2 228801)) up).2 = none ∧
    (∃ w ∈ staged (.twinWindowWrite 2 228801), setFails (applyWrites 0 (staged (.twinWindowWrite 2 228801)) up).1 w = true) := by decide +kernel

/-- Context 0 is in a state, its record lies at host address 0, and HBM3E pages 0 to 19 form a region. -/
def ctxCmdS (st : CtxSt) (os : List Op) : State :=
  let s : State := { managed true with zl := [portIn 4, {}], ctxs := [(0, { st := st, record := rec0 })], ops := os
                                       dp := { up.dp with mem := { host := memStore [] (keysFrom 0 128) (leBytes 128 rec0) } } }
  (s.setObj kHbmRegion (2 ^ 63 + 2 ^ 28)).setObj kHostWinPages 1

theorem witness_ContextCommandRules : (∀ st ∈ [CtxSt.free, .active, .teardown, .faulted],
      let s := ctxCmdS st []
      s.off = false ∧ mgmtUp s = true ∧ safePoint s = true ∧ mayCritical s 7 = true ∧ s.mgmt.locks.contains kCtxCmd = false ∧
      (s.ctx (s.obj kCtxSel)).st = st) ∧
    createOk (ctxCmdS .free []) = true ∧ ctxRecord (ctxCmdS .free []) 0 = some rec0 ∧ ctxRecord (ctxCmdS .faulted []) 0 = some rec0 ∧
    sigOwned rec0 0 = true ∧ sigOwned rec0 15 = true ∧ sigOwned rec0 16 = false ∧
    (ctxCmdS .active []).inflight 0 = [] ∧ (ctxCmdS .active [begun (hdr0 opMMA)]).inflight 0 ≠ [] := by decide +kernel

theorem test_create : ∃ t, exec (.ctxCreate 7) (ctxCmdS .free []) = .next t ∧ (t.ctx 0).st = .active ∧ (t.ctx 0).record = rec0 :=
  ⟨_, rfl, by decide +kernel, by decide +kernel⟩

/-- A reset that is due at 5 ns. -/
def due (now : Nat) : State := { up with boot := { up.boot with resetDue := some (3, 5) }, dp := { up.dp with time := now } }

theorem witness_CommandedResets : (let s := managed true
      s.off = false ∧ mgmtUp s = true ∧ safePoint s = true ∧ mayCritical s 7 = true ∧ s.mgmt.locks.contains kResetCmd = false ∧
      s.anyCtx = false) ∧
    (due 3).pending = [] ∧ (due 3).dp.hwDue = none ∧ (due 3).time + 1 < 5 ∧ 5 ≤ (due 4).time + 1 := by decide +kernel

/-! ## Witnesses: QOP -/

/-- Bytes of a frame without its MAC: command, whether it has one, session, transaction, counter and body. -/
def frameOf (cmd : Nat) (mac : Bool) (sess txn ctr : Nat) (body : List Nat) : List Nat :=
  leBytes 32 (2 ^ 248 + cmd * 2 ^ 240 + b2n mac * 2 ^ 233 + sess * 2 ^ 216 + body.length * 2 ^ 184 + txn * 2 ^ 120 + ctr * 2 ^ 56) ++ body

theorem serves_of {s : State} {f : Frame} (h : (!s.off && mgmtUp s && isMailboxReq s f && !s.mgmt.txns.any (fun t => t.commit.isSome) &&
    safePoint s) = true) : ServesFrame s f := by
  simp only [Bool.and_eq_true, Bool.not_eq_true'] at h
  exact ⟨h.1.1.1.1, h.1.1.1.2, h.1.1.2, h.1.2, h.2⟩

/-- A mailbox frame without a session passes. -/
theorem passes_mailbox {s : State} {f : Frame} (h : (!s.off && mgmtUp s && isMailboxReq s f && !s.mgmt.txns.any (fun t => t.commit.isSome) &&
    safePoint s && !malformed f && (reqOf f).sess == 0 && !f.net) = true) : Passes s f (touchTxn s (reqOf f)) (reqOf f) := by
  rw [Bool.and_eq_true, Bool.and_eq_true, Bool.and_eq_true] at h
  obtain ⟨⟨⟨h1, h2⟩, h3⟩, h4⟩ := h
  refine ⟨serves_of h1, by simpa using h2, rfl, rfl, rfl, rfl, fun k => ?_⟩
  have hs : (reqOf f).sess = 0 := by simpa using h3
  have hn : (reqOf f).net = false := by simpa [reqOf] using h4
  unfold inSession
  simp [hs, hn]

/-- A frame of a PENDING session that the exchange allows passes. -/
theorem passes_pending {s : State} {f : Frame} {x : Session} (h : (!s.off && mgmtUp s && isMailboxReq s f &&
    !s.mgmt.txns.any (fun t => t.commit.isSome) && safePoint s && !malformed f && (reqOf f).sess != 0 &&
    session? (touchTxn s (reqOf f)) (reqOf f).sess == some x && !x.opened && freeRequest (reqOf f)) = true) :
    Passes s f (setSession (touchTxn s (reqOf f)) x) (reqOf f) := by
  rw [Bool.and_eq_true, Bool.and_eq_true, Bool.and_eq_true, Bool.and_eq_true, Bool.and_eq_true] at h
  obtain ⟨⟨⟨⟨⟨h1, h2⟩, h3⟩, h4⟩, h5⟩, h6⟩ := h
  refine ⟨serves_of h1, by simpa using h2, rfl, rfl, rfl, rfl, fun k => ?_⟩
  have hs : (reqOf f).sess ≠ 0 := by simpa using h3
  have hx : session? (touchTxn s (reqOf f)) (reqOf f).sess = some x := by simpa using h4
  have ho : x.opened = false := by simpa using h5
  unfold inSession
  simp [hs, hx, ho, h6]

/-- A frame with the MAC of its bytes under a key of zeros. -/
def sealed (cmd sess ctr : Nat) : Frame :=
  { net := true, bytes := frameOf cmd true sess 0 ctr [] ++ macOf (List.replicate 32 0) (frameOf cmd true sess 0 ctr []) }

theorem sealed_take (cmd sess ctr : Nat) : (sealed cmd sess ctr).bytes.take 32 = frameOf cmd true sess 0 ctr [] :=
  List.take_left' (by simp [frameOf, length_leBytes])

theorem sealed_drop (cmd sess ctr : Nat) : (sealed cmd sess ctr).bytes.drop 32 = macOf (List.replicate 32 0) (frameOf cmd true sess 0 ctr []) :=
  List.drop_left' (by simp [frameOf, length_leBytes])

/-- A READ of session 7 with counter 1 whose MAC is right; with other keys it is wrong. -/
theorem witness_QopFrameChecks :
    (qopFrame (.qopRead (sealed 1 7 1))).isSome = true ∧ ServesFrame (managed true) (sealed 1 7 1) ∧
    (∀ f ∈ [(⟨true, []⟩ : Frame), ⟨true, frameOf 1 false 0 0 0 []⟩], malformed f = (f.bytes.isEmpty)) ∧
    (let f : Frame := ⟨true, frameOf 3 false 0 0 0 []⟩
     malformed f = false ∧ (reqOf f).sess = 0 ∧ f.net = true ∧ freeRequest (reqOf f) = false) ∧
    session? up 7 = none ∧ session? (managed true) 7 = some (sess7 true) ∧ session? (managed false) 7 = some (sess7 false) ∧
    (let f : Frame := ⟨true, frameOf 3 false 7 0 0 []⟩
     malformed f = false ∧ (reqOf f).sess = 7 ∧ freeRequest (reqOf f) = false ∧
     macOf ((sess7 true).keys.take 32) (f.bytes.take 32) ≠ f.bytes.drop 32) ∧
    macOf ((sess7 true).keys.take 32) ((sealed 3 7 0).bytes.take 32) = (sealed 3 7 0).bytes.drop 32 ∧
    (frameHdr (sealed 3 7 0) = frameHdr ⟨true, frameOf 3 true 7 0 0 []⟩ ∧ qMacEn (frameHdr ⟨true, frameOf 3 true 7 0 0 []⟩) = true ∧
      qCounter (frameHdr ⟨true, frameOf 3 true 7 0 0 []⟩) ≤ (sess7 true).inCtr) ∧
    (sealed 3 7 0).bytes.length = 48 := by
  refine ⟨rfl, serves_of (by decide +kernel), by decide +kernel, by decide +kernel, rfl, by decide +kernel, by decide +kernel, by decide +kernel,
    ?_, ⟨?_, by decide +kernel, by decide +kernel⟩, by decide +kernel⟩
  · rw [sealed_take, sealed_drop]; rfl
  · unfold frameHdr; rw [sealed_take]; simp only [frameOf, List.append_nil]; decide +kernel

/-- A mailbox request without a session as the request in service, beside open transactions. -/
def asked (cmd txn : Nat) (body : List Nat) (ts : List Txn) : State × Frame :=
  let f : Frame := ⟨false, frameOf cmd false 0 txn 0 body⟩
  ({ up with mbx := { cur := f.bytes, busy := true }, mgmt := { txns := ts } }, f)

theorem asked_passes (cmd txn : Nat) (body : List Nat) (ts : List Txn) (h : (ts.any (fun t => t.commit.isSome)) = false)
    (hm : malformed (asked cmd txn body ts).2 = false) (hs : (reqOf (asked cmd txn body ts).2).sess = 0) :
    Passes (asked cmd txn body ts).1 (asked cmd txn body ts).2 (touchTxn (asked cmd txn body ts).1 (reqOf (asked cmd txn body ts).2))
      (reqOf (asked cmd txn body ts).2) := by
  refine passes_mailbox ?_
  have h1 : (!(asked cmd txn body ts).1.off && mgmtUp (asked cmd txn body ts).1) = true := rfl
  have h2 : isMailboxReq (asked cmd txn body ts).1 (asked cmd txn body ts).2 = true := by simp [isMailboxReq, asked]
  have h3 : safePoint (asked cmd txn body ts).1 = true := by rfl
  have h4 : (asked cmd txn body ts).1.mgmt.txns = ts := rfl
  have h5 : (asked cmd txn body ts).2.net = false := rfl
  rw [h1, h2, h3, h4, h, hm, hs, h5]; rfl

/-- Transaction 1 of the mailbox. -/
def txn1 : Txn := { id := 1, sess := 0 }

/-- READ of sub-index 1 of an index; WRITE of 1 to 0x3010:05. -/
def readBody (index : Nat) : List Nat := leBytes 2 index ++ [1, 0, 0, 0, 0, 0, 64, 0, 0, 0]
def writeBody : List Nat := [0x10, 0x30, 5, 0, 0, 0, 0, 0, 1]

theorem witness_QopReadsAndTransactions :
    (∀ p ∈ [(1, 0, readBody 0x3010, []), (1, 0, readBody 0xFFFF, []), (2, 0, writeBody, []), (2, 1, writeBody, [txn1]), (3, 0, [], []),
        (3, 0, [], [txn1]), (4, 1, [], [txn1]), (5, 1, [], [txn1]), (9, 0, List.replicate 10 1, []), (10, 0, List.replicate 32 1, []),
        (16, 0, [], []), (0, 0, [], []), (11, 0, [], []), (255, 0, [], []), (6, 0, List.replicate 1314 1, []), (8, 0, [], [])],
      malformed (asked p.1 p.2.1 p.2.2.1 p.2.2.2).2 = false ∧ (reqOf (asked p.1 p.2.1 p.2.2.1 p.2.2.2).2).sess = 0 ∧
      (reqOf (asked p.1 p.2.1 p.2.2.1 p.2.2.2).2).cmd = p.1 ∧ (reqOf (asked p.1 p.2.1 p.2.2.1 p.2.2.2).2).body = p.2.2.1 ∧
      (reqOf (asked p.1 p.2.1 p.2.2.1 p.2.2.2).2).txn = p.2.1 ∧ p.2.2.2.any (fun t => t.commit.isSome) = false) ∧
    (match readObj up 0 0x3010 1 0 64 4000 with | .ok _ => true | .error _ => false) = true ∧
    (match readObj up 0 0xFFFF 1 0 64 4000 with | .ok _ => true | .error _ => false) = false ∧
    (let s := (asked 2 1 writeBody [txn1]).1
     let w : Staged := { index := 0x3010, sub := 5, bytes := [1] }
     checkWrite s 0 false w = 0 ∧ counterIgnored w = false ∧ (txnOf s { net := false, cmd := 2, sess := 0, txn := 1, reqId := 0 }).isSome = true) ∧
    up.mgmt.lastTxn + 1 < 2 ^ 32 := by decide +kernel

theorem witness_mailbox_requests_pass : ∃ u q, Passes (asked 3 0 [] []).1 (asked 3 0 [] []).2 u q ∧ q.cmd = 3 ∧ q.body = [] :=
  ⟨_, _, asked_passes 3 0 [] [] (by decide) (by decide +kernel) (by decide +kernel), by decide +kernel, by decide +kernel⟩

theorem witness_TransactionEnds : (let r : Req := { net := false, cmd := 4, sess := 0, txn := 1, reqId := 0 }
     let t : Txn := { txn1 with commit := some r }
     ({ up with mgmt := { txns := [t] } } : State).mgmt.txns.find? (fun t => t.id == 1) = some t ∧
     safePoint { up with mgmt := { txns := [t] } } = true ∧ (applyTxn up 0 (staged (.cacheFlush 1))).2.1 = 0 ∧
     (applyTxn up 0 (staged (.twinWindowWrite 2 228801))).2.1 = 0x0807 ∧
     (applyTxn up 0 (staged (.twinWindowWrite 2 228801))).2.2.isSome = true ∧
     safePoint { servingS (some {}) (some 0) with mgmt := { txns := [t] } } = false) ∧
    txn1.commit = none ∧ up.expired 0 5000000000 = false ∧
    ({ up with dp := { up.dp with time := 5000000000 } } : State).expired 0 5000000000 = true := by decide +kernel

/-- KEYX of session 7. -/
def keyx7 : Frame := ⟨true, frameOf 7 false 7 0 0 []⟩

theorem witness_SessionRules : (∃ u q, Passes (managed false) keyx7 u q ∧ q.cmd = 7 ∧ q.body = [] ∧ session? u q.sess = some (sess7 false)) ∧
    up.mgmt.sessions.length < 8 ∧ 8 ≤ (List.replicate 8 (sess7 false)).length ∧ session? (managed true) 7 = some (sess7 true) ∧
    (∀ o ∈ [true, false], let s : State := { managed o with dp := { up.dp with time := 10 ^ 15 } }
      s.off = false ∧ session? s 7 = some (sess7 o) ∧ s.expired 0 10000000000 = true ∧ s.expired 0 (s.obj kSessionIdleS * 1000000000) = true) ∧
    ({ managed false with mgmt := { (managed false).mgmt with operators := [] } } : State).mgmt.operators.any (fun o => o.1 == 2) = false :=
  ⟨⟨_, _, passes_pending (x := sess7 false) (by decide +kernel), by decide +kernel, by decide +kernel, by decide +kernel⟩, by decide +kernel,
    by decide +kernel, by decide +kernel, by decide +kernel, by decide +kernel⟩

/-- An entry that waits, and one kept. -/
def entryAt (n : Nat) : LogEntry := { seq := n, time := 0, ev := { source := 0xA000, code := 0x0F01, sev := 1 }, chain := List.replicate 32 0 }

theorem witness_LogAndAttestation : (let l : Log := { sram := [entryAt 2], flash := [entryAt 1], nextSeq := 3 }
     l.sram = entryAt 2 :: [] ∧ l.dropFrom = 0 ∧ l.flash ≠ [] ∧ l.flash.length < 65536) ∧
    (entryTail (entryAt 2)).length = 96 := by decide +kernel

theorem witness_MemoryHousekeeping : up.off = false ∧ (kvGet {} up.dp.tg 0).running = false ∧
    (kvGet {} ({ up.dp with tg := [(319, { running := true })] } : Dp).tg 319).running = true ∧
    0 * 32 < Config.stackCount * Config.stackBytes ∧ scrubSkips up.dp 0 = false ∧
    scrubSkips { up.dp with cache := [⟨0, 1, 1, false, 0, 0, [], 0⟩] } 0 = true ∧ kvGet 0 up.dp.ftl.reads 0 < up.obj kFtlRdLimit ∧
    up.obj kFtlRdLimit ≤ kvGet 0 ({ up.dp.ftl with reads := [(0, up.obj kFtlRdLimit)] } : Ftl).reads 0 ∧
    kvGet 0 up.dp.ftl.erases 1 ≤ kvGet 0 up.dp.ftl.erases 0 + up.obj kFtlWearSpread ∧
    (let f : Ftl := { erases := [(1, up.obj kFtlWearSpread + 1)] }; kvGet 0 f.erases 0 + up.obj kFtlWearSpread < kvGet 0 f.erases 1) := by
  decide +kernel

/-! ## Witnesses: faults, signals, start-up, the twin, groups -/

def fenced : State := { up with twin := { st := 5 } }

theorem witness_HardwareFaultsFence : up.off = false ∧ up.twin.st ≠ 5 ∧ fenced.twin.st = 5 ∧ up.dp.log.sram.length < 1024 ∧
    (withOp (begun (hdr0 opMMA))).op? 0 = some (begun (hdr0 opMMA)) := by decide +kernel

/-- 5 µs is the boundary of R606. -/
theorem test_rail_fault : (∃ t, exec (.railFault 128 5000) up = .next t ∧ t.fault = 7) ∧ (∃ t, exec (.railFault 128 4999) up = .next t ∧ t.fault = 0) :=
  ⟨⟨_, rfl, by decide +kernel⟩, ⟨_, rfl, by decide +kernel⟩⟩

/-- Sensor 0 at a temperature in sixteenths of a degree. -/
def warm (x : Int) : State := { up with temps := [(0, x)] }

theorem witness_SensorRules : mgmtUp up = true ∧ kvGet 0 up.temps 0 < ((16 * warnLimit up 0 : Nat) : Int) ∧
    atTrip up 0 ((16 * warnLimit up 0 : Nat) : Int) = false ∧ atTrip up 0 (16 * 200) = true ∧
    atTrip (warm (16 * 200)) 0 (kvGet 0 (warm (16 * 200)).temps 0) = true ∧ up.pins.trips = [] ∧ comparator up = false ∧
    comparator { up with temps := [(389, 80 * 16 + 1)] } = true := by decide +kernel

theorem witness_ControlSignals : up.pins.pwrEn = true ∧ up.pins.regs = true ∧ up.pins.pwrGood = true ∧
    (let p : Pins := { pwrGood := false }; p.regs = true ∧ p.modRst = true ∧ ({ p with modRst := false } : Pins).modRst = false) ∧
    ({ up with off := true } : State).off = true ∧ (42000 ≤ 42000 ∧ 47999 < 48000 ∧ 41999 < 42000 ∧ 50000 ≤ 50000 ∧ 57000 < 57001) ∧
    (let p : Pins := { tripAt := some 0 }; p.tripAt = some 0 ∧ 0 + 500000000 ≤ 500000000 ∧ 499999999 < 0 + 500000000) := by decide +kernel

theorem test_trip_timeout : (∃ t, exec .thermTripTimeout { up with pins := { tripAt := some 0 }, dp := { up.dp with time := 500000000 } } = .next t ∧
    t.off = true) ∧ (∃ t, exec .thermTripTimeout { up with pins := { tripAt := some 0 }, dp := { up.dp with time := 499999999 } } = .next t ∧
    t.off = false) := ⟨⟨_, rfl, by decide +kernel⟩, ⟨_, rfl, by decide +kernel⟩⟩

theorem witness_TimebaseAndNetwork : mgmtUp up = true ∧ up.ptp.locked = false ∧ ({ st := 2, locked := true } : Ptp).st ≠ 0 ∧
    (10 : Int).natAbs ≤ 10 ∧ 10 < (11 : Int).natAbs ∧ up.ptp.st ≠ 2 := by decide +kernel

/-- Bay 0 under test, busy, or with its port in loopback until 9 ns. -/
theorem witness_PowerAndDiagnostics : bayBusy up 0 = false ∧ bayBusy (withOp (begun (hdr0 opMMA))) 0 = true ∧
    (let s : State := { up with pwr := { up.pwr with bays := [(0, { busy := true, ceiling := 5 })] } }
     (bayPwr s 0).busy = true ∧ 5 ≤ (bayPwr s 0).ceiling ∧ (bayPwr s 0).ceiling < 6 ∧ (bayPwr s 0).above = false) ∧
    (let s : State := { up with pwr := { up.pwr with bays := [(0, { busy := true, ceiling := 5, above := true })] } }
     (bayPwr s 0).above = true) ∧
    ({ up.boot with testing := some 0 } : Boot).testing = some 0 ∧
    (let s : State := { up with boot := { up.boot with loops := [(0, 9)] } }
     s.boot.loops.find? (fun l => l.1 == 0) = some (0, 9) ∧ s.soune.length = 36 ∧ s.time < 9 ∧
     9 ≤ ({ s with dp := { s.dp with time := 9 } } : State).time) := by decide +kernel

/-- A device with the given stages completed. -/
def stages (l : List Nat) : State := { State.reset with boot := { done := l } }

def offer0 (ok : Bool) : PairOffer := { id := Config.deviceId.toNat + 1, addr := 17, sigOk := ok, state := 1, pages := 0 }

theorem witness_accepted_offer : pairRefused (offer0 true) = false := by simp [pairRefused, offer0]

/-- A device that is ready to pair, one whose partner was refused 100 ms ago, and one that is ready to report. -/
def pairing (at_ : Option Nat) : State :=
  { stages [1, 2, 3, 4, 5, 6, 7] with
    boot := { done := [1, 2, 3, 4, 5, 6, 7], refusedAt := at_ }
    soune := List.replicate 32 {} ++ List.replicate 4 (portIn 2)
    dp := { State.reset.dp with time := 100000000 } }
def joining (at_ : Option Nat) : State :=
  let s : State := { stages [1, 2, 3, 4, 5, 6, 7, 8] with
    boot := { done := [1, 2, 3, 4, 5, 6, 7, 8], reportAt := at_ }, dp := { State.reset.dp with time := 1000000000 } }
  s.setObj kLeafMgrAddr 9

theorem witness_StartUpStages : stageReady (stages []) 1 [] = true ∧ (chooseSlot (stages []).fw (fun _ => true)).2 = true ∧
    stageReady (stages [1]) 2 [1] = true ∧ stageReady (stages [1, 2]) 3 [2] = true ∧ isWarm (stages [1, 2]) = false ∧
    stageReady (stages [1, 2, 3]) 4 [3] = true ∧ stageReady (stages [1, 2]) 5 [2] = true ∧ stageReady (stages [1, 2]) 6 [2] = true ∧
    ([⟨0, [], 0, true⟩] : List ChanTest).find? (·.stillFails) = some ⟨0, [], 0, true⟩ ∧
    (let s : State := { stages [1, 2] with zl := [portIn 4, {}] }; portUp s 0 = true ∧ s.boot.done.contains 7 = false) := by decide +kernel

theorem witness_PairingAndJoining : pairReady (pairing none) = true ∧ pairRefused (offer0 false) = true ∧
    (pairing (some 0)).expired 0 100000000 = true ∧ (joining none).obj kLeafMgrAddr ≠ 0 ∧ stageReady (joining none) 9 [8] = true ∧
    (joining (some 0)).expired 0 1000000000 = true ∧ (joining (some 0)).boot.done.contains 9 = false := by decide +kernel

/-- A paired device at pair epoch 4. -/
def twinned (t : Twin) : State := { up with twin := { t with epoch := 4, paired := true } }
def tetherPkt (epoch : Nat) (data : List Nat) : Packet :=
  { hdr := ({ dst := 0, src := 0, kind := 0, epoch := epoch } : Hdr).word, pre := 0, data := data, crc := 0 }

theorem witness_TwinRules : (twinned { st := 2, beat := true }).off = false ∧ (twinned { st := 2 }).obj kTetherHbSent < 2 ^ 64 ∧
    (twinned { st := 2, missed := 1 }).twin.beat = false ∧ (twinned { st := 2 }).obj kTetherHbLimit ≠ 0 ∧
    (let s := twinned { st := 2, probeAt := some 0 }
     s.expired 0 (s.obj kTwinProbeUs * 1000) = false ∧
     ({ s with dp := { s.dp with time := 10 ^ 9 } } : State).expired 0 (s.obj kTwinProbeUs * 1000) = true) ∧
    pEpoch (tetherPkt 4 []).hdr = 4 ∧ pEpoch (tetherPkt 5 []).hdr ≠ 4 ∧ pChunk (tetherPkt 4 []).hdr = 0 ∧
    (streamOf (leNat ((([0, 0, 0, 0] ++ leBytes 128 (streamWord up 0 2)).drop 4).take 128))).st = 2 ∧
    ((twinned { st := 2 }).stream 0).st = 0 ∧ (twinned { st := 2 }).mgr.waiting = [] ∧
    (let s : State := { twinned { st := 2 } with serve := [(0, { commitAt := some 0, acks := [(0, 0)] })] }
     (s.srv 0).acks = [(pTicket (tetherPkt 4 []).hdr, 0)] ∧ s.serve.map (·.1) = [0]) ∧
    (let s : State := { twinned { st := 2 } with serve := [(0, { record := 1 })] }
     s.mgr.waiting = [] ∧ s.dp.hwDue = none ∧ (∀ x ∈ s.serve, x.2.commitAt = none ∧ (poolOf s x.1 .mirror).free = 0)) := by decide +kernel

/-- This device as a member of group 3 with a role, forming or not. -/
def grouped (role st : Nat) (forming : Option Roster) (acks : List Nat) : State :=
  { up with twin := { st := 2, paired := true }, groups := [{ roster := { roster3 with role := role }, st := st, forming := forming, acks := acks }] }

theorem witness_GroupRules : (grouped 4 1 none []).groups.length < 16 ∧ findGroup (grouped 4 1 none []) 4 = none ∧
    (findGroup (grouped 4 1 none []) 3).isSome = true ∧ (∀ n ∈ [0, 1], n < roster3.size) ∧ (grouped 4 1 none []).twin.paired = true ∧
    up.twin.paired = false ∧ (7 ≤ roster3.epoch ∧ roster3.epoch < 8) ∧
    (let s := grouped 4 1 (some { roster3 with epoch := 8 }) []
     allAcked s { roster3 with epoch := 8 } [0] = false ∧ allAcked s { roster3 with epoch := 8 } [0, 1] = true ∧
     ({ s with dp := { s.dp with time := 10 ^ 12 } } : State).expired 0 (s.obj kReformPrepareMs * 1000000) = true ∧
     ({ s with dp := { s.dp with time := 10 ^ 12 } } : State).expired 0 (s.obj kTokenLeaseMs * 1000000) = true ∧
     s.expired 0 (s.obj kTokenLeaseMs * 1000000) = false) ∧
    ({ roster3 with lines := roster3.lines.map (fun l => { l with incoming := true }) } : Roster).lines.any
      (fun l => l.incoming && (l.member == 1 || l.member + 1 == 1)) = true ∧
    holdsToken { roster3 with token := 0 } = true := by decide +kernel

end Sys2Proof.Tests
end

section
/-! SUPPORT. The family of 00_scope.md: every command has a next state, and the commands whose effect is the working of an op. -/

namespace Sys2Proof.Proofs.Scope

open Sys2Proof.Machine

/-! ## Every command has a next state -/

/-- The effects under which the commands of the device stand have next states, whatever they do. -/
theorem isDevice_has_next {s : State} {r : Host.Outcome State Fault Refusal} (h : IsDevice s r) : ∃ t, r = .next t := by
  obtain ⟨f, rfl⟩ := h
  exact ⟨_, rfl⟩

/-- A sample has a next state, also one of a sensor that the device does not have (R588). -/
theorem execSensorSample_has_next (n : Nat) (x : Int) (s : State) : ∃ t, execSensorSample n x s = .next t := by
  unfold execSensorSample
  split
  · exact ⟨s, rfl⟩
  · exact ⟨_, rfl⟩

/-- The commands of the signals, the supply and the sensors have next states, in reset too. -/
theorem exec_signal_has_next {i : Instr} (s : State) (h : signalCommand i = true) : ∃ t, exec i s = .next t := by
  unfold signalCommand at h
  split at h
  case h_1 n x => exact execSensorSample_has_next n x s
  case h_12 => exact absurd h Bool.false_ne_true
  all_goals exact ⟨_, rfl⟩

/-- Settles O7: a command is one of the signals' or one of the device's. -/
theorem carriedCommandsContinue : Obligations.CarriedCommandsContinue := by
  intro i s
  cases h : signalCommand i with
  | true => exact exec_signal_has_next s h
  | false => exact isDevice_has_next (exec_device i s h)

/-! ## Ops whose effect is their working -/

/-- The command of an op that works on memories alone does the work of its form. -/
theorem exec_of_workForm {i : Instr} {id : Nat} {f : Form} (s : State) (h : workForm i = some (id, f)) :
    exec i s = live s (onWork f id (runForm f)) := by
  unfold workForm at h
  split at h <;> cases h <;> rfl

theorem runForm_of_opPlan {f : Form} {s : State} {o : Op} {p : Plan Unit} (h : opPlan s o f = some p) :
    runForm f s o = runOp s o p codeOrder := by
  rw [runForm, h]

/-- An op that needs host memory sends its reads (R469). -/
theorem runOp_of_waits {s : State} {o : Op} {p : Plan Unit} {order : List Nat} {ts : List (Nat × Nat)}
    (h : waitsForHost o (runPlan p order).1 = some ts) : runOp s o p order = readOn s o ts := by
  simp only [runOp, h]

/-- An op that needs no host memory, or whose reads have come, is carried out whole (log 13). -/
theorem runOp_of_ready {s : State} {o : Op} {p : Plan Unit} {order : List Nat}
    (h : waitsForHost o (runPlan p order).1 = none) :
    runOp s o p order = settle s o (runPlan p order).1 (runPlan p order).2 := by
  simp only [runOp, h]

/-- A hardware fault in a working comes in place of the op's completion (R537). -/
theorem settle_of_hw {s : State} {o : Op} {e : Eff} {st : Nat} {h : Nat × Nat × Nat} (hw : e.hw = some h) :
    settle s o e st = hwFault (carryOut s o e) h.1 h.2.1 h.2.2 := by
  simp only [settle, hw]

/-- Work whose tokens come some time is done: the counterpart of `live_onWork_starved`. -/
theorem live_onWork_admitted {s : State} {id : Nat} {o : Op} {f : Form} (k : State → Op → State) (h : Started s id o f)
    (hs : starves s.dp (k s o).dp (cPartition (s.ctx o.ctx).record) = false) :
    live s (onWork f id k) = .next (s.inside (k s o)) := by
  rw [onWork, live_onForm _ h, admitted, hs]
  rfl

/-- Settles O20: the command does the work of its form, and the clauses are the branches of `admitted`, `runOp` and `settle`. -/
theorem workingOpsComplete : Obligations.WorkingOpsComplete := by
  intro i s id f o p hi hst hp r dry
  have hrun : runForm f s o = runOp s o p codeOrder := runForm_of_opPlan hp
  rw [exec_of_workForm s hi]
  refine ⟨fun hs => ?_, fun hs => ?_, fun hwk hw hhw hdue hnotes => ?_⟩
  · exact live_onWork_starved _ hst (by rwa [hrun])
  · rw [live_onWork_admitted _ hst (by rwa [hrun]), hrun]
    refine ⟨fun ts hw => ?_, fun hw => ?_, fun hw h hh => ?_⟩
    · rw [runOp_of_waits hw]
    · rw [runOp_of_ready hw]
    · rw [runOp_of_ready hw, settle_of_hw hh]
  · obtain ⟨-, hop, hphase, -⟩ := hst
    refine ⟨_, live_onWork _ hwk, ?_⟩
    rw [hrun, runOp_of_ready hw]
    exact settle_done hop hphase hhw hdue hnotes

end Sys2Proof.Proofs.Scope
end

section
/-! SUPPORT. The family of 02_outer_product_arrays.md: when an op that is placed in its queue starts, and what it takes. -/

namespace Sys2Proof.Proofs.OpStart

open Sys2Proof.Machine

/-! ## What a start does -/

/-- The op as it has started, with its start event given to the schedules (R308). -/
def begun (s : State) (o : Op) (u : Nat) : State :=
  { s.putOp (captured s o u) with scheds := s.scheds.map (startEvent (s.putOp (captured s o u)) o) }

/-- A start changes ops and schedules only. -/
theorem inside_begun (s : State) (o : Op) (u : Nat) : s.inside (begun s o u) = begun s o u :=
  State.inside_eq rfl rfl rfl rfl

theorem startOp_of_form {s : State} {o : Op} {u : Nat} (h : (formOf o.desc).isSome = true) : startOp s o u = begun s o u :=
  if_neg (by rw [← Option.not_isSome, h]; decide)

theorem startOp_of_formless {s : State} {o : Op} {u : Nat} (h : formOf o.desc = none) :
    startOp s o u = finishOp (begun s o u) o.id (formless (begun s o u) o) 0 :=
  if_pos (by rw [h]; rfl)

/-! ## What OP_START does, by what the op waits for -/

/-- A placed op of a device that is not FENCED, without a collective's ticket to wait for. -/
structure MayStart (s : State) (id : Nat) (o : Op) : Prop where
  running : s.off = false
  present : s.op? id = some o
  placed : o.phase = .placed
  notFenced : s.twin.st ≠ 5
  notColl : isColl o.opc = false

/-- What an op other than a fence waits for besides its queue: the ops before it in its stream (R383, R391), a free engine, and for
an MDC the decodes that started INGs have waiting (R401; that they come first is log 88, the model's choice). -/
def EngineWaits (s : State) (o : Op) : Prop :=
  mediaTurn s o = false ∨ engineFree s o.queue = false ∨ o.opc = opMDC ∧ ingAhead s = true

theorem not_engineWaits {s : State} {o : Op} :
    ¬ EngineWaits s o ↔ mediaTurn s o = true ∧ engineFree s o.queue = true ∧ (o.opc = opMDC → ingAhead s = false) := by
  simp [EngineWaits]

/-- An op whose turn in its queue has come (R445) and, unless it is a fence, whose engine does not keep it waiting. -/
structure Ready (s : State) (id : Nat) (o : Op) : Prop extends MayStart s id o where
  turn : queueTurn s o = true
  engine : o.opc ≠ opFNC → ¬ EngineWaits s o

theorem exec_opStart_of_not_turn {s : State} {id : Nat} {o : Op} (m : MayStart s id o) (h : queueTurn s o = false) :
    exec (.opStart id) s = .next s := by
  change execOpStart id s = _
  simp [execOpStart, live_on _ m.running, m.present, h]

theorem exec_opStart_of_engineWaits {s : State} {id : Nat} {o : Op} (m : MayStart s id o) (hf : o.opc ≠ opFNC)
    (h : EngineWaits s o) : exec (.opStart id) s = .next s := by
  change execOpStart id s = _
  rw [EngineWaits] at h
  simp [execOpStart, live_on _ m.running, m.present, hf, h]

theorem exec_opStart_of_no_units {s : State} {id : Nat} {o : Op} (m : MayStart s id o)
    (hu : unitsFor o.desc (busyUnits s o.queue) = none) : exec (.opStart id) s = .next s := by
  change execOpStart id s = _
  simp [execOpStart, live_on _ m.running, m.present, hu]

/-- An op with its units free is held by a schedule (R309), or starts. -/
theorem exec_opStart_of_units {s : State} {id : Nat} {o : Op} {u : Nat} (r : Ready s id o)
    (hu : unitsFor o.desc (busyUnits s o.queue) = some u) :
    exec (.opStart id) s = .next (s.inside (
      if prefetchHeld s o then (if o.heldSince.isSome then s else s.putOp { o with heldSince := some s.time })
      else if o.opc = opFNC then noteFences (startOp s o u)
      else startOp s o u)) := by
  change execOpStart id s = _
  have hp : ¬ (o.phase ≠ .placed ∨ s.twin.st = 5 ∨ isColl o.opc ∨ !queueTurn s o) := by
    simp [r.placed, r.notFenced, r.notColl, r.turn]
  have hn : ¬ (o.opc ≠ opFNC ∧ (!mediaTurn s o ∨ !engineFree s o.queue ∨ (o.opc = opMDC ∧ ingAhead s))) := by
    simpa [EngineWaits] using r.engine
  simp only [execOpStart, live_on _ r.running, r.present, if_neg hp, if_neg hn, hu]

/-- An op that a schedule holds notes when the hold began, once (R309). -/
theorem exec_opStart_of_held {s : State} {id : Nat} {o : Op} {u : Nat} (r : Ready s id o)
    (hu : unitsFor o.desc (busyUnits s o.queue) = some u) (hh : prefetchHeld s o = true) :
    exec (.opStart id) s = .next (if o.heldSince.isSome then s else s.putOp { o with heldSince := some s.time }) := by
  rw [exec_opStart_of_units r hu, if_pos hh]
  split <;> rfl

theorem exec_opStart_of_free {s : State} {id : Nat} {o : Op} {u : Nat} (r : Ready s id o)
    (hu : unitsFor o.desc (busyUnits s o.queue) = some u) (hh : prefetchHeld s o = false) :
    exec (.opStart id) s =
      .next (s.inside (if o.opc = opFNC then noteFences (startOp s o u) else startOp s o u)) := by
  rw [exec_opStart_of_units r hu, if_neg (Bool.not_eq_true _ ▸ hh)]

/-- Settles O14: the clauses are what an op can wait for, in the order in which OP_START asks for it, and then its start. That an MDC
waits behind the decodes of started INGs is the model's choice (log 88). -/
theorem opStartRules : Obligations.OpStartRules := by
  intro s id o hon hop hph htw hc
  have m : MayStart s id o := ⟨hon, hop, hph, htw, hc⟩
  refine ⟨exec_opStart_of_not_turn m, exec_opStart_of_engineWaits m, fun ht he => ?_⟩
  have r : Ready s id o := ⟨m, ht, fun hf => not_engineWaits.mpr (he hf)⟩
  refine ⟨exec_opStart_of_no_units m, fun u hu => ⟨fun hh => ?_, fun hh => ?_⟩⟩
  · rw [exec_opStart_of_held r hu hh]
    exact ⟨fun h => by rw [h]; rfl, fun h => by rw [if_pos h]⟩
  · rw [exec_opStart_of_free r hu hh]
    refine ⟨fun hform hf => ?_, fun hform hf => ?_, fun hform hf => ?_⟩
    · rw [if_neg hf, startOp_of_form hform, inside_begun]
      rfl
    · rw [if_pos hf, startOp_of_form hform]
      rfl
    · rw [if_neg hf, startOp_of_formless hform]
      rfl

end Sys2Proof.Proofs.OpStart
end

section
/-! SUPPORT. The family of 03_special_functions.md: the working of VEC, and the loads of function tables. -/

namespace Sys2Proof.Proofs.SpecialFunctions

open Sys2Proof.Machine
open Sys2Proof.Proofs.Scope

/-! ## VEC -/

/-- A VEC works on the fields that its command carries (log 14). -/
theorem exec_vec_of_works {s : State} {id : Nat} {o : Op} (v : VecFields) (h : Works s id o .vec) :
    exec (.vec id v) s = .next (s.inside (runOp s o (vecPlan (s.opEnv o) v) codeOrder)) :=
  live_onWork _ h

/-- Settles O21: the clauses are the branches of `runOp`. That all reads of host memory are sent before the working is the model's
choice (log 45). -/
theorem vecCompletes : Obligations.VecCompletes := by
  intro s id o v h r
  have ⟨⟨_, hop, hphase, _⟩, _⟩ := h
  rw [exec_vec_of_works v h]
  refine ⟨fun ts hw => ?_, fun hw => ?_, fun hw hhw hdue hnotes => ⟨_, rfl, ?_⟩⟩
  · rw [runOp_of_waits hw]
  · rw [runOp_of_ready hw]
  · rw [runOp_of_ready hw]
    exact settle_done hop hphase hhw hdue (by simp [r, hnotes])

/-! ## What accesses do to the function tables: nothing -/

/-- Work on the data path that is done in parts keeps the tables when each part does. -/
theorem foldl_tables {α : Type} {f : Dp → α → Dp} (h : ∀ d a, (f d a).tables = d.tables) (l : List α) (d : Dp) :
    (l.foldl f d).tables = d.tables := by
  induction l generalizing d with
  | nil => rfl
  | cons a l ih => rw [List.foldl_cons, ih, h]

@[simp] theorem objSet_tables (d : Dp) (k v : Nat) : (objSet d k v).tables = d.tables := rfl

@[simp] theorem bump_tables (d : Dp) (k n : Nat) : (bump d k n).tables = d.tables := by
  unfold bump; split <;> rfl

@[simp] theorem bumps_tables (d : Dp) (l : List (Nat × Nat)) : (bumps d l).tables = d.tables :=
  foldl_tables (fun _ _ => bump_tables _ _ _) l d

@[simp] theorem logEvent_tables (d : Dp) (e : Event) : (logEvent d e).tables = d.tables := by
  unfold logEvent; split <;> simp

@[simp] theorem noteHw_tables (d : Dp) (c s x : Nat) : (noteHw d c s x).tables = d.tables := by
  unfold noteHw; split <;> rfl

@[simp] theorem poisonSector_tables (d : Dp) (sec : Nat) : (poisonSector d sec).tables = d.tables := by
  unfold poisonSector; split
  · rfl
  · split <;> simp

@[simp] theorem parityErrors_tables (d : Dp) (sec n : Nat) : (parityErrors d sec n).tables = d.tables := by
  unfold parityErrors; simp only []; split <;> simp

@[simp] theorem writeErrors_tables (d : Dp) (sec : Nat) : (writeErrors d sec).tables = d.tables := by
  unfold writeErrors; simp only []; split <;> simp

@[simp] theorem countRow_tables (d : Dp) (sec : Nat) : (countRow d sec).tables = d.tables := by
  unfold countRow; simp only []; split <;> simp

@[simp] theorem sectorErrors_tables (ctx : Nat) (d : Dp) (sec : Nat) : (sectorErrors ctx d sec).tables = d.tables := by
  unfold sectorErrors errorAt; simp only []; split <;> simp

@[simp] theorem takeTokens_tables (d : Dp) (part stack n : Nat) : (takeTokens d part stack n).tables = d.tables := by
  unfold takeTokens; simp only []; split
  · simp
  · split
    · simp
    · split <;> simp

@[simp] theorem writeBack_tables (d : Dp) (l : CacheLine) : (writeBack d l).tables = d.tables := by
  unfold writeBack
  rw [foldl_tables (fun _ _ => writeErrors_tables _ _), takeTokens_tables]

@[simp] theorem dropLine_tables (d : Dp) (l : CacheLine) : (dropLine d l).tables = d.tables := by
  unfold dropLine; simp only []
  rw [foldl_tables (f := fun d s => reveal d l s) (fun _ _ => rfl)]
  split <;> simp

@[simp] theorem cachePut_tables (d : Dp) (l : CacheLine) : (cachePut d l).tables = d.tables := rfl

@[simp] theorem touch_tables (d : Dp) (l : CacheLine) (hint : Nat) : (touch d l hint).tables = d.tables := by
  unfold touch; simp only [cachePut_tables]; split
  · split <;> simp
  · rfl

@[simp] theorem evict_tables (d : Dp) (line : Nat) (keep : Bool) : (evict d line keep).tables = d.tables := by
  unfold evict; split <;> simp

@[simp] theorem allocate_tables (d : Dp) (sec hint part : Nat) : (allocate d sec hint part).tables = d.tables := by
  unfold allocate; simp only []; split
  · simp
  · split <;> simp

@[simp] theorem invalidate_tables (d : Dp) (sec : Nat) : (invalidate d sec).tables = d.tables := by
  unfold invalidate; simp only []; split
  · rfl
  · simp only [cachePut_tables]; split <;> rfl

@[simp] theorem cacheRead_tables (d : Dp) (sec hint part : Nat) : (cacheRead d sec hint part).tables = d.tables := by
  unfold cacheRead; simp only []; split
  · split
    · simp only [invalidate_tables]; split <;> simp
    · split <;> simp
  · split <;> simp

@[simp] theorem accessErrors_tables (ctx : Nat) (d : Dp) (sec : Nat) : (accessErrors ctx d sec).tables = d.tables := by
  unfold accessErrors; simp only []; split
  · simp
  · split
    · simp
    · split <;> simp

@[simp] theorem cacheWrite_tables (d : Dp) (sec hint part : Nat) (whole : Bool) :
    (cacheWrite d sec hint part whole).tables = d.tables := by
  unfold cacheWrite; simp only []; split <;> simp [apply_ite Dp.tables]

@[simp] theorem flashRead_tables (ctx : Nat) (d : Dp) (g : Nat) : (flashRead ctx d g).tables = d.tables := by
  unfold flashRead; simp only []; split
  · rfl
  · split
    · rfl
    · split
      · simp
      · split <;> simp

@[simp] theorem flashWritten_tables (d : Dp) (a n : Nat) : (flashWritten d a n).tables = d.tables := bump_tables _ _ _

@[simp] theorem actReadSector_tables (E : Env) (hint : Nat) (d : Dp) (a : Nat) : (actReadSector E hint d a).tables = d.tables := by
  unfold actReadSector; split <;> simp

@[simp] theorem actWriteSector_tables (E : Env) (hint lo hi : Nat) (d : Dp) (a : Nat) :
    (actWriteSector E hint lo hi d a).tables = d.tables := by
  unfold actWriteSector; simp only []; split <;> simp [apply_ite Dp.tables, unpoison]

@[simp] theorem applyAct_tables (E : Env) (d : Dp) (a : Act) : (applyAct E d a).tables = d.tables := by
  cases a with
  | rd p n narrow =>
    simp only [applyAct]; split
    · rw [foldl_tables (f := fun d s => actReadSector E p.hint d (s * 32)) (fun _ _ => actReadSector_tables _ _ _ _)]
      simp [apply_ite Dp.tables]
    · rw [foldl_tables (flashRead_tables E.ctx), bump_tables]
    · exact bump_tables _ _ _
  | wr p bs narrow =>
    simp [applyAct, apply_ite Dp.tables, foldl_tables (actWriteSector_tables _ _ _ _)]
  | add p fmt xs =>
    simp only [applyAct]; split
    · exact foldl_tables (fun _ _ => by simp [apply_ite Dp.tables]) _ _
    · simp [foldl_tables (actWriteSector_tables _ _ _ _)]
  | walk a => simp [applyAct]

@[simp] theorem keepXlats_tables (d : Dp) (xs : List (Nat × Nat)) : (keepXlats d xs).tables = d.tables := rfl

/-- What an op does in memories, counters and the log leaves the function tables. -/
theorem applyEff_tables (E : Env) (e : Eff) (d : Dp) : (applyEff E e d).tables = d.tables := by
  unfold applyEff
  rw [foldl_tables logEvent_tables, bumps_tables, keepXlats_tables, foldl_tables (applyAct_tables E)]

/-! ## What the completion of a working does to the function tables: nothing -/

/-- The notes of a working set registers only. -/
theorem applyNotes_dp (l : List (Nat × Nat)) (s : State) : ∃ ob, (l.foldl applyNote s).dp = { s.dp with objs := ob } := by
  induction l generalizing s with
  | nil => exact ⟨_, rfl⟩
  | cons n l ih =>
    have hn : ∃ ob, (applyNote s n).dp = { s.dp with objs := ob } := by
      unfold applyNote; split <;> exact ⟨_, rfl⟩
    obtain ⟨ob, hob⟩ := hn
    obtain ⟨ob', hob'⟩ := ih (applyNote s n)
    exact ⟨ob', by rw [List.foldl_cons, hob', hob]⟩

/-- What a working has worked out is carried out by its accesses, and registers are set. -/
theorem carryOut_dp (s : State) (o : Op) (e : Eff) :
    ∃ ob, (carryOut s o e).dp = { applyEff (s.opEnv o) e s.dp with objs := ob } := by
  have hsent : (s.effect (s.opEnv o) e).dp = applyEff (s.opEnv o) e s.dp := by
    rw [State.effect, sends_hostWrites]; rfl
  rw [← hsent]
  exact applyNotes_dp _ _

theorem carryOut_tables (s : State) (o : Op) (e : Eff) : (carryOut s o e).dp.tables = s.dp.tables := by
  obtain ⟨ob, h⟩ := carryOut_dp s o e
  rw [h]
  exact applyEff_tables _ _ _

theorem finishOp_tables (s : State) (id status info : Nat) : (finishOp s id status info).dp.tables = s.dp.tables := by
  rw [finishOp_frame]

/-- A working without hardware faults and decisions is carried out, and its op completes. -/
theorem settle_eq_finishOp {s : State} {o : Op} {e : Eff} (st : Nat) (hw : e.hw = none)
    (hd : (applyEff (s.opEnv o) e s.dp).hwDue = none) (hn : ∀ n ∈ e.notes, n.1 < 10) :
    settle s o e st = finishOp (carryOut s o e) o.id st e.info := by
  have hdecisions : e.notes.reverse.filter (fun n => decide (10 ≤ n.1)) = [] := by
    simpa [List.filter_eq_nil_iff] using fun a b h => hn (a, b) h
  obtain ⟨ob, hdp⟩ := carryOut_dp s o e
  have hdue : (carryOut s o e).dp.hwDue = none := by rw [hdp]; exact hd
  have hdue' : (finishOp (carryOut s o e) o.id st e.info).dp.hwDue = none := by rw [finishOp_frame]; exact hdue
  simp [settle, hw, hdue, hdecisions, widDecisions, afterAccess, raiseDue, hdue']

/-! ## LOAD -/

/-- A LOAD whose tokens come reads, checks and writes as far as it can (R109). -/
theorem exec_tblLoad_of_works {s : State} {id : Nat} {o : Op} (h : Works s id o .load) :
    exec (.tblLoad id) s = .next (s.inside (runLoad s o)) :=
  live_onWork _ h

/-- A LOAD waits for the loads of its slot that started before it (R111). -/
theorem runLoad_of_earlier {s : State} {o : Op} (h : earlierLoad s o = true) : runLoad s o = s := by
  simp [runLoad, h]

theorem runLoad_of_image {s : State} {o : Op} {image : Nat} (h : earlierLoad s o = false) (hi : o.image = some image) :
    runLoad s o = bankIn s o image := by
  simp [runLoad, h, hi]

/-- An image that fails its checks ends its LOAD with their code. -/
theorem runLoad_of_rejected {s : State} {o : Op} {c : Nat} {e : Eff} (h : earlierLoad s o = false) (hi : o.image = none)
    (hr : (loadPlan (s.opEnv o) o.banks o.desc).run {} = (.error c, e)) (hw : waitsForHost o e = none) :
    runLoad s o = settle s o e c := by
  simp [runLoad, h, hi, hr, hw]

/-- A good image is kept by its LOAD, which reads it once, and goes on to its bank. -/
theorem runLoad_of_checked {s : State} {o : Op} {image : Nat} {e : Eff} (h : earlierLoad s o = false) (hi : o.image = none)
    (hr : (loadPlan (s.opEnv o) o.banks o.desc).run {} = (.ok image, e)) (hw : waitsForHost o e = none) :
    runLoad s o = bankIn ((carryOut s o e).putOp { o with image := some image }) o image := by
  simp only [runLoad, h, hi, hr, hw]
  rfl

/-- A LOAD waits while a started op holds the bank that it writes (R109 step 2). -/
theorem bankIn_of_held {s : State} {o : Op} {image : Nat} (h : shadowHeld s o = true) : bankIn s o image = s := if_pos h

theorem bankIn_of_free {s : State} {o : Op} {image : Nat} (h : shadowHeld s o = false) :
    bankIn s o image = finishOp (exchangeBanks s (loadSlot o) image) o.id 0 0 := by
  simp [bankIn, h]

/-- The shadow bank holds the image and becomes the active one, with the next generation (R109 steps 3 and 4). -/
theorem exchangeBanks_slot (s : State) (k image : Nat) :
    kvGet {} (exchangeBanks s k image).dp.tables k =
      { active := some image, shadow := (kvGet {} s.dp.tables k).active, gen := ((kvGet {} s.dp.tables k).gen + 1) % 2 ^ 32
        bank := !(kvGet {} s.dp.tables k).bank } := by
  rw [exchangeBanks, State.setDp_dp, kvGet_kvSet_same]

/-- The op that exchanges the banks completes with status 0. -/
theorem finishOp_exchangeBanks {s : State} {id : Nat} {o : Op} (hop : s.op? id = some o) (hp : o.phase = .started) (k image : Nat) :
    EndedAs (finishOp (exchangeBanks s k image) o.id 0 0) id 0 0 := by
  rw [op?_id hop]
  exact finishOp_ended (o := o) hop (by rw [hp]; decide)

/-- Settles O24: the clauses are what a LOAD waits for, in the order of R109 and R111, and how the checks of its image end. -/
theorem loadExchangesTheBanks : Obligations.LoadExchangesTheBanks := by
  intro s id o h r k b exchanged
  have ⟨⟨_, hop, hphase, _⟩, _⟩ := h
  rw [exec_tblLoad_of_works h]
  refine ⟨fun he => by rw [runLoad_of_earlier he]; rfl, fun he => ⟨fun image hi => ?_, fun hi hw => ?_⟩⟩
  · rw [runLoad_of_image he hi]
    refine ⟨fun hh => by rw [bankIn_of_held hh]; rfl, fun hh => ?_⟩
    rw [bankIn_of_free hh]
    refine ⟨rfl, _, rfl, finishOp_exchangeBanks hop hphase _ _, ?_⟩
    rw [State.inside_dp, finishOp_tables]
    exact exchangeBanks_slot _ _ _
  · refine ⟨fun image hok => ?_, fun c herr hhw hdue hnotes => ⟨_, rfl, ?_⟩⟩
    · rw [runLoad_of_checked he hi (Prod.ext hok rfl) hw]
      exact ⟨fun hh => by rw [bankIn_of_held hh], fun hh => by rw [bankIn_of_free hh]; rfl⟩
    · rw [runLoad_of_rejected he hi (Prod.ext herr rfl) hw]
      refine ⟨(settle_done hop hphase hhw hdue hnotes).1, ?_⟩
      rw [State.inside_dp, settle_eq_finishOp c hhw hdue hnotes, finishOp_tables, carryOut_tables]

end Sys2Proof.Proofs.SpecialFunctions
end

section
/-! SUPPORT. The family of 08_memory_channels.md: the end of a flush and of a generator's run, scrub, and the relocations of flash. -/

namespace Sys2Proof.Proofs.MemoryChannels

open Sys2Proof.Machine

/-! ## What counting leaves of the data path -/

@[simp] theorem bump_tg (d : Dp) (k n : Nat) : (bump d k n).tg = d.tg := by
  unfold bump; split <;> rfl

@[simp] theorem bump_ftl (d : Dp) (k n : Nat) : (bump d k n).ftl = d.ftl := by
  unfold bump; split <;> rfl

@[simp] theorem bump_rowCE (d : Dp) (k n : Nat) : (bump d k n).rowCE = d.rowCE := by
  unfold bump; split <;> rfl

/-! ## What a run's writes and errors do to the generators: nothing -/

/-- Work that is done in parts keeps what each part keeps. -/
theorem foldl_keeps {α β γ : Type} (g : β → γ) {f : β → α → β} (h : ∀ b a, g (f b a) = g b) (l : List α) (b : β) :
    g (l.foldl f b) = g b := by
  induction l generalizing b with
  | nil => rfl
  | cons a l ih => rw [List.foldl_cons, ih, h]

@[simp] theorem objSet_tg (d : Dp) (k v : Nat) : (objSet d k v).tg = d.tg := rfl

@[simp] theorem logEvent_tg (d : Dp) (e : Event) : (logEvent d e).tg = d.tg := by
  unfold logEvent; split <;> simp

@[simp] theorem noteHw_tg (d : Dp) (c x y : Nat) : (noteHw d c x y).tg = d.tg := by
  unfold noteHw; split <;> rfl

@[simp] theorem poisonSector_tg (d : Dp) (sec : Nat) : (poisonSector d sec).tg = d.tg := by
  unfold poisonSector; split
  · rfl
  · split <;> simp

@[simp] theorem parityErrors_tg (d : Dp) (sec n : Nat) : (parityErrors d sec n).tg = d.tg := by
  unfold parityErrors; simp only []; split <;> simp

@[simp] theorem countRow_tg (d : Dp) (sec : Nat) : (countRow d sec).tg = d.tg := by
  unfold countRow; simp only []; split <;> simp

@[simp] theorem errorAt_tg (ctx : Nat) (d : Dp) (sec n : Nat) : (errorAt ctx d sec n).tg = d.tg := by
  unfold errorAt; simp only []; split <;> simp

@[simp] theorem writePast_tg (d : Dp) (k b : Nat) : (writePast d k b).tg = d.tg := by
  unfold writePast; simp only []; split
  · split <;> rfl
  · rfl

theorem writesPast_tg (v : Dp → Nat × Nat → Nat) (l : List (Nat × Nat)) (d : Dp) :
    (l.foldl (fun d p => writePast d p.2 (v d p)) d).tg = d.tg :=
  foldl_keeps Dp.tg (fun d p => writePast_tg d p.2 (v d p)) l d

/-- The projection is taken here, of a variable: of a run's writes themselves it would compare every other field too. -/
theorem tg_of_poison_freeCtr (d : Dp) (p : List Nat) (n : Nat) : { d with poison := p, freeCtr := n }.tg = d.tg := rfl

@[simp] theorem tgWrites_tg (d : Dp) (ch ctrl passes : Nat) : (tgWrites d ch ctrl passes).tg = d.tg := by
  unfold tgWrites; split
  · rfl
  · exact (tg_of_poison_freeCtr _ _ _).trans (writesPast_tg _ _ d)

@[simp] theorem tgErrors_tg (d : Dp) (ch mask : Nat) : (tgErrors d ch mask).tg = d.tg := by
  rw [tgErrors, foldl_keeps Dp.tg fun d p => errorAt_tg _ d _ _]

/-! ## What a hardware fault does to the generators: nothing -/

theorem sends_dp {s t : State} (h : Sends s t) : t.dp = s.dp := by unfold Sends at h; rw [h]

theorem sendTether_dp (s : State) (kind chunk ticket : Nat) (every : Bool) (bs : List Nat) :
    (sendTether s kind chunk ticket every bs).dp = s.dp :=
  foldl_keeps State.dp (fun s _ => sends_dp ((sends_send s _ _ _).trans (sends_souneTransact _ _ _ _))) _ _

theorem finishOp_tg (s : State) (id status info : Nat) : (finishOp s id status info).dp.tg = s.dp.tg := by
  rw [finishOp_frame]

theorem spoil_tg (s : State) (o : Op) : (spoil s o).dp.tg = s.dp.tg := by
  rw [spoil, State.setDp_dp, freeBytes, foldl_keeps Dp.tg]
  exact fun _ _ => rfl

theorem discardOp_tg (code : Nat) (s : State) (o : Op) : (discardOp code s o).dp.tg = s.dp.tg := by
  unfold discardOp; split
  · rfl
  · simp only []; rw [finishOp_tg, apply_ite (fun s : State => s.dp.tg), spoil_tg, ite_self]

theorem hwFault_tg (s : State) (cause source detail : Nat) : (hwFault s cause source detail).dp.tg = s.dp.tg := by
  unfold hwFault; simp only []; split
  · exact logEvent_tg _ _
  · rw [State.send_dp, sendTether_dp]
    exact (foldl_keeps (fun s : State => s.dp.tg) (discardOp_tg _) _ _).trans (logEvent_tg _ _)

theorem raiseDue_tg (s : State) : (raiseDue s).dp.tg = s.dp.tg := by
  unfold raiseDue; split
  · rfl
  · exact hwFault_tg _ _ _ _

/-! ## Flush and generator runs -/

theorem exec_cacheFlushComplete_of_on {s : State} (h : s.off = false) :
    exec .cacheFlushComplete s = .next { s with dp := { s.dp with flushing := false } } :=
  live_on (fun s => s.setDp { s.dp with flushing := false }) h

theorem exec_tgRunComplete_of_idle {s : State} {c : Nat} (run : TgRun) (h : s.off = false) (hc : c < 320)
    (hr : (kvGet {} s.dp.tg c).running = false) : exec (.tgRunComplete c run) s = .next s := by
  change execTgRunComplete c run s = _
  simp [execTgRunComplete, Nat.not_le.mpr hc, live_on _ h, hr]

/-- What a run leaves in its generator (R296). -/
def tgResult (run : TgRun) : TgChan :=
  { done := true, fail := !run.mismatches.isEmpty, passes := run.passes, mbps := run.mbps, log := run.mismatches.take 16 }

/-- The device at the end of a run, before the results are set: the run's writes and errors, and its counts (R295, R296). -/
def tgCounted (s : State) (c : Nat) (run : TgRun) : State :=
  let ctrl := s.obj (objKey c kTgCtrl)
  (((raiseDue (s.setDp (tgErrors (tgWrites s.dp c ctrl run.passes) c (bits ctrl 15 14)))).bump (objKey c kTgMismatch)
    run.mismatches.length).bump (objKey c kTgBytes) run.bytes).bump (objKey 63 kRegBytes) run.bytes

theorem tgCounted_tg (s : State) (c : Nat) (run : TgRun) : (tgCounted s c run).dp.tg = s.dp.tg := by
  simp only [tgCounted, State.bump_dp, bump_tg, raiseDue_tg, State.setDp_dp, tgErrors_tg, tgWrites_tg]

/-- The end of a run counts, and sets its generator's results. -/
theorem exec_tgRunComplete_of_running {s : State} {c : Nat} (run : TgRun) (h : s.off = false) (hc : c < 320)
    (hr : (kvGet {} s.dp.tg c).running = true) :
    exec (.tgRunComplete c run) s = .next (s.inside (setTg (tgCounted s c run) c (tgResult run))) := by
  change execTgRunComplete c run s = _
  rw [execTgRunComplete, if_neg (Nat.not_le.mpr hc), live_on _ h]
  simp only [hr]
  rfl

/-! ## Scrub -/

/-- Scrub reads a sector unless it passes it by, and after a full pass counts it and forgets its row counts (log 46). -/
theorem exec_patrolScrub_of_present {s : State} {sec : Nat} (sev : Nat) (last : Bool) (h : s.off = false)
    (hsec : sec * 32 < Config.stackCount * Config.stackBytes) :
    exec (.patrolScrub sec sev last) s = .next (s.inside (
      let s1 := if scrubSkips s.dp sec then s else scrubSector s sec sev
      if last then (s1.setDp { s1.dp with rowCE := [] }).bump kScrubPasses 1 else s1)) := by
  change execPatrolScrub sec sev last s = _
  rw [execPatrolScrub, if_neg (Nat.not_le.mpr hsec), live_on _ h]

/-! ## Relocation and levelling -/

theorem exec_flashRelocation_of_below {s : State} {b : Nat} (h : s.off = false) (hb : kvGet 0 s.dp.ftl.reads b < s.obj kFtlRdLimit) :
    exec (.flashRelocation b) s = .next s := by
  change execFlashRelocation b s = _
  simp [execFlashRelocation, live_on _ h, Nat.not_le.mpr hb]

theorem exec_flashRelocation_of_reached {s : State} {b : Nat} (h : s.off = false)
    (hb : s.obj kFtlRdLimit ≤ kvGet 0 s.dp.ftl.reads b) :
    exec (.flashRelocation b) s = .next (s.inside ((s.setDp { s.dp with ftl := s.dp.ftl.relocate b }).bump kFtlRelocations
      (b2n (s.dp.ftl.unitOf b).isSome))) := by
  change execFlashRelocation b s = _
  simp only [execFlashRelocation, live_on _ h, if_pos hb]

theorem exec_flashWearLevelling_of_within {s : State} {cold worn : Nat} (h : s.off = false)
    (hw : kvGet 0 s.dp.ftl.erases worn ≤ kvGet 0 s.dp.ftl.erases cold + s.obj kFtlWearSpread) :
    exec (.flashWearLevelling cold worn) s = .next s := by
  change execFlashWearLevelling cold worn s = _
  simp [execFlashWearLevelling, live_on _ h, Nat.not_lt.mpr hw]

theorem exec_flashWearLevelling_of_beyond {s : State} {cold worn : Nat} (h : s.off = false)
    (hw : kvGet 0 s.dp.ftl.erases cold + s.obj kFtlWearSpread < kvGet 0 s.dp.ftl.erases worn) :
    exec (.flashWearLevelling cold worn) s = .next (s.inside ((s.setDp { s.dp with ftl := s.dp.ftl.level cold worn }).bump
      kFtlRelocations (s.dp.ftl.levelMoves cold worn))) := by
  change execFlashWearLevelling cold worn s = _
  simp only [execFlashWearLevelling, live_on _ h, if_pos hw]

/-! ## The map of units and its blocks -/

theorem blockOf_switch (f : Ftl) (u b : Nat) : (f.switch u b).blockOf u = some b := by
  rw [Ftl.blockOf, Ftl.switch, kvGet_kvSet_same]

/-- An erase leaves the map and its journal, also one that fails. -/
@[simp] theorem erase_map (f : Ftl) (b : Nat) : (f.erase b).map = f.map := by
  unfold Ftl.erase; simp only []; split <;> rfl

@[simp] theorem erase_journal (f : Ftl) (b : Nat) : (f.erase b).journal = f.journal := by
  unfold Ftl.erase; simp only []; split <;> rfl

@[simp] theorem erase_reads (f : Ftl) (b : Nat) : (f.erase b).reads = kvSet 0 f.reads b 0 := by
  unfold Ftl.erase; simp only []; split <;> rfl

@[simp] theorem erase_erases (f : Ftl) (b : Nat) : (f.erase b).erases = kvSet 0 f.erases b (kvGet 0 f.erases b + 1) := by
  unfold Ftl.erase; simp only []; split <;> rfl

theorem blockOf_erase (f : Ftl) (b u : Nat) : (f.erase b).blockOf u = f.blockOf u := by
  rw [Ftl.blockOf, Ftl.blockOf, erase_map]

/-- A rewritten unit goes to the free block and its old block is erased, while no block is about to fail. -/
theorem rewrite_of_written {f : Ftl} {u b n : Nat} (hw : f.weak = []) (hb : f.blockOf u = some b) (hn : f.freeBlock = some n) :
    f.rewrite u = (f.switch u n).erase b := by
  simp [Ftl.rewrite, Ftl.program, hw, hn, hb]

/-- A relocation is a rewrite of the block's unit, but for the granules that the copy cannot read either. -/
theorem relocate_of_held {f : Ftl} {b u n : Nat} (hu : f.unitOf b = some u) (hn : (f.rewrite u).blockOf u = some n) :
    ∃ l, f.relocate b = { f.rewrite u with granules := l } := by
  simp only [Ftl.relocate, hu, hn]
  exact ⟨_, rfl⟩

/-- A cold block's unit goes onto a free worn block, and the cold block is erased. -/
theorem level_of_free {f : Ftl} {cold worn u : Nat} (hu : f.unitOf cold = some u) (hf : f.isFree worn = true) :
    f.level cold worn = (f.switch u worn).erase cold := by
  have hempty : f.unitOf worn = none := by simp_all [Ftl.isFree]
  simp [Ftl.level, hempty, hu, hf]

theorem relocate_moves {f : Ftl} {b u n : Nat} (hw : f.weak = []) (hu : f.unitOf b = some u) (hb : f.blockOf u = some b)
    (hn : f.freeBlock = some n) :
    (f.relocate b).blockOf u = some n ∧ (f.relocate b).journal = f.journal ++ [(u, n)] ∧
      kvGet 0 (f.relocate b).reads b = 0 ∧ kvGet 0 (f.relocate b).erases b = kvGet 0 f.erases b + 1 := by
  have hmoved : ((f.switch u n).erase b).blockOf u = some n := by rw [blockOf_erase, blockOf_switch]
  have hr := rewrite_of_written hw hb hn
  obtain ⟨l, hl⟩ := relocate_of_held hu (hr ▸ hmoved)
  rw [hl, hr]
  refine ⟨hmoved, ?_, ?_, ?_⟩ <;> simp [Ftl.switch]

theorem level_moves {f : Ftl} {cold worn u : Nat} (hu : f.unitOf cold = some u) (hf : f.isFree worn = true) :
    (f.level cold worn).blockOf u = some worn ∧ kvGet 0 (f.level cold worn).erases cold = kvGet 0 f.erases cold + 1 := by
  rw [level_of_free hu hf, blockOf_erase, blockOf_switch]
  simp [Ftl.switch]

/-- The hypotheses of both moves: unit 5 lies in block 1, and blocks 0 and 7 are free. -/
theorem witness_unit_moves : let f : Ftl := { map := [(5, 2)] }
    f.weak = [] ∧ f.unitOf 1 = some 5 ∧ f.blockOf 5 = some 1 ∧ f.freeBlock = some 0 ∧ f.isFree 7 = true := by
  decide +kernel

/-- Settles O52: the clauses are the branches of each command, and what a relocation and a levelling do to the map of units. That a
pass's row counts are forgotten at its end is log 46, and one unit for each block is log 7: both are the model's choice. -/
theorem memoryHousekeeping : Obligations.MemoryHousekeeping := by
  intro s h
  refine ⟨exec_cacheFlushComplete_of_on h, fun c run hc => ⟨exec_tgRunComplete_of_idle run h hc, fun hr => ?_⟩,
    fun sec sev hsec => ⟨fun hk => ?_, fun hk => ?_, fun hk => ?_⟩,
    fun b => ⟨exec_flashRelocation_of_below h, fun hb => ?_⟩,
    fun cold worn => ⟨exec_flashWearLevelling_of_within h, fun hw => ?_⟩,
    fun b u n => relocate_moves, fun cold worn u _ => level_moves⟩
  · refine ⟨_, exec_tgRunComplete_of_running run h hc hr, ?_⟩
    simp +contextual [setTg, tgCounted_tg, tgResult]
  · rw [exec_patrolScrub_of_present sev false h hsec, hk]; rfl
  · rw [exec_patrolScrub_of_present sev false h hsec, hk]; rfl
  · refine ⟨_, exec_patrolScrub_of_present sev true h hsec, ?_⟩
    rw [hk]
    exact ⟨bump_rowCE _ _ _, obj_bump_one _ _⟩
  · exact ⟨_, exec_flashRelocation_of_reached h hb, by simp⟩
  · exact ⟨_, exec_flashWearLevelling_of_beyond h hw, by simp⟩

end Sys2Proof.Proofs.MemoryChannels
end

section
/-! SUPPORT. The family of 09_tiers_and_reel.md, part 1: FILL and COPY of one row, and the bytes that they leave. -/

namespace Sys2Proof.Proofs.Mov

open Sys2Proof.Machine
open Sys2Proof.Proofs.Scope

/-! ## Sound memories stay sound -/

/-- A data path whose memories are `m` and sound: `MemoriesSound` of the part of the state that accesses change. -/
structure Sound (m : Mem) (d : Dp) : Prop where
  mem : d.mem = m
  sev : d.sev = []
  sram : d.sram = []
  hwDue : d.hwDue = none
  cache : ∀ l ∈ d.cache, l.stale = 0

theorem sound_of_memoriesSound {s : State} (h : MemoriesSound s) : Sound s.dp.mem s.dp := by
  obtain ⟨hsev, hsram, hdue, hcache⟩ := h
  exact ⟨rfl, hsev, hsram, hdue, hcache⟩

/-- Soundness does not speak of objects, buckets, the counter of uses, or what the device caches of the page tables. -/
theorem Sound.uncounted {m : Mem} {d : Dp} (h : Sound m d) (objs buckets xlat : List (Nat × Nat)) (useCtr xlatCtr : Nat) :
    Sound m { d with objs := objs, buckets := buckets, xlat := xlat, useCtr := useCtr, xlatCtr := xlatCtr } :=
  ⟨h.mem, h.sev, h.sram, h.hwDue, h.cache⟩

theorem Sound.foldl {α : Type} {m : Mem} {f : Dp → α → Dp} (hf : ∀ d a, Sound m d → Sound m (f d a)) {d : Dp} (h : Sound m d)
    (l : List α) : Sound m (l.foldl f d) :=
  List.foldlRecOn l f h fun d hd a _ => hf d a hd

theorem Sound.bump {m : Mem} {d : Dp} (h : Sound m d) (k n : Nat) : Sound m (Machine.bump d k n) := by
  unfold Machine.bump
  split
  · exact h
  · exact h.uncounted _ _ _ _ _

theorem Sound.takeTokens {m : Mem} {d : Dp} (h : Sound m d) (part stack n : Nat) : Sound m (takeTokens d part stack n) := by
  have hb := h.bump (objKey part kRegBytes) n
  unfold Machine.takeTokens
  simp only []
  split
  · exact hb.uncounted _ _ _ _ _
  · split
    · exact hb
    · split
      · exact h.uncounted _ _ _ _ _
      · exact (hb.bump _ _).uncounted _ _ _ _ _

/-- Sound memory shows no parity errors. -/
theorem Sound.writeErrors {m : Mem} {d : Dp} (h : Sound m d) (sec : Nat) : writeErrors d sec = d := by
  simp [Machine.writeErrors, h.sev, kvGet]

theorem Sound.writeBack {m : Mem} {d : Dp} (h : Sound m d) (l : CacheLine) : Sound m (writeBack d l) :=
  Sound.foldl (fun d s hd => by rw [hd.writeErrors]; exact hd) (h.takeTokens _ _ _) _

/-- A line that hides nothing of HBM3E leaves the cache without a change of the memories. -/
theorem Sound.dropLine {m : Mem} {d : Dp} (h : Sound m d) {l : CacheLine} (hl : l.stale = 0) : Sound m (dropLine d l) := by
  have hb : Sound m (if l.dirty = 0 then d else Machine.writeBack d l) := by
    split
    · exact h
    · exact h.writeBack l
  unfold Machine.dropLine
  rw [hl, show bitList 4 0 = [] by decide]
  exact ⟨hb.mem, hb.sev, hb.sram, hb.hwDue, fun x hx => hb.cache x (List.mem_filter.mp hx).1⟩

theorem Sound.cachePut {m : Mem} {d : Dp} (h : Sound m d) {l : CacheLine} (hl : l.stale = 0) : Sound m (cachePut d l) := by
  refine ⟨h.mem, h.sev, h.sram, h.hwDue, fun x hx => ?_⟩
  have hx' : x = l ∨ x ∈ d.cache := by
    dsimp only [Machine.cachePut] at hx
    split at hx
    · exact .inr (List.mem_filter.mp hx).1
    · exact (List.mem_cons.mp hx).imp_right fun hx => (List.mem_filter.mp hx).1
  rcases hx' with rfl | hx'
  · exact hl
  · exact h.cache x hx'

/-- The least recently used of some lines is one of them. -/
theorem lruOf_mem {ls : List CacheLine} {v : CacheLine} (h : lruOf ls = some v) : v ∈ ls := by
  revert h
  refine List.foldlRecOn (motive := fun b => b = some v → v ∈ ls) ls _ (fun hn => by cases hn) (fun b hb l hl hv => ?_)
  split at hv
  · exact Option.some.inj hv ▸ hl
  · split at hv
    · exact Option.some.inj hv ▸ hl
    · exact hb hv

theorem setOf_subset (d : Dp) (line : Nat) : setOf d line ⊆ d.cache := List.filter_subset_self _

theorem keepVictim_mem {d : Dp} {line : Nat} {v : CacheLine} (h : keepVictim d line = some v) : v ∈ d.cache := by
  simp only [keepVictim, Option.ite_none_right_eq_some] at h
  exact setOf_subset d line (List.mem_filter.mp (lruOf_mem h.2)).1

theorem victim_mem {d : Dp} {line : Nat} {keep : Bool} {v : CacheLine} (h : victim d line keep = some v) : v ∈ d.cache := by
  unfold victim at h
  split at h
  next w hw =>
    cases h
    exact keepVictim_mem (Option.ite_none_right_eq_some.mp hw).2
  next =>
    obtain ⟨-, hv⟩ := Option.ite_none_left_eq_some.mp h
    exact setOf_subset d line (List.mem_filter.mp (lruOf_mem hv)).1

theorem cacheFind_mem {d : Dp} {line : Nat} {l : CacheLine} (h : cacheFind d line = some l) : l ∈ d.cache :=
  List.mem_of_find?_eq_some h

theorem Sound.touch {m : Mem} {d : Dp} (h : Sound m d) {l : CacheLine} (hl : l.stale = 0) (hint : Nat) : Sound m (touch d l hint) := by
  unfold Machine.touch
  refine Sound.cachePut (Sound.uncounted ?_ _ _ _ _ _) hl
  split
  · split
    next v hv => exact h.dropLine (h.cache v (keepVictim_mem hv))
    next => exact h
  · exact h

theorem Sound.evict {m : Mem} {d : Dp} (h : Sound m d) (line : Nat) (keep : Bool) : Sound m (evict d line keep) := by
  unfold Machine.evict
  split
  next => exact h
  next v hv => exact h.dropLine (h.cache v (victim_mem hv))

theorem Sound.allocate {m : Mem} {d : Dp} (h : Sound m d) (sec hint part : Nat) : Sound m (allocate d sec hint part) := by
  unfold Machine.allocate
  simp only []
  split
  next l hl => exact h.touch (by exact h.cache l (cacheFind_mem hl)) hint
  next =>
    split
    · exact Sound.cachePut ((h.evict _ _).uncounted _ _ _ _ _) rfl
    · exact h

/-- A read that discards nothing (R272): any hint but LAST. -/
theorem Sound.cacheRead {m : Mem} {d : Dp} (h : Sound m d) (sec part : Nat) {hint : Nat} (hh : hint ≠ hLast) :
    Sound m (cacheRead d sec hint part) := by
  unfold Machine.cacheRead
  simp only [hh, if_false]
  split
  · split
    next l hl => exact (h.bump _ _).touch ((h.bump _ _).cache l (cacheFind_mem hl)) hint
    next => exact h.bump _ _
  · split
    · exact ((h.bump _ _).takeTokens _ _ _).allocate _ _ _
    · exact (h.bump _ _).takeTokens _ _ _

/-- An access to sound memory meets no error. -/
theorem Sound.accessErrors {m : Mem} {d : Dp} (h : Sound m d) (ctx sec : Nat) : Sound m (accessErrors ctx d sec) := by
  have hd : Machine.accessErrors ctx d sec = { d with sram := [] } := by
    cases hv : sectorValid d sec <;>
      simp [Machine.accessErrors, sectorErrors, errorAt, fromHbm, h.sev, h.sram, hv, kvGet, kvSet, kvDrop]
  rw [hd]
  exact ⟨h.mem, h.sev, rfl, h.hwDue, h.cache⟩

theorem Sound.actReadSector {m : Mem} {d : Dp} (h : Sound m d) (E : Env) {hint : Nat} (hh : hint ≠ hLast) (a : Nat) :
    Sound m (actReadSector E hint d a) := by
  unfold Machine.actReadSector
  split
  · exact h
  · exact (h.accessErrors _ _).cacheRead _ _ hh

/-! ## Accesses before the write -/

/-- What a FILL or a COPY accesses before its write: page tables, and a source in near store or host memory. -/
def OnlyReads : Act → Prop
  | .walk _ => True
  | .rd p _ _ => p.tier = 0 ∨ p.tier = 2
  | _ => False

theorem Sound.applyAct {m : Mem} {d : Dp} (h : Sound m d) (E : Env) {a : Act} (ha : OnlyReads a) : Sound m (applyAct E d a) := by
  match a, ha with
  | .walk a, _ => exact (h.bump _ _).actReadSector E (by decide) a
  | .rd p n narrow, ha =>
    rcases ha with ht | ht
    all_goals
      simp only [Machine.applyAct, ht]
      exact h.bump _ _

/-- Memories after a write of bytes at a place. -/
def written (m : Mem) (p : Place) (bs : List Nat) : Mem :=
  m.setTier p.tier (memStore (m.tier p.tier) (keysFrom p.addr bs.length) bs)

/-- The flash translation layer moves units, not the bytes that software sees of them. -/
theorem Sound.flashWritten {m : Mem} {d : Dp} (h : Sound m d) (a n : Nat) : Sound m (flashWritten d a n) :=
  Sound.bump (d := { d with ftl := (unitsFrom a n).foldl Ftl.rewrite d.ftl }) ⟨h.mem, h.sev, h.sram, h.hwDue, h.cache⟩ _ _

theorem Sound.applyWrite {m : Mem} {d : Dp} (h : Sound m d) (E : Env) {p : Place} (ht : p.tier ≠ 1) (bs : List Nat) (narrow : Bool) :
    Sound (written m p bs) (Machine.applyAct E d (.wr p bs narrow)) := by
  have hb := h.bump (objKey E.ctx (acctKey p.tier)) bs.length
  have hs : Sound (written m p bs) { Machine.bump d (objKey E.ctx (acctKey p.tier)) bs.length with mem := written m p bs } :=
    ⟨rfl, hb.sev, hb.sram, hb.hwDue, hb.cache⟩
  simp only [Machine.applyAct, ht, if_false, tierKeys, hb.mem]
  split
  · exact hs.flashWritten _ _
  · exact hs

/-- The whole effect of a working that ends with one write. -/
theorem Sound.applyEff_of_lastWrite {m : Mem} {d : Dp} (h : Sound m d) (E : Env) {e : Eff} (hv : e.events = [])
    (ha : ∀ a ∈ e.acts, OnlyReads a) {p : Place} (ht : p.tier ≠ 1) (bs : List Nat) (narrow : Bool) :
    Sound (written m p bs) (applyEff E { e with acts := .wr p bs narrow :: e.acts } d) := by
  have hr : Sound m (e.acts.reverse.foldl (Machine.applyAct E) d) :=
    List.foldlRecOn _ _ h fun d hd a ha' => hd.applyAct E (ha a (List.mem_reverse.mp ha'))
  have hw := hr.applyWrite E ht bs narrow
  simp only [applyEff, hv, List.reverse_nil, List.foldl_nil, List.reverse_cons, List.foldl_append, List.foldl_cons, bumps, keepXlats]
  exact Sound.foldl (fun d c hd => hd.bump _ _) (hw.uncounted _ _ _ _ _) _

/-! ## Bytes -/

theorem tier_setTier_same (m : Mem) {t : Nat} (h : t < 4) (l : List Host.Cell) : (m.setTier t l).tier t = l := by
  interval_cases t <;> rfl

theorem tier_setTier_other (m : Mem) {t u : Nat} (ht : t < 4) (hu : u < 4) (h : u ≠ t) (l : List Host.Cell) :
    (m.setTier t l).tier u = m.tier u := by
  interval_cases t <;> interval_cases u <;> simp_all [Mem.setTier, Mem.tier]

theorem mem_keysFrom {a n k : Nat} : k ∈ keysFrom a n ↔ a ≤ k ∧ k < a + n := by
  simp only [keysFrom, List.mem_map, List.mem_range]
  exact ⟨fun ⟨i, hi, hk⟩ => by omega, fun h => ⟨k - a, by omega, by omega⟩⟩

theorem keysFrom_nodup (a n : Nat) : (keysFrom a n).Nodup :=
  List.nodup_range.map fun _ _ h => Nat.add_left_cancel h

theorem memByte_memStore_keysFrom (l : List Host.Cell) (a : Nat) {bs : List Nat} (hb : ∀ b ∈ bs, b < 256) {j : Nat}
    (hj : j < bs.length) :
    memByte (memStore l (keysFrom a bs.length) bs) (a + j) = bs[j] := by
  have h := memRead_memStore (keysFrom a bs.length) bs l (keysFrom_nodup _ _) (by simp [keysFrom]) hb
  have hj' : (memRead (memStore l (keysFrom a bs.length) bs) (keysFrom a bs.length))[j]? = bs[j]? := by rw [h]
  simpa [memRead, keysFrom, hj] using hj'

/-- A write leaves its bytes at its place. -/
theorem memByte_written_inside (m : Mem) {p : Place} (ht : p.tier < 4) {bs : List Nat} (hb : ∀ b ∈ bs, b < 256) {j : Nat}
    (hj : j < bs.length) : memByte ((written m p bs).tier p.tier) (p.addr + j) = bs[j] := by
  rw [written, tier_setTier_same m ht, memByte_memStore_keysFrom _ _ hb hj]

/-- A write leaves every other byte of the four memories. -/
theorem memByte_written_outside (m : Mem) {p : Place} (ht : p.tier < 4) (bs : List Nat) {tier k : Nat} (hk : tier < 4)
    (h : tier ≠ p.tier ∨ k < p.addr ∨ p.addr + bs.length ≤ k) :
    memByte ((written m p bs).tier tier) k = memByte (m.tier tier) k := by
  by_cases he : tier = p.tier
  · subst he
    rw [written, tier_setTier_same m ht, memByte_memStore_other _ _ _ (by rw [mem_keysFrom]; omega)]
  · rw [written, tier_setTier_other m ht hk he]

/-! ## What a working has done before its write -/

/-- A working that has only read, and so far raised no code, event or note. -/
structure Reading (e : Eff) : Prop where
  acts : ∀ a ∈ e.acts, OnlyReads a
  events : e.events = []
  codes : e.codes = []
  notes : e.notes = []
  info : e.info = 0
  hw : e.hw = none

theorem Reading.nil : Reading {} := ⟨by simp, rfl, rfl, rfl, rfl, rfl⟩

/-- A translation adds no access but reads of the page tables. -/
theorem mem_met_acts {E : Env} {va : Nat} {e : Eff} {a : Act} (h : a ∈ (met E va e).acts) : a ∈ e.acts ∨ ∃ x, a = .walk x := by
  simp only [met] at h
  split at h
  · rcases List.mem_append.mp h with h | h
    · obtain ⟨x, -, hx⟩ := List.mem_map.mp h
      exact .inr ⟨x, hx.symm⟩
    · exact .inl h
  · exact .inl h

theorem Reading.met {e : Eff} (h : Reading e) (E : Env) (va : Nat) : Reading (met E va e) := by
  refine ⟨fun a ha => ?_, h.events, h.codes, h.notes, h.info, h.hw⟩
  rcases mem_met_acts ha with ha | ⟨x, rfl⟩
  · exact h.acts a ha
  · trivial

theorem Reading.rd {e : Eff} (h : Reading e) {p : Place} (hp : p.tier = 0 ∨ p.tier = 2) (n : Nat) (narrow : Bool) :
    Reading { e with acts := .rd p n narrow :: e.acts } :=
  ⟨fun a ha => (List.mem_cons.mp ha).elim (fun ha => ha ▸ hp) (h.acts a), h.events, h.codes, h.notes, h.info, h.hw⟩

/-- The op whose working ends with one write outside HBM3E completes with status 0 and leaves the write's bytes, and nothing else. -/
theorem exec_of_lastWrite {i : Instr} {s : State} {id : Nat} {f : Form} {o : Op} {plan : Plan Unit} {e : Eff} {p : Place}
    {bs : List Nat} (hi : workForm i = some (id, f)) (h : Works s id o f) (hm : MemoriesSound s) (hp : opPlan s o f = some plan)
    (he : Reading e) (hgo : plan.go {} = (.ok (), { e with acts := .wr p bs false :: e.acts }))
    (hw : waitsForHost o { e with acts := .wr p bs false :: e.acts } = none) (h1 : p.tier ≠ 1) (h4 : p.tier < 4)
    (hb : ∀ b ∈ bs, b < 256) :
    ∃ t, exec i s = .next t ∧ EndedAs t id 0 0 ∧
      (∀ j (hj : j < bs.length), byteAt t p.tier (p.addr + j) = bs[j]) ∧
      (∀ tier k, tier < 4 → (tier ≠ p.tier ∨ k < p.addr ∨ p.addr + bs.length ≤ k) → byteAt t tier k = byteAt s tier k) := by
  have hrun : runPlan plan codeOrder = ({ e with acts := .wr p bs false :: e.acts }, 0) := by
    unfold runPlan
    rw [show plan.run {} = _ from hgo]
    simp only [he.codes]
    rfl
  have hs := (sound_of_memoriesSound hm).applyEff_of_lastWrite (s.opEnv o) he.events he.acts h1 bs false
  obtain ⟨-, -, hdone⟩ := workingOpsComplete i s id f o plan hi h.1 hp
  rw [hrun] at hdone
  obtain ⟨t, ht, hend, hmem, -⟩ := hdone h hw he.hw hs.hwDue (by simp [he.notes])
  rw [hs.mem] at hmem
  rw [show ({ e with acts := .wr p bs false :: e.acts } : Eff).info = 0 from he.info] at hend
  refine ⟨t, ht, hend, fun j hj => ?_, fun tier k hk hout => ?_⟩
  · rw [byteAt, hmem, memByte_written_inside _ h4 hb hj]
  · rw [byteAt, hmem, memByte_written_outside _ h4 bs hk hout, byteAt]

/-! ## FILL -/

theorem getElem?_leBytes {n x j : Nat} (h : j < n) : (leBytes n x)[j]? = some (x / 256 ^ j % 256) := by
  induction n generalizing x j with
  | zero => omega
  | succ n ih =>
    cases j with
    | zero => simp [leBytes]
    | succ j =>
      rw [leBytes, List.getElem?_cons_succ, ih (by omega), Nat.div_div_eq_div_mul, Nat.pow_succ']

theorem length_patternBytes {p n : Nat} (h : n % 8 = 0) : (patternBytes p n).length = n := by
  simp only [patternBytes, List.length_flatten, List.map_replicate, List.sum_replicate, length_leBytes, smul_eq_mul]
  omega

theorem patternBytes_lt (p n : Nat) : ∀ b ∈ patternBytes p n, b < 256 := by
  intro b hb
  simp only [patternBytes, List.mem_flatten] at hb
  obtain ⟨l, hl, hb⟩ := hb
  rw [List.eq_of_mem_replicate hl] at hb
  exact leBytes_lt 8 p b hb

/-- A repeated list, element by element. -/
theorem getElem?_flatten_replicate {α : Type} (l : List α) {k j : Nat} (h : j < k * l.length) :
    (List.replicate k l).flatten[j]? = l[j % l.length]? := by
  induction k generalizing j with
  | zero => omega
  | succ k ih =>
    rw [List.replicate_succ, List.flatten_cons]
    by_cases hj : j < l.length
    · rw [List.getElem?_append_left hj, Nat.mod_eq_of_lt hj]
    · rw [List.getElem?_append_right (by omega), ih (by rw [Nat.succ_mul] at h; omega), ← Nat.mod_eq_sub_mod (by omega)]

theorem getElem_patternBytes {p n j : Nat} (hn : n % 8 = 0) (h : j < n) (hj : j < (patternBytes p n).length) :
    (patternBytes p n)[j] = p / 256 ^ (j % 8) % 256 := by
  have hp : (patternBytes p n)[j]? = (leBytes 8 p)[j % 8]? := by
    have := getElem?_flatten_replicate (leBytes 8 p) (k := n / 8) (j := j) (by rw [length_leBytes]; omega)
    rwa [length_leBytes] at this
  rw [getElem?_leBytes (Nat.mod_lt j (by decide)), List.getElem?_eq_getElem hj] at hp
  exact Option.some.inj hp

/-- A place lies in one of the four tiers. -/
theorem translate_tier_lt {E : Env} {va n : Nat} {w : Bool} {p : Place} (h : translate E va n w = .ok p) : p.tier < 4 := by
  unfold Machine.translate at h
  split at h
  next => cases h
  next x _ =>
    unfold placeOf at h
    simp only [] at h
    repeat' split at h
    all_goals cases h
    all_goals exact Nat.mod_lt _ (by decide)

theorem go_forM_range_one (f : Nat → Plan Unit) (e : Eff) : ((List.range 1).forM f).go e = (f 0).go e := by
  simp [List.range_succ]

/-- A FILL of one row within one page is one write of the pattern. -/
theorem go_fillPlan {E : Env} {x : Nat} {d : MovDesc} {p : Place} (hE : E.turn = 0) (hi : (movIssue E x).go {} = (.ok d, {}))
    (hrows : d.rows = 1) (hn : d.rowBytes % 8 = 0) (hr : runsOf d.dst d.rowBytes = [(d.dst, d.rowBytes)])
    (ht : translate E d.dst d.rowBytes true = .ok p) :
    (fillPlan E x).go {} = (.ok (), { met E d.dst {} with
      acts := .wr p (patternBytes d.pattern d.rowBytes) false :: (met E d.dst {}).acts }) := by
  have hl := length_patternBytes (p := d.pattern) hn
  rw [fillPlan, Plan.go_ok hi, hrows, go_forM_range_one, Nat.zero_mul, Nat.add_zero]
  exact Plan.go_allOrNone (go_wr {} (by rw [hl, hr]) (by rw [hl, ← ht, ← hE]))

/-- A FILL waits for nothing in host memory. -/
theorem waitsForHost_of_no_reads {o : Op} {e : Eff} (h : ∀ a ∈ e.acts, ∀ p n w, a ≠ .rd p n w) : waitsForHost o e = none := by
  have hr : hostReads e.acts.reverse = [] := by
    simp only [hostReads, List.flatMap_eq_nil_iff, List.mem_reverse]
    intro a ha
    split
    next p n w => exact absurd rfl (h _ ha p n w)
    next => rfl
  simp [waitsForHost, hr]

/-- What a FILL has done before its write reads nothing but page tables. -/
theorem not_rd_of_met {E : Env} {va : Nat} {w : Place} {bs : List Nat} {narrow : Bool} :
    ∀ a ∈ ({ met E va {} with acts := .wr w bs narrow :: (met E va {}).acts } : Eff).acts, ∀ p n k, a ≠ .rd p n k := by
  intro a ha p n k hrd
  subst hrd
  rcases List.mem_cons.mp ha with ha | ha
  · cases ha
  · rcases mem_met_acts ha with ha | ⟨_, ha⟩ <;> cases ha

/-- Settles O22: the working of the FILL is one write, of the pattern's bytes. -/
theorem fillWritesThePattern : Obligations.FillWritesThePattern := by
  intro s id o pl h hm d hi hrows hn hr ht h1
  have hl := length_patternBytes (p := d.pattern) hn
  obtain ⟨t, hx, hend, hin, hout⟩ := exec_of_lastWrite (i := .fill id) rfl h hm rfl (Reading.nil.met (s.opEnv o) d.dst)
    (go_fillPlan rfl hi hrows hn hr ht) (waitsForHost_of_no_reads not_rd_of_met) h1 (translate_tier_lt ht) (patternBytes_lt _ _)
  refine ⟨t, hx, hend, fun j hj => ?_, fun tier k hk ho => hout tier k hk (by rwa [hl])⟩
  rw [hin j (by rwa [hl]), getElem_patternBytes hn hj]

/-! ## COPY -/

theorem runBytes_of_not_hbm {d : Dp} {p : Place} {n : Nat} (h : p.tier ≠ 1) :
    runBytes d p n = memRead (d.mem.tier p.tier) (keysFrom p.addr n) := by
  rw [runBytes, tierKeys, if_neg h]

theorem length_memRead_keysFrom (m : List Host.Cell) (a n : Nat) : (memRead m (keysFrom a n)).length = n := by
  simp [memRead, keysFrom]

theorem memRead_lt (m : List Host.Cell) (ks : List Nat) : ∀ b ∈ memRead m ks, b < 256 := by
  intro b hb
  obtain ⟨k, -, rfl⟩ := List.mem_map.mp hb
  exact (kvGet (0 : BitVec 8) m k).isLt

theorem readStop_of_near_or_host {d : Dp} {p : Place} {n : Nat} (h : p.tier = 0 ∨ p.tier = 2) : readStop d p n = none := by
  rcases h with h | h <;> simp [readStop, h]

/-- What a COPY has done before its write: the translation and the read of its source. -/
def sourceRead (E : Env) (d : MovDesc) (p : Place) : Eff :=
  { met E d.src {} with acts := .rd p d.rowBytes false :: (met E d.src {}).acts }

/-- A COPY of one row within pages outside flash is one read and one write. -/
theorem go_copyPlan {E : Env} {x : Nat} {d : MovDesc} {ps pd : Place} (hE : E.turn = 0) (hi : (movIssue E x).go {} = (.ok d, {}))
    (hrows : d.rows = 1) (hsrc : runsOf d.src d.rowBytes = [(d.src, d.rowBytes)])
    (hdst : runsOf d.dst d.rowBytes = [(d.dst, d.rowBytes)]) (hs : translate E d.src d.rowBytes false = .ok ps)
    (hps : ps.tier = 0 ∨ ps.tier = 2) (hd : translate { E with turn := 1 } d.dst d.rowBytes true = .ok pd)
    (hf : dstFlash E d = false) :
    (copyPlan E x).go {} = (.ok (), { met E d.dst (sourceRead E d ps) with
      acts := .wr pd (runBytes E.d ps d.rowBytes) false :: (met E d.dst (sourceRead E d ps)).acts }) := by
  have hl : (runBytes E.d ps d.rowBytes).length = d.rowBytes := by
    rw [runBytes_of_not_hbm (by omega), length_memRead_keysFrom]
  rw [copyPlan, Plan.go_ok hi, hf, if_neg Bool.false_ne_true, hrows, go_forM_range_one, Nat.zero_mul, Nat.zero_mul, Nat.add_zero,
    Nat.add_zero, Plan.go_ok (go_rd {} hsrc (by rw [← hs, ← hE]) (readStop_of_near_or_host hps))]
  exact Plan.go_allOrNone (go_wr (sourceRead E d ps) (by rw [hl, hdst]) (by rw [hl]; exact hd))

/-- Settles O23: the working of the COPY is one read and, once the bytes have come, one write of what was read. -/
theorem copyMovesTheBytes : Obligations.CopyMovesTheBytes := by
  intro s id o ps pd h hm hok d hi hrows hsrc hdst hs hps hd hpd hf
  have hbytes : runBytes (s.opEnv o).d ps d.rowBytes = memRead (s.dp.mem.tier ps.tier) (keysFrom ps.addr d.rowBytes) :=
    runBytes_of_not_hbm (by omega)
  have hl : (runBytes (s.opEnv o).d ps d.rowBytes).length = d.rowBytes := by rw [hbytes, length_memRead_keysFrom]
  obtain ⟨t, hx, hend, hin, hout⟩ := exec_of_lastWrite (i := .copy id) rfl h hm rfl
    (((Reading.nil.met (s.opEnv o) d.src).rd hps d.rowBytes false).met (s.opEnv o) d.dst)
    (go_copyPlan rfl hi hrows hsrc hdst hs hps hd hf) (by simp [waitsForHost, hok]) (by omega) (by omega)
    (hbytes ▸ memRead_lt _ _)
  refine ⟨t, hx, hend, fun j hj => ?_, fun tier k hk ho => hout tier k hk (by rwa [← hl] at ho)⟩
  rw [hin j (by rwa [← hl] at hj)]
  simp [hbytes, memRead, keysFrom, byteAt]

end Sys2Proof.Proofs.Mov
end

section
/-! SUPPORT. The family of 09_tiers_and_reel.md, part 2: fences. -/

namespace Sys2Proof.Proofs.Fences

open Sys2Proof.Machine

/-- The state in which a fence that waits no longer completes: with `INVAL` without its context's cached translations (R303), and
with its own signal given (R447 step 4). -/
def fenceSignalled (s : State) (o : Op) : State :=
  let f := fncOf o.desc
  let s0 : State := if f.inval then s.setDp (dropXlats s.dp o.ctx) else s
  if !f.sigEn then s0 else if f.remote then remoteSignal s0 f else s0.signal f.setSig f.value

/-- A fence waits for its earlier ops and for its signal (R447 steps 1 and 2). -/
theorem exec_fnc_of_waits {s : State} {id : Nat} {o : Op} (h : Started s id o .fnc)
    (hw : fenceStep1 s o = false ∨
      ((fncOf o.desc).waitEn = true ∧ kvGet 0 s.sig (fncOf o.desc).waitSig < (fncOf o.desc).thresh)) :
    exec (.fnc id) s = .next s := by
  change execFnc id s = _
  rw [execFnc, live_onForm _ h]
  have hw' : !fenceStep1 s o ∨ ((fncOf o.desc).waitEn ∧ kvGet 0 s.sig (fncOf o.desc).waitSig < (fncOf o.desc).thresh) := by
    simpa using hw
  simp only [if_pos hw', State.inside_self]

/-- A fence that waits no longer gives its signal and completes, and with `STEP_EN` closes a step (R447 steps 3 to 5). -/
theorem exec_fnc_of_passes {s : State} {id : Nat} {o : Op} (h : Started s id o .fnc) (he : fenceStep1 s o = true)
    (hw : (fncOf o.desc).waitEn = true → (fncOf o.desc).thresh ≤ kvGet 0 s.sig (fncOf o.desc).waitSig) :
    exec (.fnc id) s = .next (s.inside
      (if (fncOf o.desc).stepEn then passStep (finishOp (fenceSignalled s o) o.id 0 0) o.ctx
       else finishOp (fenceSignalled s o) o.id 0 0)) := by
  change execFnc id s = _
  rw [execFnc, live_onForm _ h]
  have hw' : ¬ (!fenceStep1 s o ∨ ((fncOf o.desc).waitEn ∧ kvGet 0 s.sig (fncOf o.desc).waitSig < (fncOf o.desc).thresh)) := by
    simpa [he] using hw
  simp only [if_neg hw']
  rfl

/-- Settles O18: the clauses are what a fence waits for, and what it does after that. -/
theorem fenceRules : Obligations.FenceRules := by
  intro s id o h f
  refine ⟨exec_fnc_of_waits h, fun he hw => ?_⟩
  intro s0 s1
  have hs : fenceSignalled s o = s1 := by
    simp only [fenceSignalled, s1, s0, f]
    cases (fncOf o.desc).inval <;> cases (fncOf o.desc).sigEn <;> cases (fncOf o.desc).remote <;> rfl
  rw [exec_fnc_of_passes h he hw, hs]
  exact ⟨fun hstep => by rw [if_neg (ne_true_of_eq_false hstep)], fun hstep => by rw [if_pos hstep]⟩

end Sys2Proof.Proofs.Fences
end

section
/-! SUPPORT. The family of 09_tiers_and_reel.md, part 3: the frames of a reel, and MRK, PSH and POP. -/

namespace Sys2Proof.Proofs.ReelOps

open Sys2Proof.Machine

/-! ## Ops of the reel -/

/-- The reel and the frame that a reel op names. -/
def namedFrame (s : State) (o : Op) (d : ReelDesc) : Option (Reel × ReelFrame) :=
  (findReel s.dp o.ctx d.bay).bind (fun r => (r.frame d.tag).map (fun f => (r, f)))

/-- An op that its checks reject ends with their code (R329). -/
theorem onReel_of_rejected {kind : Nat} (k : State → Op → ReelDesc → Option (Reel × ReelFrame) → State) {s : State} {o : Op}
    {c : Nat}
    (h : ((reelIssue kind o.desc).run {} : Except Nat ReelDesc × Eff).1 = .error c) : onReel kind k s o = finishOp s o.id c 0 := by
  unfold onReel
  split
  next c' _ he => rw [he] at h; cases h; rfl
  next d _ he => rw [he] at h; cases h

/-- An op that its checks let pass goes to the frame that it names. -/
theorem onReel_of_issued {kind : Nat} (k : State → Op → ReelDesc → Option (Reel × ReelFrame) → State) {s : State} {o : Op}
    {d : ReelDesc}
    (h : ((reelIssue kind o.desc).run {} : Except Nat ReelDesc × Eff).1 = .ok d) : onReel kind k s o = k s o d (namedFrame s o d) := by
  unfold onReel
  split
  next c _ he => rw [he] at h; cases h
  next d' _ he => rw [he] at h; cases h; rfl

theorem exec_mrkOpen {s : State} {id : Nat} {o : Op} (h : Works s id o .mrkOpen) :
    exec (.mrkOpen id) s = .next (s.inside (onReel 2 runOpen s o)) := live_onWork _ h

theorem exec_mrkClose {s : State} {id : Nat} {o : Op} (h : Works s id o .mrkClose) :
    exec (.mrkClose id) s = .next (s.inside (onReel 2 runClose s o)) := live_onWork _ h

theorem exec_mrkDrop {s : State} {id : Nat} {o : Op} (h : Works s id o .mrkDrop) :
    exec (.mrkDrop id) s = .next (s.inside (onReel 2 runDrop s o)) := live_onWork _ h

theorem exec_psh {s : State} {id : Nat} {o : Op} (h : Works s id o .psh) :
    exec (.psh id) s = .next (s.inside (onReel 0 runPsh s o)) := live_onWork _ h

theorem exec_pop {s : State} {id : Nat} {o : Op} (h : Works s id o .pop) :
    exec (.pop id) s = .next (s.inside (onReel 1 runPop s o)) := live_onWork _ h

/-! ## MRK (R313, R316, R320) -/

/-- A frame that OPEN puts at the top of a reel. -/
def newFrame (d : ReelDesc) : ReelFrame := { tag := d.tag, rank := d.rank }

theorem runOpen_of_named {s : State} {o : Op} {d : ReelDesc} {rf : Option (Reel × ReelFrame)} (h : rf.isSome = true) :
    runOpen s o d rf = reelIgnored s o := if_pos h

theorem runOpen_of_full {s : State} {o : Op} {d : ReelDesc} {r : Reel} (h : findReel s.dp o.ctx d.bay = some r)
    (hf : (reelRec r.record).maxFrames ≤ r.frames.length) : runOpen s o d none = reelIgnored s o := by
  simp [runOpen, h, hf]

theorem runOpen_of_room {s : State} {o : Op} {d : ReelDesc} {r : Reel} (h : findReel s.dp o.ctx d.bay = some r)
    (hf : r.frames.length < (reelRec r.record).maxFrames) :
    runOpen s o d none = finishOp (s.setDp (putReel s.dp { r with frames := r.frames ++ [newFrame d] })) o.id 0 0 := by
  simp [runOpen, h, Nat.not_le.mpr hf, newFrame]

/-- The first OPEN of a bay reads its record, which may lie in host memory. -/
theorem runOpen_of_record_waits {s : State} {o : Op} {d : ReelDesc} {x : Nat} {e : Eff} {ts : List (Nat × Nat)}
    (h : findReel s.dp o.ctx d.bay = none) (hr : (reelRecord (s.opEnv o) d.bay).run {} = (.ok x, e))
    (hw : waitsForHost o e = some ts) : runOpen s o d none = readOn s o ts := by
  simp [runOpen, h, hr, hw]

theorem runOpen_of_record {s : State} {o : Op} {d : ReelDesc} {x : Nat} {e : Eff}
    (h : findReel s.dp o.ctx d.bay = none) (hr : (reelRecord (s.opEnv o) d.bay).run {} = (.ok x, e))
    (hw : waitsForHost o e = none) :
    runOpen s o d none =
      settle (s.setDp (putReel s.dp { ctx := o.ctx, bay := d.bay, record := x, frames := [newFrame d] })) o e 0 := by
  simp [runOpen, h, hr, hw, newFrame]

theorem runClose_of_opened {s : State} {o : Op} {d : ReelDesc} {r : Reel} {f : ReelFrame} (h : f.st = .opened) :
    runClose s o d (some (r, f)) = finishOp (s.setDp (putReel s.dp (r.putFrame { f with st := .closed }))) o.id 0 0 := by
  simp [runClose, h]

theorem runClose_of_not_opened {s : State} {o : Op} {d : ReelDesc} {r : Reel} {f : ReelFrame} (h : f.st ≠ .opened) :
    runClose s o d (some (r, f)) = finishOp s o.id 0 0 := by
  simp [runClose, h]

theorem namedFrame_of_no_reel {s : State} {o : Op} {d : ReelDesc} (h : findReel s.dp o.ctx d.bay = none) : namedFrame s o d = none := by
  simp [namedFrame, h]

/-- Settles O26: an op that passes its checks goes by the frame that it names. That OPEN first sends the read of a record in host
memory (R469) is the model's choice (log 45). -/
theorem reelMarks : Obligations.ReelMarks := by
  intro s id o d issued here ignored
  obtain ⟨nf, hnf⟩ : ∃ nf, nf = namedFrame s o d := ⟨_, rfl⟩
  rw [show here = nf from hnf.symm]
  refine ⟨fun c hc => ⟨fun h => ?_, fun h => ?_, fun h => ?_⟩, fun hd => ⟨fun h => ?_, fun h => ?_, fun h => ?_⟩⟩
  · rw [exec_mrkOpen h, onReel_of_rejected _ hc]
  · rw [exec_mrkClose h, onReel_of_rejected _ hc]
  · rw [exec_mrkDrop h, onReel_of_rejected _ hc]
  · rw [exec_mrkOpen h, onReel_of_issued _ hd, ← hnf]
    refine ⟨fun hn => ?_, fun r hn hr => ⟨fun hroom => ?_, fun hfull => ?_⟩, fun hr x e hx => ⟨fun ts hw => ?_, fun hw => ?_⟩⟩
    · rw [runOpen_of_named hn]; rfl
    · rw [hn, runOpen_of_room hr hroom]; rfl
    · rw [hn, runOpen_of_full hr hfull]; rfl
    · rw [hnf, namedFrame_of_no_reel hr, runOpen_of_record_waits hr hx hw]
    · rw [hnf, namedFrame_of_no_reel hr, runOpen_of_record hr hx hw]; rfl
  · rw [exec_mrkClose h, onReel_of_issued _ hd, ← hnf]
    refine ⟨fun hn => ?_, fun r f hn => ⟨fun hst => ?_, fun hst => ?_⟩⟩
    · rw [hn]; rfl
    · rw [hn, runClose_of_opened hst]
    · rw [hn, runClose_of_not_opened hst]
  · rw [exec_mrkDrop h, onReel_of_issued _ hd, ← hnf]
    exact ⟨fun hn => by rw [hn]; rfl, fun r f hn => by rw [hn]; rfl⟩

/-! ## PSH (R317, R324) -/

theorem frameCode_of_broken {f : ReelFrame} (h : f.st = .broken) : frameCode f = 0x01A3 := if_pos h

theorem frameCode_of_lost {f : ReelFrame} (h : f.st = .lost) : frameCode f = 0x01A5 := by simp [frameCode, h]

theorem frameCode_of_sound {f : ReelFrame} (hb : f.st ≠ .broken) (hl : f.st ≠ .lost) : frameCode f = 0 := by simp [frameCode, hb, hl]

/-- A push onto a frame that is BROKEN or LOST ends with its code. -/
theorem runPsh_of_frameCode {s : State} {o : Op} {d : ReelDesc} {r : Reel} {f : ReelFrame} (h : frameCode f ≠ 0) :
    runPsh s o d (some (r, f)) = finishOp (endWait s o) o.id (frameCode f) 0 := by
  simp [runPsh, h]

theorem runPsh_of_closed {s : State} {o : Op} {d : ReelDesc} {r : Reel} {f : ReelFrame} (h : f.st = .closed) :
    runPsh s o d (some (r, f)) = reelIgnored (endWait s o) o := by
  simp [runPsh, frameCode, h]

/-- A push onto an OPEN frame, its rows read, for which there is no room waits (R324). -/
theorem runPsh_of_no_room {s : State} {o : Op} {d : ReelDesc} {r : Reel} {f : ReelFrame} {x : ReelEntry × List Nat} {e : Eff}
    (h : f.st = .opened) (hx : (pshPlan (s.opEnv o) d).run {} = (.ok x, e)) (hw : waitsForHost o e = none)
    (hr : (reelWork s.dp r (pushEntry (s.opEnv o) d.tag x.1 x.2)).1 = .error 0) :
    runPsh s o d (some (r, f)) =
      beginWait (s.afterReel o.ctx (reelWork s.dp r (pushEntry (s.opEnv o) d.tag x.1 x.2)).2) o := by
  simp [runPsh, frameCode, h, hx, hw, hr]

/-- A push onto an OPEN frame, its rows read, for which there is room puts its entry on top (R317). -/
theorem runPsh_of_pushed {s : State} {o : Op} {d : ReelDesc} {r : Reel} {f : ReelFrame} {x : ReelEntry × List Nat} {e : Eff} {u : Unit}
    (h : f.st = .opened) (hx : (pshPlan (s.opEnv o) d).run {} = (.ok x, e)) (hw : waitsForHost o e = none)
    (hr : (reelWork s.dp r (pushEntry (s.opEnv o) d.tag x.1 x.2)).1 = .ok u) :
    runPsh s o d (some (r, f)) =
      settle (endWait (s.afterReel o.ctx (reelWork s.dp r (pushEntry (s.opEnv o) d.tag x.1 x.2)).2) o) o e 0 := by
  simp [runPsh, frameCode, h, hx, hw, hr]

/-! ## The wait of a push (R324, R344) -/

theorem beginWait_of_none {s : State} {o : Op} (h : o.waitSince = none) : beginWait s o = s.putOp { o with waitSince := some s.time } := by
  simp [beginWait, h]

theorem beginWait_of_some {s : State} {o : Op} (h : o.waitSince.isSome = true) : beginWait s o = s := if_pos h

/-- The frame of a push that has waited too long becomes BROKEN. -/
def frameBroken (s : State) (o : Op) : State :=
  match namedFrame s o (reelDesc o.desc) with
  | some (r, f) =>
    if f.st = .broken ∨ f.st = .lost then s
    else (s.setDp (putReel s.dp (r.putFrame { f with st := .broken }))).bump kReelBrokenCount 1
  | none => s

theorem frameBroken_keeps (s : State) (o : Op) : (frameBroken s o).ops = s.ops ∧ (frameBroken s o).dp.mem = s.dp.mem := by
  unfold frameBroken
  split
  · split
    · exact ⟨rfl, rfl⟩
    · exact ⟨rfl, bump_mem _ _ _⟩
  · exact ⟨rfl, rfl⟩

theorem endWait_keeps (s : State) (o : Op) : (endWait s o).ops = s.ops ∧ (endWait s o).dp.mem = s.dp.mem := by
  unfold endWait
  split
  · exact ⟨rfl, bump_mem _ _ _⟩
  · exact ⟨rfl, rfl⟩

theorem finishOp_mem (s : State) (id status info : Nat) : (finishOp s id status info).dp.mem = s.dp.mem := by
  rw [finishOp_frame]

theorem exec_reelWaitLimit_of_expired {s : State} {id : Nat} {o : Op} {t : Nat} (h : Started s id o .psh) (ht : o.waitSince = some t)
    (he : s.expired t (s.obj kReelWaitLimitUs * 1000) = true) :
    exec (.reelWaitLimit id) s = .next (s.inside (finishOp (endWait (frameBroken s o) o) o.id 0x01A3 0)) := by
  change execReelWaitLimit id s = _
  rw [execReelWaitLimit, live_onForm _ h]
  simp only [ht, he, if_true]
  rfl

/-- A push that has waited too long completes with 0x01A3 and stores nothing. -/
theorem reelWaitLimit_ends {s : State} {id : Nat} {o : Op} {t : Nat} (h : Started s id o .psh) (ht : o.waitSince = some t)
    (he : s.expired t (s.obj kReelWaitLimitUs * 1000) = true) :
    ∃ u, exec (.reelWaitLimit id) s = .next u ∧ EndedAs u id 0x01A3 0 ∧ u.dp.mem = s.dp.mem := by
  obtain ⟨hbops, hbmem⟩ := frameBroken_keeps s o
  obtain ⟨hwops, hwmem⟩ := endWait_keeps (frameBroken s o) o
  have hops : (endWait (frameBroken s o) o).op? id = s.op? id := by rw [State.op?, State.op?, hwops, hbops]
  have ⟨_, hop, hphase, _⟩ := h
  refine ⟨_, exec_reelWaitLimit_of_expired h ht he, ?_, ?_⟩
  · rw [op?_id hop]
    exact finishOp_ended (o := o) (hops.trans hop) (by rw [hphase]; decide)
  · rw [State.inside_dp, finishOp_mem, hwmem, hbmem]

/-! ## POP (R319) -/

/-- A pop of a frame that is BROKEN or LOST ends with its code. -/
theorem runPop_of_frameCode {s : State} {o : Op} {d : ReelDesc} {r : Reel} {f : ReelFrame} (h : frameCode f ≠ 0) :
    runPop s o d (some (r, f)) = finishOp s o.id (frameCode f) 0 := by
  simp [runPop, h]

theorem runPop_of_empty {s : State} {o : Op} {d : ReelDesc} {r : Reel} {f : ReelFrame} (h : frameCode f = 0) (he : f.entries = []) :
    runPop s o d (some (r, f)) = reelIgnored s o := by
  simp [runPop, h, he]

theorem runPop_of_disagrees {s : State} {o : Op} {d : ReelDesc} {r : Reel} {f : ReelFrame} {e : ReelEntry} (h : frameCode f = 0)
    (he : f.entries.head? = some e) (ha : popAgrees d e = false) : runPop s o d (some (r, f)) = finishOp s o.id 0x01A4 0 := by
  simp [runPop, h, he, ha]

/-- A pop whose blocks cannot come back yet waits (R322, R324). -/
theorem runPop_of_no_room {s : State} {o : Op} {d : ReelDesc} {r : Reel} {f : ReelFrame} {e : ReelEntry} (h : frameCode f = 0)
    (he : f.entries.head? = some e) (ha : popAgrees d e = true) (hr : (reelWork s.dp r (topData (s.opEnv o) f e)).1 = .error 0) :
    runPop s o d (some (r, f)) = s.afterReel o.ctx (reelWork s.dp r (topData (s.opEnv o) f e)).2 := by
  simp [runPop, h, he, ha, hr]

theorem runPop_of_unread {s : State} {o : Op} {d : ReelDesc} {r : Reel} {f : ReelFrame} {e : ReelEntry} {c : Nat} (h : frameCode f = 0)
    (he : f.entries.head? = some e) (ha : popAgrees d e = true) (hr : (reelWork s.dp r (topData (s.opEnv o) f e)).1 = .error c)
    (hc : c ≠ 0) :
    runPop s o d (some (r, f)) = finishOp (s.afterReel o.ctx (reelWork s.dp r (topData (s.opEnv o) f e)).2) o.id c 0 := by
  simp [runPop, h, he, ha, hr]

/-- A pop whose entry has been read writes it out and takes it away. -/
theorem runPop_of_popped {s : State} {o : Op} {d : ReelDesc} {r q : Reel} {f : ReelFrame} {e : ReelEntry} {data : List Nat} {x : Eff}
    (h : frameCode f = 0) (he : f.entries.head? = some e) (ha : popAgrees d e = true)
    (hr : (reelWork s.dp r (topData (s.opEnv o) f e)).1 = .ok data)
    (hx : (popPlan ((s.afterReel o.ctx (reelWork s.dp r (topData (s.opEnv o) f e)).2).opEnv o) d e data).run {} = (.ok (), x))
    (hq : findReel (s.afterReel o.ctx (reelWork s.dp r (topData (s.opEnv o) f e)).2).dp o.ctx d.bay = some q) :
    runPop s o d (some (r, f)) =
      settle ((s.afterReel o.ctx (reelWork s.dp r (topData (s.opEnv o) f e)).2).setDp
        (putReel (s.afterReel o.ctx (reelWork s.dp r (topData (s.opEnv o) f e)).2).dp (popEntry q d.tag))) o x
        (firstCode codeOrder x.codes) := by
  simp [runPop, h, he, ha, hr, hx, hq]

/-! ## Runs of the engine's work -/

/-- Work of a reel engine run from where it stands. -/
abbrev goes {α : Type} (p : ReelWork α) (w : ReelSt) : Except Nat α × ReelSt := p.run w

theorem goes_bind {α β : Type} (p : ReelWork α) (k : α → ReelWork β) (w : ReelSt) :
    goes (p >>= k) w = match goes p w with
      | (.ok a, w1) => goes (k a) w1
      | (.error c, w1) => (.error c, w1) := by
  change (match goes p w with | (a, w1) => ExceptT.bindCont k a w1) = _
  rcases goes p w with ⟨_ | a, w1⟩ <;> rfl

theorem goes_ok {α β : Type} {p : ReelWork α} {k : α → ReelWork β} {w w1 : ReelSt} {a : α} (h : goes p w = (.ok a, w1)) :
    goes (p >>= k) w = goes (k a) w1 := by rw [goes_bind, h]

theorem goes_get (w : ReelSt) : goes (get : ReelWork ReelSt) w = (.ok w, w) := rfl

theorem goes_reelSet (f : Reel → Reel) (w : ReelSt) : goes (reelSet f) w = (.ok (), { w with reel := f w.reel }) := rfl

theorem goes_reelCount (k n : Nat) (w : ReelSt) : goes (reelCount k n) w = (.ok (), { w with dp := bump w.dp k n }) := rfl

/-- Accesses change the memories as they stand, and not the reel. -/
theorem goes_reelDo {α : Type} (E : Env) (p : Env → Plan α) (w : ReelSt) :
    goes (reelDo E p) w =
      (((p { E with d := w.dp }).go {}).1,
       { w with dp := applyEff E ((p { E with d := w.dp }).go {}).2 w.dp, acts := ((p { E with d := w.dp }).go {}).2.acts ++ w.acts }) := by
  unfold reelDo
  rw [goes_ok (goes_get w)]
  show goes (match ((p { E with d := w.dp }).go {}).1 with | .ok a => pure a | .error c => throw c) _ = _
  rcases ((p { E with d := w.dp }).go {}).1 with c | a <;> rfl

theorem goes_reelDo_ok {α : Type} {E : Env} {p : Env → Plan α} {w : ReelSt} {a : α} {e : Eff}
    (h : (p { E with d := w.dp }).go {} = (.ok a, e)) :
    goes (reelDo E p) w = (.ok a, { w with dp := applyEff E e w.dp, acts := e.acts ++ w.acts }) := by
  rw [goes_reelDo, h]

/-! ## Frames by their tags -/

theorem frame_tag {r : Reel} {tag : Nat} {f : ReelFrame} (h : r.frame tag = some f) : f.tag = tag := by
  simpa using List.find?_some h

/-- A change of frames that keeps their tags. -/
theorem frame_map (r : Reel) {g : ReelFrame → ReelFrame} (hg : ∀ f, (g f).tag = f.tag) (tag : Nat) :
    ({ r with frames := r.frames.map g } : Reel).frame tag = (r.frame tag).map g := by
  have hp : ((fun f : ReelFrame => decide (f.tag = tag)) ∘ g) = (fun f => decide (f.tag = tag)) := by
    funext f; simp [hg f]
  rw [Reel.frame, List.find?_map, hp, Reel.frame]

theorem frame_putFrame (r : Reel) (f : ReelFrame) (tag : Nat) :
    (r.putFrame f).frame tag = (r.frame tag).map (fun x => if x.tag = f.tag then f else x) :=
  frame_map r (fun x => by split <;> simp_all) tag

theorem frame_putFrame_same {r : Reel} {f g : ReelFrame} (h : r.frame f.tag = some g) : (r.putFrame f).frame f.tag = some f := by
  rw [frame_putFrame, h, Option.map_some, if_pos (frame_tag h)]

theorem frame_setBlock (r : Reel) (t b : Nat) (v : ReelBlock) (tag : Nat) :
    (r.setBlock t b v).frame tag = (r.frame tag).map (fun f => if f.tag = t then { f with blocks := f.blocks.set b v } else f) :=
  frame_map r (fun x => by split <;> rfl) tag

theorem frame_dropFrame (r : Reel) (tag : Nat) : (r.dropFrame tag).frame tag = none := by
  simp [Reel.frame, Reel.dropFrame, List.find?_eq_none]

/-! ## What making blocks resident leaves: the entries of the frames -/

/-- The entries of the frame that a tag names. -/
def entriesOf (r : Reel) (tag : Nat) : Option (List ReelEntry) := (r.frame tag).map (·.entries)

theorem entriesOf_setBlock (r : Reel) (t b : Nat) (v : ReelBlock) (tag : Nat) : entriesOf (r.setBlock t b v) tag = entriesOf r tag := by
  rw [entriesOf, frame_setBlock, Option.map_map]
  exact congrArg (fun g => (r.frame tag).map g) (funext fun f => by rw [Function.comp_apply]; split <;> rfl)

/-- Work of a reel engine that, where it comes to its end, leaves the entries of a frame. -/
def Keeps {α : Type} (tag : Nat) (p : ReelWork α) : Prop :=
  ∀ w a w1, goes p w = (.ok a, w1) → entriesOf w1.reel tag = entriesOf w.reel tag

theorem Keeps.bind {α β : Type} {tag : Nat} {p : ReelWork α} {k : α → ReelWork β} (hp : Keeps tag p) (hk : ∀ a, Keeps tag (k a)) :
    Keeps tag (p >>= k) := by
  intro w b w2 h
  rw [goes_bind] at h
  rcases hpw : goes p w with ⟨c | a, w1⟩
  · rw [hpw] at h; cases h
  · rw [hpw] at h
    exact (hk a w1 b w2 h).trans (hp w a w1 hpw)

theorem keeps_pure {α : Type} (tag : Nat) (a : α) : Keeps tag (pure a : ReelWork α) := by
  intro w b w1 h; cases h; rfl

theorem keeps_throw {α : Type} (tag c : Nat) : Keeps tag (throw c : ReelWork α) := by
  intro w b w1 h; cases h

theorem keeps_get (tag : Nat) : Keeps tag (get : ReelWork ReelSt) := by
  intro w b w1 h; cases h; rfl

theorem keeps_reelSet {tag : Nat} {f : Reel → Reel} (hf : ∀ r, entriesOf (f r) tag = entriesOf r tag) : Keeps tag (reelSet f) := by
  intro w b w1 h; cases h; exact hf w.reel

theorem keeps_reelCount (tag k n : Nat) : Keeps tag (reelCount k n) := by
  intro w b w1 h; cases h; rfl

theorem keeps_reelTether (tag ctx spill : Nat) : Keeps tag (reelTether ctx spill) := by
  unfold reelTether; split
  · exact keeps_reelCount _ _ _
  · exact keeps_pure _ _

theorem keeps_reelDo {α : Type} (tag : Nat) (E : Env) (p : Env → Plan α) : Keeps tag (reelDo E p) := by
  intro w b w1 h
  rw [goes_reelDo] at h
  obtain ⟨-, rfl⟩ := Prod.ext_iff.mp h
  rfl

/-- Work that ends early has no end at which it could have changed anything. -/
theorem keeps_bind_throw {α β : Type} (tag c : Nat) (p : ReelWork α) : Keeps tag (p >>= fun _ => (throw c : ReelWork β)) := by
  intro w b w1 h
  rw [goes_bind] at h
  rcases hpw : goes p w with ⟨c | a, w1⟩ <;> rw [hpw] at h <;> cases h

theorem keeps_spillOne (tag : Nat) (E : Env) (busy : List (Nat × Nat)) : Keeps tag (spillOne E busy) := by
  unfold spillOne
  refine (keeps_get tag).bind fun w => ?_
  extract_lets r R
  split
  next => exact keeps_pure _ _
  next v hv =>
    split
    next x j hx hj =>
      refine (keeps_reelDo tag _ _).bind fun bs => ?_
      extract_lets jp
      have hjp : ∀ u, Keeps tag (jp u) := fun u =>
        (keeps_reelTether _ _ _).bind fun _ => (keeps_reelCount _ _ _).bind fun _ =>
          (keeps_reelSet fun r => entriesOf_setBlock _ _ _ _ _).bind fun _ => keeps_pure _ _
      split
      · exact (keeps_reelDo _ _ _).bind hjp
      · exact hjp ()
    next => exact keeps_pure _ _

theorem keeps_takeSlot (tag : Nat) (E : Env) (busy : List (Nat × Nat)) : Keeps tag (takeSlot E busy) := by
  have hslot : Keeps tag (do
      match (← (get : ReelWork ReelSt)).reel.freeSlot with
      | some k => pure k
      | none => throw 0 : ReelWork Nat) := by
    refine (keeps_get tag).bind fun w => ?_
    split
    · exact keeps_pure _ _
    · exact keeps_throw _ _
  unfold takeSlot
  refine (keeps_get tag).bind fun w => ?_
  split
  · exact keeps_pure _ _
  · refine (keeps_spillOne tag E busy).bind fun b => ?_
    split
    · exact hslot
    · exact keeps_throw _ _

theorem keeps_fetchBlock (tag : Nat) (E : Env) (t b : Nat) (busy : List (Nat × Nat)) (bad1 bad2 : Bool) :
    Keeps tag (fetchBlock E t b busy bad1 bad2) := by
  unfold fetchBlock
  refine (keeps_get tag).bind fun w => ?_
  extract_lets r R
  split
  next => exact keeps_pure _ _
  next x hx =>
    refine (keeps_takeSlot tag _ _).bind fun k => ?_
    extract_lets jp
    have hjp : ∀ bs, Keeps tag (jp bs) := fun bs => by
      refine (keeps_reelTether _ _ _).bind fun _ => (keeps_reelCount _ _ _).bind fun _ => ?_
      split
      · exact keeps_bind_throw _ _ _
      · exact (keeps_reelDo _ _ _).bind fun _ => keeps_reelSet fun r => entriesOf_setBlock _ _ _ _ _
    split
    · exact (keeps_reelDo _ _ _).bind hjp
    · exact (keeps_pure _ _).bind hjp

/-- A block that a frame gains changes none of its entries. -/
theorem entriesOf_addBlock (r : Reel) (tag : Nat) (x : ReelBlock) :
    entriesOf (match r.frame tag with
      | some f => r.putFrame { f with blocks := f.blocks ++ [x] }
      | none => r) tag = entriesOf r tag := by
  cases h : r.frame tag with
  | none => rfl
  | some f =>
    have htag : f.tag = tag := frame_tag h
    subst htag
    rw [entriesOf, entriesOf, frame_putFrame_same (f := { f with blocks := f.blocks ++ [x] }) h, h]
    rfl

theorem keeps_ensureBlocks (tag : Nat) (E : Env) (busy : List (Nat × Nat)) (bs : List Nat) : Keeps tag (ensureBlocks E tag busy bs) := by
  induction bs with
  | nil => exact keeps_pure _ _
  | cons b bs ih =>
    rw [ensureBlocks]
    refine (keeps_get tag).bind fun w => ?_
    split
    next x hx =>
      split
      · exact (keeps_fetchBlock _ _ _ _ _ _ _).bind fun _ => ih
      · exact ih
    next hx =>
      refine (keeps_takeSlot _ _ _).bind fun k => (keeps_reelSet fun r => ?_).bind fun _ => ih
      exact entriesOf_addBlock r tag { slot := k }

/-! ## Entries on top of frames (R316, R317, R319) -/

/-- A push that comes to its end has put its entry on top of its frame. -/
theorem pushEntry_puts_on_top {E : Env} {tag : Nat} {e : ReelEntry} {data : List Nat} {w w1 : ReelSt} {f : ReelFrame}
    (hf : w.reel.frame tag = some f) (h : goes (pushEntry E tag e data) w = (.ok (), w1)) :
    ∃ g, w1.reel.frame tag = some g ∧ g.entries = e :: f.entries := by
  rw [pushEntry, goes_ok (goes_get w), hf] at h
  dsimp only at h
  rw [goes_bind] at h
  rcases hw : goes (ensureBlocks E tag ((blockSpan f.bytes e.size).map (fun b => (tag, b))) (blockSpan f.bytes e.size)) w
    with ⟨c | u, w2⟩
  · rw [hw] at h; cases h
  · have hkept := keeps_ensureBlocks tag E _ _ w u w2 hw
    rw [entriesOf, entriesOf, hf, Option.map_some, Option.map_eq_some_iff] at hkept
    obtain ⟨g, hg, hge⟩ := hkept
    rw [hw] at h
    dsimp only at h
    rw [goes_ok (goes_get w2), hg] at h
    dsimp only at h
    rw [goes_bind, goes_reelDo] at h
    split at h
    next a w3 hw3 =>
      obtain ⟨-, rfl⟩ := Prod.ext_iff.mp hw3
      rw [goes_ok (goes_reelSet _ _), goes_ok (goes_reelCount _ _ _), goes_reelCount] at h
      cases h
      have htag := frame_tag hg
      subst htag
      exact ⟨_, frame_putFrame_same (f := { g with entries := e :: g.entries }) hg, by rw [hge]⟩
    next => cases h

/-- A frame goes with its last entry. -/
theorem popEntry_of_last {r : Reel} {tag : Nat} {f : ReelFrame} {e : ReelEntry} (hf : r.frame tag = some f) (he : f.entries = [e]) :
    (popEntry r tag).frame tag = none := by
  simp only [popEntry, hf, he, List.tail_cons, List.isEmpty_nil, if_true]
  exact frame_dropFrame r tag

/-- A frame of which an entry is taken keeps the others, and is CLOSED. -/
theorem popEntry_of_more {r : Reel} {tag : Nat} {f : ReelFrame} {e : ReelEntry} {es : List ReelEntry} (hf : r.frame tag = some f)
    (he : f.entries = e :: es) (hes : es ≠ []) : ∃ g, (popEntry r tag).frame tag = some g ∧ g.entries = es ∧ g.st = .closed := by
  have htag := frame_tag hf
  subst htag
  simp only [popEntry, hf, he, List.tail_cons, List.isEmpty_iff, hes, if_false]
  refine ⟨_, frame_putFrame_same (f := { f with entries := es, st := .closed, blocks := _ }) hf, rfl, rfl⟩

/-- Settles O27: an op goes by the state of the frame that it names, and the entries of a frame are a stack. That a POP of a frame
without entries is ignored and counted is the model's choice: R320 does not list it. -/
theorem pushAndPop : Obligations.PushAndPop := by
  refine ⟨fun s id o => ?_, fun E tag e data w w1 f hf h => pushEntry_puts_on_top hf h,
    fun r tag f e es hf he => ⟨fun hes => popEntry_of_last hf (hes ▸ he), fun hes => popEntry_of_more hf he hes⟩⟩
  intro d here ignored
  obtain ⟨nf, hnf⟩ : ∃ nf, nf = namedFrame s o d := ⟨_, rfl⟩
  rw [show here = nf from hnf.symm]
  refine ⟨fun h hd => ?_, fun h t ht he => reelWaitLimit_ends h ht he, fun h hd => ?_⟩
  · rw [exec_psh h, onReel_of_issued _ hd, ← hnf]
    refine ⟨fun hn => by rw [hn]; rfl, fun r f hn => ?_⟩
    rw [hn]
    refine ⟨fun hst => ?_, fun hst => ?_, fun hst => ?_, fun x e hst hx hw => ⟨fun h0 hs => ?_, fun h0 hs => ?_, fun u hu => ?_⟩⟩
    · rw [runPsh_of_frameCode (by rw [frameCode_of_broken hst]; decide), frameCode_of_broken hst]
    · rw [runPsh_of_frameCode (by rw [frameCode_of_lost hst]; decide), frameCode_of_lost hst]
    · rw [runPsh_of_closed hst]; rfl
    · rw [runPsh_of_no_room hst hx hw h0, beginWait_of_none hs]
    · rw [runPsh_of_no_room hst hx hw h0, beginWait_of_some hs]
    · rw [runPsh_of_pushed hst hx hw hu]
  · rw [exec_pop h, onReel_of_issued _ hd, ← hnf]
    refine ⟨fun hn => by rw [hn]; rfl, fun r f hn => ?_⟩
    rw [hn]
    refine ⟨fun hst => ?_, fun hst => ?_, fun hb hl hes => ?_, fun e es hb hl hes => ⟨fun ha => ?_, fun ha => ?_⟩⟩
    · rw [runPop_of_frameCode (by rw [frameCode_of_broken hst]; decide), frameCode_of_broken hst]
    · rw [runPop_of_frameCode (by rw [frameCode_of_lost hst]; decide), frameCode_of_lost hst]
    · rw [runPop_of_empty (frameCode_of_sound hb hl) hes]; rfl
    · rw [runPop_of_disagrees (frameCode_of_sound hb hl) (by rw [hes]; rfl) ha]
    · have hc := frameCode_of_sound hb hl
      have htop : f.entries.head? = some e := by rw [hes]; rfl
      exact ⟨fun h0 => by rw [runPop_of_no_room hc htop ha h0], fun c hr hne => by rw [runPop_of_unread hc htop ha hr hne],
        fun data x q hr hx hq => by rw [runPop_of_popped hc htop ha hr hx hq]⟩

/-! ## What the engine does on its own (R322, R323) -/

theorem exec_reelSpill {s : State} (c b : Nat) (h : s.off = false) :
    exec (.reelSpill c b) s =
      .next (s.inside (onReelEngine c b Reel.spills (fun E _ => do let _ ← spillOne E []) s)) := live_on _ h

theorem exec_reelFetch {s : State} (c b : Nat) (bad1 bad2 : Bool) (h : s.off = false) :
    exec (.reelFetch c b bad1 bad2) s =
      .next (s.inside (onReelEngine c b Reel.fetches (fun E r => match r.nextFetch with
        | some b => fetchBlock E b.1 b.2 [] bad1 bad2
        | none => pure ()) s)) := live_on _ h

theorem onReelEngine_of_idle {s : State} {c b : Nat} {r : Reel} {go : Reel → Bool} {w : Env → Reel → ReelWork Unit}
    (hr : findReel s.dp c b = some r) (hg : go r = false) : onReelEngine c b go w s = s := by
  simp [onReelEngine, hr, hg]

/-- Work of the engine that ends, or that loses a frame, meets no fault of its own access. -/
theorem onReelEngine_of_work {s : State} {c b : Nat} {r : Reel} {go : Reel → Bool} {w : Env → Reel → ReelWork Unit}
    {x : Except Nat Unit} {w1 : ReelSt} (hr : findReel s.dp c b = some r) (hg : go r = true)
    (hw : goes (w (s.env c) r) { dp := s.dp, reel := r } = (x, w1)) (hx : x = .ok () ∨ x = .error 0x01A5) :
    onReelEngine c b go w s = raiseDue (s.afterReel c w1) := by
  have hw' : reelWork s.dp r (w (s.env c) r) = (x, w1) := hw
  rcases hx with rfl | rfl <;> simp [onReelEngine, hr, hg, hw', afterAccess]

theorem goes_reelTether_of_partner (ctx : Nat) {spill : Nat} (h : spill = 2) (w : ReelSt) :
    goes (reelTether ctx spill) w = (.ok (), { w with dp := bump w.dp (objKey ctx kAcctBytesFabric) 65536 }) := by
  rw [reelTether, if_pos h]; rfl

theorem goes_reelTether_of_host (ctx : Nat) {spill : Nat} (h : spill = 1) (w : ReelSt) :
    goes (reelTether ctx spill) w = (.ok (), w) := by
  rw [reelTether, if_neg (by omega)]; rfl

/-- Without a block that may be spilled nothing happens. -/
theorem goes_spillOne_of_no_victim {E : Env} {busy : List (Nat × Nat)} {w : ReelSt}
    (hv : w.reel.victim (w.dp.partnerPages != 0) busy = none) : goes (spillOne E busy) w = (.ok false, w) := by
  rw [spillOne, goes_ok (goes_get w)]
  dsimp only
  rw [hv]
  rfl

/-- A block that goes to the partner crosses the tether, and its check is kept. -/
theorem goes_spillOne_to_partner {E : Env} {busy : List (Nat × Nat)} {w : ReelSt} {v : Nat × Nat} {x : ReelBlock} {j : Nat}
    {bs : List Nat} {e : Eff} (hv : w.reel.victim (w.dp.partnerPages != 0) busy = some v) (hx : w.reel.block? v.1 v.2 = some x)
    (hj : w.reel.freeSpill = some j) (hs : (reelRec w.reel.record).spill = 2)
    (hr : (rd { E with d := w.dp } ((reelRec w.reel.record).area + 65536 * x.slot) 65536).go {} = (.ok bs, e)) :
    goes (spillOne E busy) w = (.ok true,
      { dp := bump (bump (applyEff E e w.dp) (objKey w.reel.ctx kAcctBytesFabric) 65536) kReelSpillBytes 65536
        reel := w.reel.setBlock v.1 v.2 { slot := j, spilled := true, crc := crc64 bs, away := bs }
        acts := e.acts ++ w.acts }) := by
  rw [spillOne, goes_ok (goes_get w)]
  dsimp only
  rw [hv]
  dsimp only
  rw [hx, hj]
  dsimp only
  rw [goes_ok (goes_reelDo_ok hr), if_neg (by omega), goes_ok (goes_reelTether_of_partner _ hs _), goes_ok (goes_reelCount _ _ _),
    goes_ok (goes_reelSet _ _), if_pos hs]
  rfl

/-- A block that goes to host memory is written there, and its check is kept. -/
theorem goes_spillOne_to_host {E : Env} {busy : List (Nat × Nat)} {w : ReelSt} {v : Nat × Nat} {x : ReelBlock} {j : Nat}
    {bs : List Nat} {e e1 : Eff} (hv : w.reel.victim (w.dp.partnerPages != 0) busy = some v) (hx : w.reel.block? v.1 v.2 = some x)
    (hj : w.reel.freeSpill = some j) (hs : (reelRec w.reel.record).spill = 1)
    (hr : (rd { E with d := w.dp } ((reelRec w.reel.record).area + 65536 * x.slot) 65536).go {} = (.ok bs, e))
    (hw : (wr { E with d := applyEff E e w.dp } ((reelRec w.reel.record).spillAddr + 65536 * j) bs).go {} = (.ok (), e1)) :
    goes (spillOne E busy) w = (.ok true,
      { dp := bump (applyEff E e1 (applyEff E e w.dp)) kReelSpillBytes 65536
        reel := w.reel.setBlock v.1 v.2 { slot := j, spilled := true, crc := crc64 bs }
        acts := e1.acts ++ (e.acts ++ w.acts) }) := by
  rw [spillOne, goes_ok (goes_get w)]
  dsimp only
  rw [hv]
  dsimp only
  rw [hx, hj]
  dsimp only
  rw [goes_ok (goes_reelDo_ok hr), if_pos hs, goes_ok (goes_reelDo_ok hw), goes_ok (goes_reelTether_of_host _ hs _),
    goes_ok (goes_reelCount _ _ _), goes_ok (goes_reelSet _ _), if_neg (by omega)]
  rfl

theorem goes_takeSlot_of_free {E : Env} {busy : List (Nat × Nat)} {w : ReelSt} {k : Nat} (h : w.reel.freeSlot = some k) :
    goes (takeSlot E busy) w = (.ok k, w) := by
  rw [takeSlot, goes_ok (goes_get w), h]
  rfl

/-- A block that the partner gives back and that passes its check is written to the area. -/
theorem goes_fetchBlock_of_good {E : Env} {w : ReelSt} {t b k : Nat} {x : ReelBlock} {e : Eff} {bad1 bad2 : Bool}
    (hx : w.reel.block? t b = some x) (hk : w.reel.freeSlot = some k) (hs : (reelRec w.reel.record).spill = 2)
    (hc : crc64 x.away = x.crc) (hb : (bad1 && bad2) = false)
    (hw : (wr { E with d := bump (bump w.dp (objKey w.reel.ctx kAcctBytesFabric) 65536) kReelFetchBytes 65536 }
      ((reelRec w.reel.record).area + 65536 * k) x.away).go {} = (.ok (), e)) :
    goes (fetchBlock E t b [] bad1 bad2) w = (.ok (),
      { dp := applyEff E e (bump (bump w.dp (objKey w.reel.ctx kAcctBytesFabric) 65536) kReelFetchBytes 65536)
        reel := w.reel.setBlock t b { slot := k }
        acts := e.acts ++ w.acts }) := by
  rw [fetchBlock, goes_ok (goes_get w)]
  dsimp only
  rw [hx]
  dsimp only
  rw [goes_ok (goes_takeSlot_of_free hk), if_neg (by omega), pure_bind, goes_ok (goes_reelTether_of_partner _ hs _),
    goes_ok (goes_reelCount _ _ _), if_neg (by simpa [hc] using hb), goes_ok (goes_reelDo_ok hw), goes_reelSet]

/-- A block that the partner gives back and whose check fails twice makes its frame LOST. -/
theorem goes_fetchBlock_of_bad {E : Env} {w : ReelSt} {t b k : Nat} {x : ReelBlock} {bad1 bad2 : Bool}
    (hx : w.reel.block? t b = some x) (hk : w.reel.freeSlot = some k) (hs : (reelRec w.reel.record).spill = 2)
    (hc : crc64 x.away ≠ x.crc ∨ bad1 = true ∧ bad2 = true) :
    goes (fetchBlock E t b [] bad1 bad2) w = (.error 0x01A5,
      let l := loseFrame (bump (bump w.dp (objKey w.reel.ctx kAcctBytesFabric) 65536) kReelFetchBytes 65536) w.reel t 1
      { dp := l.1, reel := l.2, acts := w.acts }) := by
  have hbad : ((crc64 x.away != x.crc || bad1) && (crc64 x.away != x.crc || bad2)) = true := by
    rcases hc with hc | ⟨rfl, rfl⟩
    · simp [hc]
    · simp
  rw [fetchBlock, goes_ok (goes_get w)]
  dsimp only
  rw [hx]
  dsimp only
  rw [goes_ok (goes_takeSlot_of_free hk), if_neg (by omega), pure_bind, goes_ok (goes_reelTether_of_partner _ hs _),
    goes_ok (goes_reelCount _ _ _), if_pos hbad]
  rfl

/-- Settles O28: the clauses are the branches of the engine's work. That it takes the lowest free block, and that the model holds
what the partner keeps, is the model's choice (log 33). -/
theorem reelSpillsAndFetches : Obligations.ReelSpillsAndFetches := by
  intro s c b r hon hr R E
  refine ⟨fun hg => ?_, fun hg => ?_, fun hg bad1 bad2 => ?_, fun hg q x k hq hx hk hs => ?_⟩
  · rw [exec_reelSpill c b hon, onReelEngine_of_idle hr hg]; rfl
  · rw [exec_reelSpill c b hon]
    have hspill : ∀ {v : Bool} {w1 : ReelSt}, goes (spillOne E []) { dp := s.dp, reel := r } = (.ok v, w1) →
        onReelEngine c b Reel.spills (fun E _ => do let _ ← spillOne E []) s = raiseDue (s.afterReel c w1) :=
      fun h => onReelEngine_of_work hr hg (by rw [goes_ok h]; rfl) (.inl rfl)
    refine ⟨fun hv => ?_, fun v x j hv hx hj => ⟨fun hs bs e hrd => ?_, fun hs bs e e1 hrd hwr => ?_⟩⟩
    · rw [hspill (goes_spillOne_of_no_victim hv)]; rfl
    · rw [hspill (goes_spillOne_to_partner hv hx hj hs hrd), State.afterReel, List.append_nil]
    · rw [hspill (goes_spillOne_to_host hv hx hj hs hrd hwr), State.afterReel, List.append_nil]
  · rw [exec_reelFetch c b bad1 bad2 hon, onReelEngine_of_idle hr hg]; rfl
  · refine ⟨fun bad1 bad2 e hc hb hwr => ?_, fun bad1 bad2 hc => ?_⟩
    · rw [exec_reelFetch c b bad1 bad2 hon, onReelEngine_of_work hr hg
        (by rw [hq]; exact goes_fetchBlock_of_good hx hk hs hc hb hwr) (.inl rfl), State.afterReel, List.append_nil]
    · rw [exec_reelFetch c b bad1 bad2 hon, onReelEngine_of_work hr hg
        (by rw [hq]; exact goes_fetchBlock_of_bad hx hk hs hc) (.inr rfl)]
      rfl

end Sys2Proof.Proofs.ReelOps
end

section
/-! SUPPORT. The family of 09_tiers_and_reel.md, part 4: prefetch schedules. -/

namespace Sys2Proof.Proofs.Prefetch

open Sys2Proof.Machine

/-! ## RUN (R306, R312) -/

/-- What a RUN is rejected for besides its reserved fields (R306, R312). -/
def RunBad (s : State) (o : Op) : Prop :=
  aligned (pftDesc o.desc).addr 32 = false ∨ (pftDesc o.desc).window = 0 ∨ (pftDesc o.desc).entries = 0 ∨
    ∃ p ∈ earlierRuns s o, (pftDesc p.desc).id = (pftDesc o.desc).id

/-- What a RUN waits for: one of sixteen schedules, and the start of the earlier RUNs of its context (R306). -/
def RunWaits (s : State) (o : Op) : Prop :=
  16 ≤ s.scheds.length ∨ ∃ p ∈ earlierRuns s o, s.scheds.any (fun x => x.op == p.id) = false

/-- The schedule of a RUN before its first entry. -/
def runSched (o : Op) : Sched :=
  { op := o.id, ctx := o.ctx, id := (pftDesc o.desc).id, addr := (pftDesc o.desc).addr, entries := (pftDesc o.desc).entries
    rep := (pftDesc o.desc).rep, window := (pftDesc o.desc).window }

theorem exec_pftRun_of_new {s : State} {id : Nat} {o : Op} (h : Started s id o .pftRun)
    (hn : s.scheds.any (fun x => x.op == o.id) = false) : exec (.pftRun id) s = .next (s.inside (startRun s o)) := by
  change execPftRun id s = _
  rw [execPftRun, live_onForm _ h, hn]
  rfl

theorem startRun_of_reserved {s : State} {o : Op} (h : pftReservedOk o.desc = false) : startRun s o = finishOp s o.id 0x0104 0 := by
  simp [startRun, h]

/-- The test of `startRun` for a RUN that it rejects. -/
theorem runBad_iff {s : State} {o : Op} :
    (!aligned (pftDesc o.desc).addr 32 ∨ (pftDesc o.desc).window = 0 ∨ (pftDesc o.desc).entries = 0 ∨
      (earlierRuns s o).any (fun p => (pftDesc p.desc).id == (pftDesc o.desc).id)) ↔ RunBad s o := by
  simp [RunBad]

/-- The test of `startRun` for a RUN that waits. -/
theorem runWaits_iff {s : State} {o : Op} :
    (16 ≤ s.scheds.length ∨ (earlierRuns s o).any (fun p => !s.scheds.any (fun x => x.op == p.id))) ↔ RunWaits s o := by
  simp [RunWaits]

theorem startRun_of_bad {s : State} {o : Op} (h : pftReservedOk o.desc = true) (hb : RunBad s o) :
    startRun s o = finishOp s o.id 0x01A0 0 := by
  simp only [startRun, h, Bool.not_true, Bool.false_eq_true, if_false, if_pos (runBad_iff.mpr hb)]

theorem startRun_of_waits {s : State} {o : Op} (h : pftReservedOk o.desc = true) (hb : ¬ RunBad s o) (hw : RunWaits s o) :
    startRun s o = s := by
  simp only [startRun, h, Bool.not_true, Bool.false_eq_true, if_false, if_neg (mt runBad_iff.mp hb), if_pos (runWaits_iff.mpr hw)]

/-- A RUN that passes and waits no longer reads its first entry, which becomes current. -/
theorem startRun_of_entry {s : State} {o : Op} {w : Nat} {e : Eff} (h : pftReservedOk o.desc = true) (hb : ¬ RunBad s o)
    (hw : ¬ RunWaits s o) (hr : (rdRec (schedEnv s (runSched o)) (runSched o).addr 32).run {} = (.ok w, e))
    (he : schedEntryOk w = true) :
    startRun s o = { s.effect (schedEnv s (runSched o)) e with
      scheds := (s.effect (schedEnv s (runSched o)) e).scheds ++
        [becomeCurrent (s.effect (schedEnv s (runSched o)) e) (runSched o) 0 (schedEntry w)] } := by
  simp only [startRun, h, Bool.not_true, Bool.false_eq_true, if_false, if_neg (mt runBad_iff.mp hb), if_neg (mt runWaits_iff.mp hw)]
  simp only [runSched] at hr ⊢
  simp only [hr, he, if_true]

/-- Carrying out accesses changes the data path and what is sent. -/
theorem sends_effect (s : State) (E : Env) (e : Eff) : Sends (s.setDp (applyEff E e s.dp)) (s.effect E e) := sends_hostWrites _ _ _

/-- What changes the data path, the schedules and what is sent is a command's whole effect. -/
theorem inside_of_sends {s t : State} {d : Dp} (h : Sends (s.setDp d) t) (l : List Sched) :
    s.inside { t with scheds := l } = { t with scheds := l } := by
  unfold Sends at h
  rw [h]
  rfl

/-! ## CANCEL (R310, R320) -/

theorem exec_pftCancel {s : State} {id : Nat} {o : Op} (h : Started s id o .pftCancel) :
    exec (.pftCancel id) s = .next (s.inside (runCancel s o)) := live_onForm _ h

theorem runCancel_of_none {s : State} {o : Op} (h : pftReservedOk o.desc = true)
    (hp : (earlierRuns s o).find? (fun p => (pftDesc p.desc).id == (pftDesc o.desc).id) = none) :
    runCancel s o = finishOp (s.bump kReelIgnoredCount 1) o.id 0 0 := by
  simp only [runCancel, h, hp, Bool.not_true, Bool.false_eq_true, if_false]

/-- A CANCEL of a RUN whose schedule runs cancels the schedule. -/
theorem runCancel_of_running {s : State} {o p : Op} {x : Sched} (h : pftReservedOk o.desc = true)
    (hp : (earlierRuns s o).find? (fun p => (pftDesc p.desc).id == (pftDesc o.desc).id) = some p)
    (hx : s.scheds.find? (fun x => x.op == p.id) = some x) :
    runCancel s o = finishOp (cancelSched s x 0x01A1) o.id 0 0 := by
  simp only [runCancel, h, hp, hx, Bool.not_true, Bool.false_eq_true, if_false]

/-- A CANCEL of a RUN that waits at the engine ends the RUN. -/
theorem runCancel_of_waiting {s : State} {o p : Op} (h : pftReservedOk o.desc = true)
    (hp : (earlierRuns s o).find? (fun p => (pftDesc p.desc).id == (pftDesc o.desc).id) = some p)
    (hx : s.scheds.find? (fun x => x.op == p.id) = none) :
    runCancel s o = finishOp ((finishOp s p.id 0x01A1 0).bump kPftCancelCount 1) o.id 0 0 := by
  simp only [runCancel, h, hp, hx, Bool.not_true, Bool.false_eq_true, if_false]

/-! ## Gates and copies (R308, R309) -/

/-- The current entry of a schedule waits for its gate no longer. -/
def gatePassed (x : Sched) (e : SchedEntry) : Sched := { x with ready := x.ready ++ [(x.pos, e)], cur := none }

theorem exec_pftGateMet {s : State} (c k : Nat) (h : s.off = false) :
    exec (.pftGateMet c k) s = .next (s.inside (onPftGateMet c k s)) := live_on _ h

theorem onPftGateMet_of_unmet {s : State} {c k : Nat} {x : Sched} {e : SchedEntry} (hx : s.sched? c k = some x) (he : x.cur = some e)
    (hg : gateMet s x = false) : onPftGateMet c k s = s := by
  simp [onPftGateMet, hx, he, hg]

theorem onPftGateMet_of_met {s : State} {c k : Nat} {x : Sched} {e : SchedEntry} (hx : s.sched? c k = some x) (he : x.cur = some e)
    (hg : gateMet s x = true) :
    onPftGateMet c k s = nextEntry (startCopies s (gatePassed x e)) (fillWindow (gatePassed x e)) (x.pos + 1) := by
  simp [onPftGateMet, hx, he, hg, gatePassed]

/-- Copies whose sources lie outside host memory start without reads over ZelugLink. -/
theorem startCopies_of_no_reads {s : State} {z : Sched}
    (h : ∀ q ∈ (fillWindow z).inflight.drop z.inflight.length, copyReads s (fillWindow z) q = []) :
    startCopies s z = putSched s (fillWindow z) := by
  have hts : ((fillWindow z).inflight.drop z.inflight.length).flatMap (copyReads s (fillWindow z)) = [] :=
    List.flatMap_eq_nil_iff.mpr h
  unfold startCopies
  simp only [hts]
  split <;> rfl

/-- A schedule without one of its copies in flight. -/
def withoutCopy (x : Sched) (n : Nat) : Sched := { x with inflight := x.inflight.filter (fun q => q.1 ≠ n) }

/-- The state after a copy that has come about: its bytes stand, and copies that waited for the window start. -/
def afterCopy (s : State) (x : Sched) (n : Nat) (e : SchedEntry) : State :=
  (startCopies (schedCopy s x e).1 (withoutCopy x n)).bump kPftEntriesDone 1

/-- Whether a schedule has neither entries nor copies left. -/
def RunsOut (y : Sched) : Prop := y.cur = none ∧ y.ready = [] ∧ y.inflight = []

theorem exec_pftCopyComplete {s : State} (c k n : Nat) (h : s.off = false) :
    exec (.pftCopyComplete c k n) s = .next (s.inside (onPftCopyComplete c k n s)) := live_on _ h

section
variable {s : State} {c k n : Nat} {x : Sched} {p : Nat × SchedEntry} (hx : s.sched? c k = some x)
  (hp : x.inflight.find? (fun p => p.1 == n) = some p) (hw : copyWaits s x n = false) (hc : (schedCopy s x p.2).2 = 0)
include hx hp hw hc

/-- A copy that completes leaves its bytes, and its RUN runs on while entries or copies are left. -/
theorem onPftCopyComplete_of_left (hy : ¬ RunsOut (fillWindow (withoutCopy x n))) :
    onPftCopyComplete c k n s = afterCopy s x n p.2 := by
  have hy' : ¬ ((fillWindow (withoutCopy x n)).cur = none ∧ (fillWindow (withoutCopy x n)).ready.isEmpty ∧
      (fillWindow (withoutCopy x n)).inflight.isEmpty) := by
    simpa [RunsOut] using hy
  simp only [withoutCopy] at hy'
  simp only [onPftCopyComplete, hx, hp, hw, hc, ne_eq, not_true_eq_false, Bool.false_eq_true, if_false, if_neg hy']
  rfl

/-- The last copy of a RUN completes the RUN. -/
theorem onPftCopyComplete_of_last (hy : RunsOut (fillWindow (withoutCopy x n))) :
    onPftCopyComplete c k n s =
      finishOp { afterCopy s x n p.2 with scheds := (afterCopy s x n p.2).scheds.filter (fun z => z.op ≠ x.op) } x.op 0 0 := by
  have hy' : (fillWindow (withoutCopy x n)).cur = none ∧ (fillWindow (withoutCopy x n)).ready.isEmpty ∧
      (fillWindow (withoutCopy x n)).inflight.isEmpty := by
    simpa [RunsOut] using hy
  simp only [withoutCopy] at hy'
  simp only [onPftCopyComplete, hx, hp, hw, hc, ne_eq, not_true_eq_false, Bool.false_eq_true, if_false, if_pos hy']
  rfl

end

/-! ## The hold limit (R310) -/

theorem exec_pftHoldLimit {s : State} (id : Nat) (h : s.off = false) :
    exec (.pftHoldLimit id) s = .next (s.inside (onPftHoldLimit id s)) := live_on _ h

theorem onPftHoldLimit_of_within {s : State} {id t : Nat} {o : Op} (hop : s.op? id = some o) (ht : o.heldSince = some t)
    (he : s.expired t (s.obj kPftHoldLimitUs * 1000) = false) : onPftHoldLimit id s = s := by
  simp [onPftHoldLimit, hop, ht, he]

theorem onPftHoldLimit_of_expired {s : State} {id t : Nat} {o : Op} (hop : s.op? id = some o) (hp : o.phase = .placed)
    (ht : o.heldSince = some t) (he : s.expired t (s.obj kPftHoldLimitUs * 1000) = true) :
    onPftHoldLimit id s = (s.scheds.filter (fun x => heldBy x o)).foldl (fun s x => cancelSched s x 0x01A1) s := by
  simp [onPftHoldLimit, hop, hp, ht, he]

/-- A started op that is completed ends with its status. -/
theorem ends_of_finishOp {i : Instr} {s : State} {id st : Nat} {o : Op} {f : Form} (h : Started s id o f)
    (he : exec i s = .next (s.inside (finishOp s o.id st 0))) : ∃ t, exec i s = .next t ∧ EndedAs t id st 0 := by
  have ⟨_, hop, hphase, _⟩ := h
  rw [op?_id hop] at he
  exact ⟨_, he, finishOp_ended (o := o) hop (by rw [hphase]; decide)⟩

/-- Settles O38: the clauses are the branches of the schedules' commands. That a copy sends its reads of host memory when it starts
is the model's choice (log 45), and that `SCHED_ADDR` of a CANCEL counts as a reserved field is log 44. -/
theorem prefetchRules : Obligations.PrefetchRules := by
  intro s id o d
  refine ⟨fun h hn => ?_, fun h hres => ?_, fun c k x e hon hx he => ?_, fun z hz => startCopies_of_no_reads hz,
    fun c k n x p hon hx hp hw hc => ?_, fun t hon hop hph ht => ?_⟩
  · have hrun := exec_pftRun_of_new h hn
    refine ⟨fun hres => ?_, fun hres hb => ?_, fun p hp hid hres => ?_, fun hres ha hwin hent hne hw => ?_,
      fun w e hres ha hwin hent hall hlen => ?_⟩
    · exact ends_of_finishOp h (startRun_of_reserved hres ▸ hrun)
    · have hb' : RunBad s o := by
        rcases hb with hb | hb | hb
        · exact .inl hb
        · exact .inr (.inl hb)
        · exact .inr (.inr (.inl hb))
      exact ends_of_finishOp h (startRun_of_bad hres hb' ▸ hrun)
    · exact ends_of_finishOp h (startRun_of_bad hres (.inr (.inr (.inr ⟨p, hp, hid⟩))) ▸ hrun)
    · have hb : ¬ RunBad s o := by simpa [RunBad] using ⟨ha, hwin, hent, hne⟩
      rw [hrun, startRun_of_waits hres hb hw]; rfl
    · have hb : ¬ RunBad s o := by simpa [RunBad] using ⟨ha, hwin, hent, fun p hp => (hall p hp).1⟩
      have hw : ¬ RunWaits s o := by
        rintro (h16 | ⟨p, hp, hnot⟩)
        · omega
        · rw [(hall p hp).2] at hnot
          cases hnot
      intro x hr hok s1
      rw [hrun, startRun_of_entry hres hb hw hr hok]
      exact congrArg Host.Outcome.next (inside_of_sends (sends_effect s _ e) _)
  · rw [exec_pftCancel h]
    refine ⟨fun p hp => ⟨fun x hx => ?_, fun hx => ?_⟩, fun hp => ?_⟩
    · rw [runCancel_of_running hres hp hx]
    · rw [runCancel_of_waiting hres hp hx]
    · rw [runCancel_of_none hres hp]
  · rw [exec_pftGateMet c k hon]
    exact ⟨fun hg => by rw [onPftGateMet_of_unmet hx he hg]; rfl, fun hg => by rw [onPftGateMet_of_met hx he hg]; rfl⟩
  · rw [exec_pftCopyComplete c k n hon]
    refine ⟨fun hleft => ?_, fun h1 h2 h3 => ?_⟩
    · rw [onPftCopyComplete_of_left hx hp hw hc fun hy => ?_]
      · rfl
      · obtain ⟨h1, h2, h3⟩ := hy
        rcases hleft with h | h | h
        · exact h h1
        · exact h h2
        · exact h h3
    · rw [onPftCopyComplete_of_last hx hp hw hc ⟨h1, h2, h3⟩]; rfl
  · rw [exec_pftHoldLimit id hon]
    exact ⟨fun he => by rw [onPftHoldLimit_of_within hop ht he]; rfl, fun he => by rw [onPftHoldLimit_of_expired hop hph ht he]⟩

end Sys2Proof.Proofs.Prefetch
end

section
/-! SUPPORT. The family of 10_sequences_and_kv_cache.md, part 1: what the completion of an op does to its context and to the counters. -/

namespace Sys2Proof.Proofs.Completions

open Sys2Proof.Machine

theorem objKey_inj {sel j k : Nat} : objKey sel j = objKey sel k ↔ j = k := Nat.add_left_cancel_iff

/-- The counters that a completion raises: `ACCT_OPS`, and `ACCT_ENGINE_NS` where the op ran on an accounted engine (R376). -/
def accounted (s : State) (o : Op) : State :=
  if o.phase = .started ∧ engineAccounted o.queue then
    (s.bump (objKey o.ctx kAcctOps) 1).bump (objKey o.ctx kAcctEngineNs) (s.time - o.startedAt)
  else s.bump (objKey o.ctx kAcctOps) 1

theorem obj_accounted_ops (s : State) (o : Op) :
    (accounted s o).obj (objKey o.ctx kAcctOps) = min (s.obj (objKey o.ctx kAcctOps) + 1) (2 ^ 64 - 1) := by
  unfold accounted
  split
  · rw [obj_bump_other _ _ (mt objKey_inj.mp (by decide)), obj_bump_one]
  · exact obj_bump_one s _

theorem obj_accounted_other {s : State} {o : Op} {k : Nat} (hops : k ≠ objKey o.ctx kAcctOps) (hns : k ≠ objKey o.ctx kAcctEngineNs) :
    (accounted s o).obj k = s.obj k := by
  unfold accounted
  split
  · rw [obj_bump_other _ _ hns, obj_bump_other _ _ hops]
  · exact obj_bump_other s 1 hops

section
variable {s : State} {id : Nat} {o : Op} (status info : Nat) (hop : s.op? id = some o) (hp : o.phase ≠ .done)
include hop hp

theorem finishOp_dp : (finishOp s id status info).dp = (accounted s o).dp := by
  unfold finishOp accounted
  rw [hop]
  simp only [hp, if_false]
  split <;> rfl

theorem obj_finishOp (k : Nat) : (finishOp s id status info).obj k = (accounted s o).obj k :=
  congrArg (objGet · k) (finishOp_dp status info hop hp)

theorem ctx_finishOp_same :
    (finishOp s id status info).ctx o.ctx = { s.ctx o.ctx with doneQ := (s.ctx o.ctx).doneQ ++ [id] } := by
  rw [State.ctx, finishOp_ctx hop hp, kvGet_kvSet_same]

theorem ctx_finishOp_other {c : Nat} (hc : c ≠ o.ctx) : (finishOp s id status info).ctx c = s.ctx c := by
  rw [State.ctx, finishOp_ctx hop hp, kvGet_kvSet_other _ _ _ hc, State.ctx]

end

/-- Settles O19: the op ends as `finishOp_ended` says, its context gains it in `doneQ`, and only its counters are raised. -/
theorem finishedOpWaitsForItsEntry : Obligations.FinishedOpWaitsForItsEntry := by
  intro s id status info o hop hp t
  refine ⟨finishOp_ended hop hp, ?_, fun c hc => ctx_finishOp_other status info hop hp hc, fun hlt => ?_, fun k hops hns => ?_,
    finishOp_frame s id status info⟩
  · rw [ctx_finishOp_same status info hop hp]
  · rw [obj_finishOp status info hop hp, obj_accounted_ops]
    omega
  · rw [obj_finishOp status info hop hp, obj_accounted_other hops hns]

end Sys2Proof.Proofs.Completions
end

section
/-! SUPPORT. The family of 10_sequences_and_kv_cache.md, part 2: the doorbells that build, commit and abort a tick. -/

namespace Sys2Proof.Proofs.TickDoorbells

open Sys2Proof.Machine

/-! ## The commands -/

theorem inside_ignoreSeq (s : State) : s.inside (ignoreSeq s) = s.bump kSeqIgnoredCount 1 := State.inside_eq rfl rfl rfl rfl

/-- A command for a doorbell word of one `KIND`: the doorbell, or a word that is ignored. -/
theorem onCtx_doorbell {s : State} {c w k : Nat} (h : s.off = false) (hc : c < 256) (hw : w < 2 ^ 64) :
    onCtx c s (fun s => if bits w 63 62 = k then tickDoor s c (w % 2 ^ 64) else ignoreSeq s) =
      .next (if bits w 63 62 = k then s.inside (tickDoor s c w) else s.bump kSeqIgnoredCount 1) := by
  rw [onCtx_present s _ hc, live_on _ h, apply_ite s.inside, inside_ignoreSeq, Nat.mod_eq_of_lt hw]

section
variable {s : State} {c w : Nat} (h : s.off = false) (hc : c < 256) (hw : w < 2 ^ 64)
include h hc hw

theorem exec_build : exec (.build c w) s =
    .next (if bits w 63 62 = 0 then s.inside (tickDoor s c w) else s.bump kSeqIgnoredCount 1) := onCtx_doorbell h hc hw

theorem exec_tickCommit : exec (.tickCommit c w) s =
    .next (if bits w 63 62 = 1 then s.inside (tickDoor s c w) else s.bump kSeqIgnoredCount 1) := onCtx_doorbell h hc hw

theorem exec_tickAbort : exec (.tickAbort c w) s =
    .next (if bits w 63 62 = 2 then s.inside (tickDoor s c w) else s.bump kSeqIgnoredCount 1) := onCtx_doorbell h hc hw

/-- A write of the control window at the tick doorbell of a context rings it (R472). -/
theorem exec_controlWindowWrite_tick :
    exec (.controlWindowWrite (4096 * c + 16) 8 w) s = .next (s.inside (tickDoor s c w)) := by
  have hdiv : (4096 * c + 16) / 4096 = c := by omega
  have hmod : (4096 * c + 16) % 4096 = 16 := by omega
  have hexec : exec (.controlWindowWrite (4096 * c + 16) 8 w) s = execControlWindowWrite (4096 * c + 16) 8 w s := rfl
  rw [hexec, execControlWindowWrite, live_on _ h, Nat.mod_eq_of_lt hw]
  simp [hdiv, hmod, hc]

end

/-! ## The doorbell by its word (R361, R364) -/

section
variable (s : State) (c : Nat) {w : Nat}

theorem tickDoor_of_reserved (hr : bits w 61 32 ≠ 0) : tickDoor s c w = ignoreSeq s := if_pos hr

theorem tickDoor_of_build (hk : bits w 63 62 = 0) (hr : bits w 61 32 = 0) : tickDoor s c w = buildDoor s c w := by
  simp [tickDoor, hk, hr]

theorem tickDoor_of_commit (hk : bits w 63 62 = 1) (hr : bits w 61 32 = 0) (hl : bits w 31 0 = 0) :
    tickDoor s c w = commitDoor s c w := by
  simp [tickDoor, hk, hr, hl]

theorem tickDoor_of_abort (hk : bits w 63 62 = 2) (hr : bits w 61 32 = 0) (hl : bits w 31 0 = 0) :
    tickDoor s c w = abortDoor s c w := by
  simp [tickDoor, hk, hr, hl]

/-- Only a BUILD has a producer index in its low bits. -/
theorem tickDoor_of_low (hk : bits w 63 62 ≠ 0) (hl : bits w 31 0 ≠ 0) : tickDoor s c w = ignoreSeq s := by
  simp only [tickDoor, hl, if_false]
  split
  · rfl
  · split
    · contradiction
    all_goals rfl

theorem tickDoor_of_no_kind (h0 : bits w 63 62 ≠ 0) (h1 : bits w 63 62 ≠ 1) (h2 : bits w 63 62 ≠ 2) :
    tickDoor s c w = ignoreSeq s := by
  unfold tickDoor
  split
  · rfl
  · split
    case h_4 => rfl
    all_goals contradiction

end

/-! ## BUILD (R365), COMMIT (R373) and ABORT (R374) -/

/-- A context that is served and has no open tick, for which BUILD opens one. -/
def MayBuild (s : State) (c : Nat) : Prop := isServing s c = true ∧ (s.srv c).tick.isSome = false

/-- A context that is served and has an open tick without a waiting commit, which COMMIT and ABORT end. -/
def MayEnd (s : State) (c : Nat) : Prop :=
  isServing s c = true ∧ (s.srv c).tick.isSome = true ∧ (s.srv c).commitAt = none

theorem not_mayBuild {s : State} {c : Nat} : ¬ MayBuild s c ↔ (!isServing s c) = true ∨ (s.srv c).tick.isSome = true := by
  simp only [MayBuild, not_and_or, Bool.not_eq_true, Bool.not_eq_false, Bool.not_eq_true']

theorem not_mayEnd {s : State} {c : Nat} :
    ¬ MayEnd s c ↔ (!isServing s c) = true ∨ (s.srv c).tick.isNone = true ∨ (s.srv c).commitAt.isSome = true := by
  simp only [MayEnd, not_and_or, Bool.not_eq_true, Bool.not_eq_true', Option.isSome_eq_false_iff, ← ne_eq, Option.ne_none_iff_isSome]

/-- The state in which a COMMIT has begun and its mirrored rows have been sent (R530). -/
def rowsSent (s : State) (c w : Nat) : State :=
  runFor c (sendRows c (if s.twin.st = 2 then mirroredWork s c else []))
    ((noteTickDb s c w).setSrv c { (noteTickDb s c w).srv c with commitAt := some s.time })

section
variable {s : State} {c w : Nat}

theorem buildDoor_of_not (h : ¬ MayBuild s c) : buildDoor s c w = ignoreSeq s := if_pos (not_mayBuild.mp h)

theorem buildDoor_of_waits (h : MayBuild s c) (hw : devWaits (buildTick c (bits w 31 0)) (noteTickDb s c w) = true) :
    buildDoor s c w = s :=
  (if_neg (mt not_mayBuild.mpr (not_not_intro h))).trans (if_pos hw)

theorem buildDoor_of_builds (h : MayBuild s c) (hw : devWaits (buildTick c (bits w 31 0)) (noteTickDb s c w) = false) :
    buildDoor s c w =
      let s1 := noteTickDb s c w
      let s2 := runFor c (buildTick c (bits w 31 0)) s1
      mirrorEntries c s1 (engineTime s2 c 3000 (buildBound s1 s2 c)) :=
  (if_neg (mt not_mayBuild.mpr (not_not_intro h))).trans (if_neg (Bool.not_eq_true _ ▸ hw))

theorem commitDoor_of_not (h : ¬ MayEnd s c) : commitDoor s c w = ignoreSeq s := if_pos (not_mayEnd.mp h)

theorem commitDoor_of_mayEnd (h : MayEnd s c) :
    commitDoor s c w =
      if ((rowsSent s c w).srv c).commitAt.isSome && ((rowsSent s c w).srv c).acks.isEmpty then finishCommit (rowsSent s c w) c
      else rowsSent s c w :=
  if_neg (mt not_mayEnd.mpr (not_not_intro h))

theorem commitDoor_of_acked (h : MayEnd s c) (hat : ((rowsSent s c w).srv c).commitAt.isSome = true)
    (hack : ((rowsSent s c w).srv c).acks = []) : commitDoor s c w = finishCommit (rowsSent s c w) c := by
  rw [commitDoor_of_mayEnd h, hat, hack]
  rfl

theorem commitDoor_of_unacked (h : MayEnd s c) (hack : ((rowsSent s c w).srv c).acks ≠ []) : commitDoor s c w = rowsSent s c w := by
  rw [commitDoor_of_mayEnd h, if_neg (by simp [hack])]

theorem abortDoor_of_not (h : ¬ MayEnd s c) : abortDoor s c w = ignoreSeq s := if_pos (not_mayEnd.mp h)

theorem abortDoor_of_mayEnd {k : Tick} (h : MayEnd s c) (hk : (s.srv c).tick = some k) :
    abortDoor s c w = engineTime (runFor c (abortTick c) (noteTickDb s c w)) c 1000 (10000 + 20 * k.pages.length) := by
  refine (if_neg (mt not_mayEnd.mpr (not_not_intro h))).trans ?_
  rw [hk]
  rfl

end

/-! ## Doorbells that are ignored -/

section
variable {s : State} {c w : Nat}

theorem tickDoor_of_ignored_build (hk : bits w 63 62 = 0) (h : bits w 61 32 ≠ 0 ∨ ¬ MayBuild s c) : tickDoor s c w = ignoreSeq s := by
  by_cases hr : bits w 61 32 = 0
  · rw [tickDoor_of_build s c hk hr, buildDoor_of_not (h.resolve_left (not_not_intro hr))]
  · exact tickDoor_of_reserved s c hr

/-- A COMMIT and an ABORT are ignored alike. -/
theorem tickDoor_of_ignored_end (hk : bits w 63 62 = 1 ∨ bits w 63 62 = 2) (h : bits w 61 32 ≠ 0 ∨ bits w 31 0 ≠ 0 ∨ ¬ MayEnd s c) :
    tickDoor s c w = ignoreSeq s := by
  by_cases hr : bits w 61 32 = 0
  · by_cases hl : bits w 31 0 = 0
    · have hno : ¬ MayEnd s c := (h.resolve_left (not_not_intro hr)).resolve_left (not_not_intro hl)
      rcases hk with hk | hk
      · rw [tickDoor_of_commit s c hk hr hl, commitDoor_of_not hno]
      · rw [tickDoor_of_abort s c hk hr hl, abortDoor_of_not hno]
    · exact tickDoor_of_low s c (by omega) hl
  · exact tickDoor_of_reserved s c hr

end

/-! ## The commands by their word -/

section
variable {s : State} {c w : Nat} (h : s.off = false) (hc : c < 256) (hw : w < 2 ^ 64)
include h hc hw

/-- The window's doorbell is the command of the word's `KIND`; a word of `KIND` 3 is ignored as any of them. -/
theorem exec_controlWindowWrite_eq_command :
    exec (.controlWindowWrite (4096 * c + 16) 8 w) s =
      exec (if bits w 63 62 = 0 then .build c w else if bits w 63 62 = 1 then .tickCommit c w else .tickAbort c w) s := by
  rw [exec_controlWindowWrite_tick h hc hw]
  split_ifs with h0 h1
  · rw [exec_build h hc hw, if_pos h0]
  · rw [exec_tickCommit h hc hw, if_pos h1]
  · rw [exec_tickAbort h hc hw]
    split_ifs with h2
    · rfl
    · rw [tickDoor_of_no_kind s c h0 h1 h2, inside_ignoreSeq]

end

/-- Settles O43: the clauses are the branches of the doorbell by the `KIND` of its word. That a BUILD waits is log 83, and that the
engine's time is a free number within R375's bounds is log 86. -/
theorem tickDoorbellRules : Obligations.TickDoorbellRules := by
  intro s c w hon hc hw ignored free opened
  refine ⟨exec_controlWindowWrite_eq_command hon hc hw, fun hk => ?_, fun hk => ?_, fun hk => ?_, fun hk => ?_⟩
  · rw [exec_build hon hc hw, if_pos hk]
    refine ⟨fun hr hf => ⟨fun hwait => ?_, fun hwait => ?_⟩, fun hbad => ?_⟩
    · rw [tickDoor_of_build s c hk hr, buildDoor_of_waits hf hwait, State.inside_self]
    · rw [tickDoor_of_build s c hk hr, buildDoor_of_builds hf hwait]
    · rw [tickDoor_of_ignored_build hk hbad, inside_ignoreSeq]
  · rw [exec_tickCommit hon hc hw, if_pos hk]
    refine ⟨fun hr hl ho => ⟨fun hat hack => ?_, fun hack => ?_⟩, fun hbad => ?_⟩
    · rw [tickDoor_of_commit s c hk hr hl, commitDoor_of_acked ho hat hack]
      rfl
    · rw [tickDoor_of_commit s c hk hr hl, commitDoor_of_unacked ho hack]
      rfl
    · rw [tickDoor_of_ignored_end (.inl hk) hbad, inside_ignoreSeq]
  · rw [exec_tickAbort hon hc hw, if_pos hk]
    refine ⟨fun hr hl ho k ht => ?_, fun hbad => ?_⟩
    · rw [tickDoor_of_abort s c hk hr hl, abortDoor_of_mayEnd ho ht]
    · rw [tickDoor_of_ignored_end (.inr hk) hbad, inside_ignoreSeq]
  · rw [exec_build hon hc hw, exec_tickCommit hon hc hw, exec_tickAbort hon hc hw, hk]
    exact ⟨rfl, rfl, rfl⟩

end Sys2Proof.Proofs.TickDoorbells
end

section
/-! SUPPORT. The family of 12_input_pipeline.md: batches from lists, the decodes that they wait for, and live batches. -/

namespace Sys2Proof.Proofs.Ingest

open Sys2Proof.Machine

/-- An ING whose reads of host memory have come goes on (R469). -/
theorem onRead_of_hostOk {s : State} {o : Op} (e : Eff) (k : State) (h : o.hostOk = true) : onRead s o e k = k := by
  simp [onRead, waitsForHost, h]

/-! ## Batches from lists (R399 to R403) -/

section
variable {s : State} {o : Op} {I : IngEnv} {e : Eff} {c : Nat} {xs : List IngSample}

/-- The sources that an ING chooses for the samples of its list, in list order (R399, R400). -/
def chosenSources (s : State) (o : Op) (I : IngEnv) (e : Eff) : Except Nat (List IngSample) × Eff :=
  (chooseAll s (s.opEnv o) o I ((List.range I.list.length).zip I.list) []).run e

/-- The state once an ING has claimed its keys among the carry entries (R405) and holds a batch of its own. -/
def batchBegun (s : State) (o : Op) (I : IngEnv) (xs : List IngSample) : State :=
  let s1 := ageCarries s o.ctx (I.list.map (fun w => (ingEntry w).key))
  { s1 with ing := s1.ing ++ [jobNow o.id I xs] }

theorem ingBegin_of_rejected (hc : ingChecked s o = (.error c, e)) : ingBegin s o = onRead s o e (settle s o e c) := by
  simp only [ingBegin, hc]

theorem ingBegin_of_unreadable (hc : ingChecked s o = (.ok I, e)) (hx : (chosenSources s o I e).1 = .error c) :
    ingBegin s o = onRead s o (chosenSources s o I e).2 (settle s o (chosenSources s o I e).2 c) := by
  have hx' : chosenSources s o I e = (.error c, (chosenSources s o I e).2) := Prod.ext hx rfl
  rw [chosenSources] at hx'
  simp only [ingBegin, hc]
  rw [hx']
  rfl

theorem ingBegin_of_chosen (hc : ingChecked s o = (.ok I, e)) (hx : (chosenSources s o I e).1 = .ok xs) :
    ingBegin s o = onRead s o (chosenSources s o I e).2
      (ingProgress (batchBegun s o I xs) o I xs (chosenSources s o I e).2) := by
  have hx' : chosenSources s o I e = (.ok xs, (chosenSources s o I e).2) := Prod.ext hx rfl
  rw [chosenSources] at hx'
  simp only [ingBegin, hc]
  rw [hx']
  rfl

theorem ingGoOn_of_begun {j : IngJob} (hj : ingJob? s o.id = some j) (hc : ingChecked s o = (.ok I, e)) :
    ingGoOn s o = ingProgress s o I j.samples {} := by
  simp only [ingGoOn, hj, hc]

theorem exec_ing_of_new {id : Nat} (h : Works s id o .ing) (hj : ingJob? s o.id = none) :
    exec (.ing id) s = .next (s.inside (ingBegin s o)) := by
  change execIng id s = _
  simp [execIng, live_onWork _ h, hj]

theorem exec_ing_of_begun {id : Nat} {j : IngJob} (h : Works s id o .ing) (hj : ingJob? s o.id = some j) :
    exec (.ing id) s = .next (s.inside (ingGoOn s o)) := by
  change execIng id s = _
  simp [execIng, live_onWork _ h, hj]

end

/-- Settles O35: the clauses are the branches of an ING that has no batch yet, and a begun batch that goes on. That the reads of host
memory all come before the batch begins is the model's choice (log 45). -/
theorem ingBatchesFromLists : Obligations.IngBatchesFromLists := by
  intro s id o h
  refine ⟨fun c e hj hc => ?_, fun I e hj hc => ⟨fun c hx => ?_, fun xs hx => ?_⟩, fun j I e hj hc => ?_⟩
  · rw [exec_ing_of_new h hj, ingBegin_of_rejected hc]
  · rw [exec_ing_of_new h hj, ingBegin_of_unreadable hc hx]
    rfl
  · have hrun := exec_ing_of_new h hj
    rw [ingBegin_of_chosen hc hx] at hrun
    refine ⟨hrun, fun hok => ?_⟩
    rw [onRead_of_hostOk _ _ hok] at hrun
    exact hrun
  · rw [exec_ing_of_begun h hj, ingGoOn_of_begun hj hc]

/-! ## Decodes of a batch (R401 to R404) -/

section
variable {s : State} {id k c : Nat} {o : Option Op} {x : IngSample} {r : Eff}

/-- A device decode that completes gives its sample the pictures that the list entry keeps (R401). -/
theorem exec_deviceDecodeComplete_of_pictures {pics : List Config.Picture} (ps : Nat) (hon : s.off = false)
    (hf : findDecode s id k false = some (o, c, x)) (hp : (clipPlan (s.env c) x).run {} = (.ok pics, r)) :
    exec (.deviceDecodeComplete id k ps) s = .next (s.inside (putDecode (noteTime (s.effect (s.env c) r) c ps) o x
      { x with st := 2, pics := kept (ingEntry x.begun) pics })) := by
  change execDeviceDecodeComplete id k ps s = _
  simp only [execDeviceDecodeComplete, live_on _ hon, hf, hp]

/-- A clip that cannot be read ends the ING whose batch waits for it. -/
theorem exec_deviceDecodeComplete_of_unreadable {code : Nat} {p : Op} (ps : Nat) (hon : s.off = false)
    (hf : findDecode s id k false = some (some p, c, x)) (hp : (clipPlan (s.env c) x).run {} = (.error code, r)) :
    exec (.deviceDecodeComplete id k ps) s =
      .next (s.inside (dropIng (finishOp (s.effect (s.env c) r) p.id code 0) p.id)) := by
  change execDeviceDecodeComplete id k ps s = _
  simp only [execDeviceDecodeComplete, live_on _ hon, hf, hp]

/-- A host decode whose result word is zero has not ended (R402). -/
theorem exec_hostDecodeResult_of_pending (hon : s.off = false) (hf : findDecode s id k true = some (o, c, x))
    (hp : (hostResult (s.env c) x).run {} = (.ok none, r)) : exec (.hostDecodeResult id k) s = .next s := by
  change execHostDecodeResult id k s = _
  simp only [execHostDecodeResult, live_on _ hon, hf, hp, State.inside_self]

theorem exec_hostDecodeResult_of_pictures {ps : List Config.Picture} (hon : s.off = false)
    (hf : findDecode s id k true = some (o, c, x)) (hp : (hostResult (s.env c) x).run {} = (.ok (some ps), r)) :
    exec (.hostDecodeResult id k) s = .next (s.inside (putDecode
      (noteTime (s.effect (s.env c) r) c ((s.time - x.since) * 1000 / max 1 (lumaOf (ingEntry x.begun)))) o x
      { x with st := 2, pics := ps })) := by
  change execHostDecodeResult id k s = _
  simp only [execHostDecodeResult, live_on _ hon, hf, hp]

end

section
variable {s : State} {id k : Nat} {p : Op} {x : IngSample}

/-- The sample of a batch that waits for the decode which its own ING began. -/
def waitingSample (s : State) (id k : Nat) : Option IngSample :=
  (ingJob? s id).bind (fun j => j.samples.find? (fun x => x.origin == (id, k) && x.st == 1 && !x.carried))

/-- Nanoseconds that a sample's decode has before it may be deferred (R403). -/
def deferLimit (s : State) (p : Op) (x : IngSample) : Nat :=
  s.obj kIngDeferFactor * median (timesOf s p.ctx) * lumaOf (ingEntry x.entry) / 1000

/-- What keeps a sample in its batch: a STRICT op, fewer than sixteen times of its context known, or time that is left (R403). -/
def StaysInBatch (s : State) (p : Op) (x : IngSample) : Prop :=
  (ingDesc p.desc).strict = true ∨ (timesOf s p.ctx).length < 16 ∨ s.expired x.since (deferLimit s p x) = false

theorem not_staysInBatch : ¬ StaysInBatch s p x ↔
    (ingDesc p.desc).strict = false ∧ 16 ≤ (timesOf s p.ctx).length ∧ s.expired x.since (deferLimit s p x) = true := by
  simp [StaysInBatch]

/-- The sample has left its batch, which goes on, and its decode goes on into a carry entry (R404). -/
def deferredSample (s : State) (p : Op) (x : IngSample) : State :=
  let s1 : State := { s with carries := s.carries ++ [{ ctx := p.ctx, sample := x }] }
  putDecode (s1.bump kIngDeferred 1) (some p) x { x with st := 3, event := 2 }

theorem exec_ingDecodeDeadline_of_stays (hon : s.off = false) (hx : waitingSample s id k = some x) (hp : s.op? id = some p)
    (h : StaysInBatch s p x) : exec (.ingDecodeDeadline id k) s = .next s := by
  change execIngDecodeDeadline id k s = _
  rw [waitingSample] at hx
  simp only [execIngDecodeDeadline, live_on _ hon, hx, hp]
  rw [if_pos (by simpa [StaysInBatch, deferLimit] using h), State.inside_self]

theorem exec_ingDecodeDeadline_of_leaves (hon : s.off = false) (hx : waitingSample s id k = some x) (hp : s.op? id = some p)
    (h : ¬ StaysInBatch s p x) : exec (.ingDecodeDeadline id k) s = .next (s.inside (deferredSample s p x)) := by
  change execIngDecodeDeadline id k s = _
  rw [waitingSample] at hx
  simp only [execIngDecodeDeadline, live_on _ hon, hx, hp]
  rw [if_neg (by simpa [StaysInBatch, deferLimit] using h), deferredSample]

end

/-- Settles O36: the clauses are what a device decode, a host decode and a deadline can find. The median of an even count of times, by
which the deadline is reckoned, is log 38. -/
theorem ingDecodes : Obligations.IngDecodes := by
  intro s id k c o x hon E
  refine ⟨fun ps pics r hf hp => exec_deviceDecodeComplete_of_pictures ps hon hf hp, fun ps code r p hf ho hp => ?_,
    fun r hf hp => exec_hostDecodeResult_of_pending hon hf hp, fun ps r hf hp => exec_hostDecodeResult_of_pictures hon hf hp,
    fun p hx hp => ⟨exec_ingDecodeDeadline_of_stays hon hx hp, fun hstrict htimes hlate => ?_⟩⟩
  · subst ho
    exact exec_deviceDecodeComplete_of_unreadable ps hon hf hp
  · exact exec_ingDecodeDeadline_of_leaves hon hx hp (not_staysInBatch.mpr ⟨hstrict, htimes, hlate⟩)

/-! ## Live batches (R405, R418, R419) -/

section
variable {s : State} {id : Nat} {o : Op}

/-- A live batch that has been taken: the op ends with the first code of its batch, after the context's carry entries have grown older
(R405). -/
def batchTaken (s : State) (o : Op) (e : Eff) : State :=
  onRead s o e (dropIng (settle (ageCarries s o.ctx []) o e (firstCode ingOrder e.codes)) o.id)

/-- A batch that is not ready is waited for, and its ING is noted as one in work. -/
theorem takeLive_of_not_ready {aligned : Bool} {upto : IngEnv → Nat} {ready : IngEnv → Bool} {I : IngEnv} {e : Eff}
    (hc : ingChecked s o = (.ok I, e)) (hr : ready I = false) (hj : ingJob? s o.id = none) :
    takeLive s o aligned upto ready = { s with ing := s.ing ++ [{ op := o.id }] } := by
  simp [takeLive, hc, hr, hj]

theorem takeLive_of_ready {aligned : Bool} {upto : IngEnv → Nat} {ready : IngEnv → Bool} {I : IngEnv} {e e1 : Eff}
    (hc : ingChecked s o = (.ok I, e)) (hr : ready I = true)
    (hp : (livePlan (s.opEnv o) I aligned (upto I)).run e = (.ok (), e1)) :
    takeLive s o aligned upto ready = batchTaken s o e1 := by
  simp [takeLive, batchTaken, hc, hr, hp]

theorem exec_ingLiveAligned (h : Works s id o .ingAligned) :
    exec (.ingLiveAligned id) s = .next (s.inside (takeLive s o true (alignT s) (allMet s o))) := live_onWork _ h

theorem exec_ingLiveStamped (h : Works s id o .ingStamped) :
    exec (.ingLiveStamped id) s = .next (s.inside (takeLive s o false (fun _ => o.startedAt) (fun _ => true))) := live_onWork _ h

theorem exec_liveAlignWaitExpiry (h : Works s id o .ingAligned) :
    exec (.liveAlignWaitExpiry id) s = .next (s.inside (takeLive s o true (alignT s)
      (fun I => allMet s o I || s.expired (alignT s I) (s.obj kLiveAlignWaitNs)))) := live_onWork _ h

/-- The first entry of a stream after T is noted in the batch that waits for it. -/
def entryNoted (s : State) (j : IngJob) (k : Nat) : State := putIng s { j with met := k :: j.met }

theorem exec_liveEntryPublished_of_first {k : Nat} {j : IngJob} (h : Works s id o .ingAligned) (hj : ingJob? s o.id = some j)
    (hk : j.met.contains k = false) :
    exec (.liveEntryPublished id k) s = .next (s.inside
      (takeLive (entryNoted s j k) o true (alignT (entryNoted s j k)) (allMet (entryNoted s j k) o))) := by
  change execLiveEntryPublished id k s = _
  rw [execLiveEntryPublished, live_onWork _ h]
  simp only [hj, Option.getD_some, Option.isSome_some, if_true, hk, Bool.false_eq_true, if_false, entryNoted]

end

/-- Settles O37: an aligned batch waits or is taken, by its own command and by its wait's end; a stamped one is always ready. That a
live ING ages the carry entries is log 73, and that its reads of host memory come first is the model's choice (log 45). -/
theorem liveBatches : Obligations.LiveBatches := by
  intro s id o I e e1 hc done
  refine ⟨fun h => ⟨fun hmet hj => ?_, fun hp => ⟨fun hmet => ?_, fun hexp => ?_⟩,
    fun j k hj hk => exec_liveEntryPublished_of_first h hj hk⟩, fun h hp => ?_⟩
  · rw [exec_ingLiveAligned h, takeLive_of_not_ready hc hmet hj]
    rfl
  · rw [exec_ingLiveAligned h, takeLive_of_ready hc hmet hp]
    rfl
  · have hready : (allMet s o I || s.expired (alignT s I) (s.obj kLiveAlignWaitNs)) = true := by rw [hexp, Bool.or_true]
    rw [exec_liveAlignWaitExpiry h, takeLive_of_ready hc hready hp]
    rfl
  · rw [exec_ingLiveStamped h, takeLive_of_ready (upto := fun _ => o.startedAt) hc rfl hp]
    rfl

end Sys2Proof.Proofs.Ingest
end

section
/-! SUPPORT. The family of 13_stages_and_contexts.md, part 1: the dispatcher. -/

namespace Sys2Proof.Proofs.Dispatcher

open Sys2Proof.Machine

/-! ## The next op by its target (R441, R480, R663) -/

section
variable {s : State} {c : Nat}

/-- The next op of a context as its descriptor alone gives it, before its target is known (R441). -/
def describedOp (s : State) (c : Nat) : Op :=
  { id := s.nextOp, ctx := c, queue := hQueue (nextDesc s c), opc := hOpc (nextDesc s c), desc := nextDesc s c }

theorem newOp_of_queue {q : Nat} (h : targetOf s c (nextDesc s c) = .queue q) : newOp s c = { describedOp s c with queue := q } := by
  simp only [newOp, h, describedOp]

theorem newOp_of_fence (h : targetOf s c (nextDesc s c) = .fence) :
    newOp s c = { describedOp s c with phase := .started, startedAt := s.time } := by
  simp only [newOp, h, describedOp]

theorem newOp_of_reject {st : Nat} (h : targetOf s c (nextDesc s c) = .reject st) : newOp s c = describedOp s c := by
  simp only [newOp, h, describedOp]

theorem placeNext_of_queue {q : Nat} (h : targetOf s c (nextDesc s c) = .queue q) : placeNext s c = noteFences (taken s c) := by
  simp only [placeNext, h]

theorem placeNext_of_fence (h : targetOf s c (nextDesc s c) = .fence) : placeNext s c = noteFences (taken s c) := by
  simp only [placeNext, h]

theorem placeNext_of_reject {st : Nat} (h : targetOf s c (nextDesc s c) = .reject st) :
    placeNext s c = finishOp (taken s c) s.nextOp st 0 := by
  simp only [placeNext, h]

end

/-! ## DISPATCH (R442, R494) -/

/-- The device once DISPATCH has placed a context's next op: a collective that enters its queue asks for its ticket (R494). -/
def dispatched (s : State) (c : Nat) : State :=
  match targetOf s c (nextDesc s c) with
  | .queue _ => if isColl (hOpc (nextDesc s c)) then collPlaced (placeNext s c) (newOp s c) else placeNext s c
  | _ => placeNext s c

section
variable {s : State} {c : Nat}

theorem dispatched_of_queue {q : Nat} (h : targetOf s c (nextDesc s c) = .queue q) :
    dispatched s c =
      if isColl (hOpc (nextDesc s c)) then collPlaced (noteFences (taken s c)) { describedOp s c with queue := q }
      else noteFences (taken s c) := by
  simp only [dispatched, h, placeNext_of_queue h, newOp_of_queue h]

theorem dispatched_of_fence (h : targetOf s c (nextDesc s c) = .fence) : dispatched s c = noteFences (taken s c) := by
  simp only [dispatched, h, placeNext_of_fence h]

theorem dispatched_of_reject {st : Nat} (h : targetOf s c (nextDesc s c) = .reject st) :
    dispatched s c = finishOp (taken s c) s.nextOp st 0 := by
  simp only [dispatched, h, placeNext_of_reject h]

end

/-- DISPATCH places the next op of a context: it can be placed, and the context's turn has come. -/
def Dispatches (s : State) (c : Nat) : Prop := canPlace s c = true ∧ isTurn s c = true

theorem not_dispatches {s : State} {c : Nat} : ¬ Dispatches s c ↔ canPlace s c = false ∨ isTurn s c = false := by
  simp only [Dispatches, not_and_or, Bool.not_eq_true]

section
variable {s : State} {c : Nat} (hon : s.off = false) (hc : c < 256)
include hon hc

theorem exec_dispatch_of_not (h : ¬ Dispatches s c) : exec (.dispatch c) s = .next s := by
  have hno : ¬ (canPlace s c && isTurn s c) = true := by simpa [Dispatches] using h
  change execDispatch c s = _
  rw [execDispatch, onCtx_present s _ hc, live_on _ hon, if_neg hno, State.inside_self]

theorem exec_dispatch_of_dispatches (h : Dispatches s c) : exec (.dispatch c) s = .next (s.inside (dispatched s c)) := by
  have hyes : (canPlace s c && isTurn s c) = true := by simpa [Dispatches] using h
  change execDispatch c s = _
  rw [execDispatch, onCtx_present s _ hc, live_on _ hon, if_pos hyes]
  rfl

end

/-- The context that gives its op up stands one descriptor further on in its queue (R475). -/
theorem sqCons_taken (s : State) (c : Nat) : ((taken s c).ctx c).sqCons = ((s.ctx c).sqCons + 1) % 2 ^ 32 := by
  simp only [taken, State.ctx, State.setCtx_ctxs, kvGet_kvSet_same]

/-- Settles O13: the clauses are what DISPATCH asks for, and then the targets of the op that it places. The number of the op is
log 4. -/
theorem dispatchPlacesNextOp : Obligations.DispatchPlacesNextOp := by
  intro s c hon hc x o
  refine ⟨fun hcan hturn => ?_, fun h => exec_dispatch_of_not hon hc (not_dispatches.mpr h), rfl, sqCons_taken s c, rfl, rfl⟩
  rw [exec_dispatch_of_dispatches hon hc ⟨hcan, hturn⟩]
  refine ⟨fun q ht => ⟨newOp_of_queue ht, fun hcoll => ?_, fun hcoll => ?_⟩, fun ht => ⟨newOp_of_fence ht, ?_⟩,
    fun st ht => ⟨newOp_of_reject ht, ?_⟩⟩
  · rw [dispatched_of_queue ht, if_neg (ne_true_of_eq_false hcoll)]
  · rw [dispatched_of_queue ht, if_pos hcoll]
    rfl
  · rw [dispatched_of_fence ht]
  · rw [dispatched_of_reject ht]

end Sys2Proof.Proofs.Dispatcher
end

section
/-! SUPPORT. The family of 13_stages_and_contexts.md, part 2: waits that expire, and the signals of other devices. -/

namespace Sys2Proof.Proofs.ExpiryAndSignals

open Sys2Proof.Machine

/-! ## Waits that expire (R451, R453, R478) -/

section
variable {s : State} {id : Nat} {o : Op}

/-- The completion queue of a context is still full when the wait of its first completed op ends (R478). -/
theorem exec_cqFullWaitExpiry_of_expired {c t : Nat} (hon : s.off = false) (hc : c < 256)
    (hhead : (s.ctx c).doneQ.head? = some id) (hop : s.op? id = some o) (hs : o.cqSince = some t) (hfull : cqFull s c = true)
    (he : s.expired t (s.obj (objKey c kCqFullWaitUs) * 1000) = true) :
    exec (.cqFullWaitExpiry c) s = .next (s.inside (jobFault s c 4 0)) := by
  change execCqFullWaitExpiry c s = _
  rw [execCqFullWaitExpiry, onCtx_present s _ hc, live_on _ hon]
  simp only [hhead, Option.bind_some, hop, hs, hfull, he, and_self, if_true]

theorem exec_opWatchdogExpiry_of_expired (hon : s.off = false) (hop : s.op? id = some o) (hp : o.phase = .started)
    (hms : cOpLimitMs (s.ctx o.ctx).record ≠ 0) (hm : isMedia o.opc = false)
    (he : s.expired o.startedAt (cOpLimitMs (s.ctx o.ctx).record * 1000000) = true) :
    exec (.opWatchdogExpiry id) s = .next (s.inside (jobFault s o.ctx 3 0)) := by
  change execOpWatchdogExpiry id s = _
  have hlate : o.phase = .started ∧ cOpLimitMs (s.ctx o.ctx).record ≠ 0 ∧ (!isMedia o.opc) = true ∧
      s.expired o.startedAt (cOpLimitMs (s.ctx o.ctx).record * 1000000) = true := ⟨hp, hms, by rw [hm]; rfl, he⟩
  rw [execOpWatchdogExpiry, live_on _ hon]
  simp only [hop, if_pos hlate]

/-- A fence whose wait has expired before its signal came is counted and ends as its `TO_ACT` says (R451). -/
theorem exec_fncTimeout_of_expired {t : Nat} (h : Started s id o .fnc) (hs : o.waitSince = some t)
    (hl : (fncOf o.desc).timeoutUs ≠ 0) (hw : kvGet 0 s.sig (fncOf o.desc).waitSig < (fncOf o.desc).thresh)
    (he : s.expired t ((fncOf o.desc).timeoutUs * 1000) = true) :
    exec (.fncTimeout id) s = .next (s.inside
      (if (fncOf o.desc).toAct then finishOp (s.bump kFncTimeoutCount 1) o.id 0x01B0 0
       else jobFault (s.bump kFncTimeoutCount 1) o.ctx 2 0)) := by
  change execFncTimeout id s = _
  have hlate : ¬ ((fncOf o.desc).timeoutUs = 0 ∨ (fncOf o.desc).thresh ≤ kvGet 0 s.sig (fncOf o.desc).waitSig ∨
      (!s.expired t ((fncOf o.desc).timeoutUs * 1000)) = true) := by
    simp [hl, hw, he]
  rw [execFncTimeout, live_onForm _ h]
  simp only [hs, if_neg hlate]

end

/-- Settles O17: the clauses are the three waits, each at the moment at which its command finds it expired. -/
theorem waitsThatEndInAJobFault : Obligations.WaitsThatEndInAJobFault := by
  intro s id o hon hop hc _
  refine ⟨fun t hhead hs hfull he => exec_cqFullWaitExpiry_of_expired hon hc hhead hop hs hfull he,
    fun hp hms hm he => exec_opWatchdogExpiry_of_expired hon hop hp hms hm he, fun t hp hf hs hl hw he => ?_⟩
  rw [exec_fncTimeout_of_expired ⟨hon, hop, hp, hf⟩ hs hl hw he, op?_id hop]
  exact ⟨fun ha => by rw [if_pos ha], fun ha => by rw [if_neg (ne_true_of_eq_false ha)]⟩

/-! ## Remote signals (R449) -/

/-- Whether a signal word lies in the range of an ACTIVE context. -/
def ownedByActive (s : State) (w : Nat) : Bool := s.ctxs.any (fun p => p.2.st == .active && sigOwned p.2.record w)

section
variable {s : State} {pkt : Packet}

theorem onRemoteSignal_of_owned (he : epochOk s pkt.hdr = true) (h : ownedByActive s (leNat (pkt.data.take 2)) = true) :
    onRemoteSignal pkt s = s.signal (leNat (pkt.data.take 2)) (leNat ((pkt.data.drop 2).take 8)) :=
  if_pos (Bool.and_eq_true_iff.mpr ⟨he, h⟩)

theorem onRemoteSignal_of_not_owned (h : ownedByActive s (leNat (pkt.data.take 2)) = false) :
    onRemoteSignal pkt s = s.bump kSigRemoteDrop 1 :=
  if_neg (fun hb => Bool.eq_false_iff.mp h (Bool.and_eq_true_iff.mp hb).2)

theorem exec_remoteSignal (hon : s.off = false) : exec (.remoteSignal pkt) s = .next (s.inside (onRemoteSignal pkt s)) := live_on _ hon

end

/-- Settles O34: a word that an ACTIVE context owns gains the value, and no other word changes. -/
theorem remoteSignalRules : Obligations.RemoteSignalRules := by
  intro pkt s hon he w v
  rw [exec_remoteSignal hon]
  refine ⟨fun h => ⟨s.signal w v, ?_, ?_, fun x hx => ?_, rfl⟩, fun h => ?_⟩
  · rw [onRemoteSignal_of_owned he h]
    rfl
  · rw [State.signal_sig, kvGet_kvSet_same]
  · rw [State.signal_sig, kvGet_kvSet_other _ _ _ hx]
  · rw [onRemoteSignal_of_not_owned h]
    rfl

end Sys2Proof.Proofs.ExpiryAndSignals
end

section
/-! SUPPORT. The family of 13_stages_and_contexts.md, part 3: the commands of contexts, which are writes of `CTX_CMD`. -/

namespace Sys2Proof.Proofs.ContextCommands

open Sys2Proof.Machine

/-! ## A write of one object (R561, R569) -/

/-- A write that passes its checks, and is not one that the device ignores, is a transaction of its own (log 52). -/
theorem onWrite_of_accepted {s t : State} {sess : Nat} {w : Staged} (h : ServesWrites s) (ha : Accepted s sess w t)
    (hi : ignoredWrite s w = false) : onWrite s sess [w] = .next (s.inside (t.bump kTxnCommits 1)) := by
  obtain ⟨hon, hup, hsafe⟩ := h
  obtain ⟨hcheck, hnow, hset⟩ := ha
  have htxn : applyTxn s sess [w] = (t, 0, none) := by simp [applyTxn, applyWrites, hnow, hset]
  have halone : writeAlone s sess [w] = (t.bump kTxnCommits 1, 0) := by simp [writeAlone, hcheck, htxn, hi]
  rw [onWrite, live_on _ hon, hup, hsafe, halone]
  rfl

/-! ## Writes of `CTX_CMD` -/

section
variable {s : State} {sess v : Nat}

/-- The line of `CTX_CMD` in the dictionary (R459): one byte, which can be written and not read. -/
theorem objRow_ctxCmd : objRow (kCtxCmd / 256) (kCtxCmd % 256) = some ⟨0x6000, 2, 2, 1, 0, 2, false, 0, 0, hiAll 1⟩ := rfl

theorem objNo_ctxCmd : objNo (kCtxCmd / 256) (kCtxCmd % 256) = kCtxCmd := rfl

theorem stagedOf_ctxCmd (hv : v < 256) : stagedOf kCtxCmd v = { index := kCtxCmd / 256, sub := kCtxCmd % 256, bytes := [v] } := by
  have hlog : v.log2 / 8 = 0 := by
    rcases Nat.eq_zero_or_pos v with rfl | hpos
    · rfl
    · have := (Nat.log2_lt hpos.ne').mpr (show v < 2 ^ 8 from hv)
      omega
  simp [stagedOf, objRow_ctxCmd, hlog, leBytes, Nat.mod_eq_of_lt hv]

/-- No state forbids a context command (R457): what the context's state does not allow is ignored instead. -/
theorem condOk_ctxCmd : condOk s kCtxCmd v = true := rfl

theorem checkWrite_ctxCmd (hv : v < 256) (hmay : mayCritical s sess = true) (hlock : s.mgmt.locks.contains kCtxCmd = false) :
    checkWrite s sess false (stagedOf kCtxCmd v) = 0 := by
  simp only [checkWrite, stagedOf_ctxCmd hv, objRow_ctxCmd, objNo_ctxCmd, hlock, hmay]
  simp

theorem writeNow_ctxCmd (hv : v < 256) (hlock : s.mgmt.locks.contains kCtxCmd = false) :
    writeNow s sess (stagedOf kCtxCmd v) = ctxCommand s v := by
  simp only [writeNow, writeEffect, stagedOf_ctxCmd hv, objRow_ctxCmd, objNo_ctxCmd, hlock, condOk_ctxCmd]
  simp [leNat, Nat.mod_eq_of_lt hv]

theorem setFails_ctxCmd (hv : v < 256) : setFails s (stagedOf kCtxCmd v) = false := by
  rw [stagedOf_ctxCmd hv]
  rfl

theorem ignoredWrite_ctxCmd (hv : v < 256) : ignoredWrite s (stagedOf kCtxCmd v) = false := by
  have hcmd : (kCtxCmd == kFwCmd) = false := rfl
  have hstage : (kCtxCmd == kFwStage) = false := rfl
  simp [ignoredWrite, counterIgnored, stagedOf_ctxCmd hv, objRow_ctxCmd, objNo_ctxCmd, hcmd, hstage]

/-- A write of `CTX_CMD` that is accepted counts as a transaction, also where the command is ignored (log 52, log 54). -/
theorem onWrite_ctxCmd {t : State} (hs : ServesWrites s) (hmay : mayCritical s sess = true)
    (hlock : s.mgmt.locks.contains kCtxCmd = false) (hv : v < 256) (ht : ctxCommand s v = (t, 0)) :
    onWrite s sess [stagedOf kCtxCmd v] = .next (s.inside (t.bump kTxnCommits 1)) :=
  onWrite_of_accepted hs ⟨checkWrite_ctxCmd hv hmay hlock, (writeNow_ctxCmd hv hlock).trans ht, setFails_ctxCmd hv⟩
    (ignoredWrite_ctxCmd hv)

end

/-! ## Context commands by the state of the context (R437) -/

section
variable {s : State} {r : Nat}

theorem ctxCommand_create_of_free (h : (s.ctx (s.obj kCtxSel)).st = .free) (hok : createOk s = true)
    (hr : ctxRecord s (s.obj kCtxSel) = some r) : ctxCommand s 1 = (openCtx s (s.obj kCtxSel) r, 0) := by
  simp only [ctxCommand, h, hok, hr, if_true]

theorem ctxCommand_create_of_not_free (h : (s.ctx (s.obj kCtxSel)).st ≠ .free) : ctxCommand s 1 = (s.bump kCtxIgnoredCount 1, 0) := by
  cases hst : (s.ctx (s.obj kCtxSel)).st with
  | free => exact absurd hst h
  | active | teardown | faulted => simp only [ctxCommand, hst]

theorem ctxCommand_kill_of_active (h : (s.ctx (s.obj kCtxSel)).st = .active) :
    ctxCommand s 2 = (jobFault s (s.obj kCtxSel) 1 0, 0) := by
  simp only [ctxCommand, h]

theorem ctxCommand_kill_of_not_active (h : (s.ctx (s.obj kCtxSel)).st ≠ .active) :
    ctxCommand s 2 = (s.bump kCtxIgnoredCount 1, 0) := by
  cases hst : (s.ctx (s.obj kCtxSel)).st with
  | active => exact absurd hst h
  | free | teardown | faulted => simp only [ctxCommand, hst]

theorem ctxCommand_restart_of_faulted (h : (s.ctx (s.obj kCtxSel)).st = .faulted) (hr : ctxRecord s (s.obj kCtxSel) = some r) :
    ctxCommand s 3 = (openCtx s (s.obj kCtxSel) r, 0) := by
  simp only [ctxCommand, h, hr]

theorem ctxCommand_restart_of_not_faulted (h : (s.ctx (s.obj kCtxSel)).st ≠ .faulted) :
    ctxCommand s 3 = (s.bump kCtxIgnoredCount 1, 0) := by
  cases hst : (s.ctx (s.obj kCtxSel)).st with
  | faulted => exact absurd hst h
  | free | active | teardown => simp only [ctxCommand, hst]

theorem ctxCommand_destroy_of_idle (h : (s.ctx (s.obj kCtxSel)).st = .faulted ∨
      (s.ctx (s.obj kCtxSel)).st = .active ∧ s.inflight (s.obj kCtxSel) = []) :
    ctxCommand s 4 = (s.setCtx (s.obj kCtxSel) {}, 0) := by
  rcases h with h | ⟨h, hidle⟩
  · simp only [ctxCommand, h]
  · simp only [ctxCommand, h, hidle, List.isEmpty_nil, if_true]

theorem ctxCommand_destroy_of_busy (h : (s.ctx (s.obj kCtxSel)).st = .free ∨ (s.ctx (s.obj kCtxSel)).st = .teardown ∨
      (s.ctx (s.obj kCtxSel)).st = .active ∧ s.inflight (s.obj kCtxSel) ≠ []) :
    ctxCommand s 4 = (s.bump kCtxIgnoredCount 1, 0) := by
  rcases h with h | h | ⟨h, hbusy⟩
  · simp only [ctxCommand, h]
  · simp only [ctxCommand, h]
  · simp only [ctxCommand, h, List.isEmpty_iff, hbusy, if_false]

end

/-! ## A context that is opened (R437, R450, R474) -/

/-- Keys that a filter drops read as the default. -/
theorem kvGet_filter_dropped {α : Type} (d : α) (p : Nat × α → Bool) (l : List (Nat × α)) {k : Nat} (h : ∀ v, p (k, v) = false) :
    kvGet d (l.filter p) k = d := by
  induction l with
  | nil => rfl
  | cons x t ih =>
    obtain ⟨j, v⟩ := x
    cases hp : p (j, v) with
    | false => rw [List.filter_cons_of_neg (ne_true_of_eq_false hp), ih]
    | true =>
      have hk : k ≠ j := fun hkj => Bool.false_ne_true ((h v).symm.trans (hkj ▸ hp))
      rw [List.filter_cons_of_pos hp, kvGet, if_neg hk, ih]

theorem openCtx_ctx (s : State) (c r : Nat) :
    (openCtx s c r).ctx c = { st := .active, record := r, intArmed := true, lastInt := (s.ctx c).lastInt } := by
  simp only [openCtx, State.ctx, setDb_ctxs, State.setCtx_ctxs, kvGet_kvSet_same]

theorem openCtx_sig_of_owned (s : State) (c : Nat) {r w : Nat} (h : sigOwned r w = true) : kvGet 0 (openCtx s c r).sig w = 0 :=
  kvGet_filter_dropped 0 (fun p => !sigOwned r p.1) s.sig (fun _ => by rw [h]; rfl)

/-- Settles O45: the clauses are the commands by the state of their context. That each of them counts as a transaction is log 52, that
an ignored one does is log 54 too. -/
theorem contextCommandRules : Obligations.ContextCommandRules := by
  intro s sess hs hmay hlock c commit
  have hrun : ∀ (v : Nat) (t : State), v < 256 → ctxCommand s v = (t, 0) → onWrite s sess [stagedOf kCtxCmd v] = .next (commit t) :=
    fun v t hv ht => onWrite_ctxCmd hs hmay hlock hv ht
  refine ⟨fun h hok r hr => ⟨hrun 1 _ (by decide) (ctxCommand_create_of_free h hok hr), ?_, ?_, ?_, ?_,
      fun w hw => openCtx_sig_of_owned s c hw⟩,
    fun h => hrun 1 _ (by decide) (ctxCommand_create_of_not_free h),
    fun h => hrun 2 _ (by decide) (ctxCommand_kill_of_active h),
    fun h => hrun 2 _ (by decide) (ctxCommand_kill_of_not_active h),
    fun h r hr => hrun 3 _ (by decide) (ctxCommand_restart_of_faulted h hr),
    fun h => hrun 3 _ (by decide) (ctxCommand_restart_of_not_faulted h),
    fun h => hrun 4 _ (by decide) (ctxCommand_destroy_of_idle h),
    fun h => hrun 4 _ (by decide) (ctxCommand_destroy_of_busy h)⟩
  all_goals rw [openCtx_ctx]

end Sys2Proof.Proofs.ContextCommands
end

section
/-! SUPPORT. The family of 14_host_link.md, part 1: doorbells and the control window. -/

namespace Sys2Proof.Proofs.Doorbells

open Sys2Proof.Machine

/-! ## Writes of the control window by where they land (R472, R473) -/

section
variable {s : State} (hon : s.off = false)
include hon

theorem exec_controlWindowWrite_sq {c p : Nat} (hc : c < 256) (hp : p < 2 ^ 32) :
    exec (.controlWindowWrite (4096 * c) 4 p) s = .next (s.inside (sqDoorbell s c p)) := by
  have hdiv : 4096 * c / 4096 = c := by omega
  have hmod : 4096 * c % 4096 = 0 := by omega
  change execControlWindowWrite (4096 * c) 4 p s = _
  rw [execControlWindowWrite, live_on _ hon]
  simp only [hdiv, hmod, hc, Nat.mod_eq_of_lt hp, and_self, if_true]

theorem exec_controlWindowWrite_cq {c q : Nat} (hc : c < 256) (hq : q < 2 ^ 32) :
    exec (.controlWindowWrite (4096 * c + 8) 4 q) s = .next (s.inside (cqDoorbell s c q)) := by
  have hdiv : (4096 * c + 8) / 4096 = c := by omega
  have hmod : (4096 * c + 8) % 4096 = 8 := by omega
  change execControlWindowWrite (4096 * c + 8) 4 q s = _
  rw [execControlWindowWrite, live_on _ hon, Nat.mod_eq_of_lt hq]
  simp [hdiv, hmod, hc]

/-- A write that begins and ends in the mailbox request buffer. -/
theorem exec_controlWindowWrite_request {o n : Nat} (v : Nat) (hn : 1 ≤ n) (hlo : 0x100000 ≤ o) (hhi : o + n ≤ 0x101000) :
    exec (.controlWindowWrite o n v) s =
      .next { s with mbx := { s.mbx with req := putBytes s.mbx.req (o - 0x100000) (leBytes n v) } } := by
  have hdiv : o / 4096 = 256 := by omega
  have hmod : o % 4096 = o - 0x100000 := by omega
  have hfits : o - 0x100000 + n ≤ 4096 := by omega
  change execControlWindowWrite o n v s = _
  rw [execControlWindowWrite, live_on _ hon]
  simp only [hdiv, hmod, hfits, and_self, if_true, Nat.lt_irrefl, if_false]
  rfl

/-- A write to the page of a context that rings none of its three doorbells. -/
theorem exec_controlWindowWrite_page {o n : Nat} (v : Nat) (ho : o < 0x100000) (hsq : ¬ (o % 4096 = 0 ∧ n = 4))
    (hcq : ¬ (o % 4096 = 8 ∧ n = 4)) (htick : ¬ (o % 4096 = 16 ∧ n = 8)) :
    exec (.controlWindowWrite o n v) s = .next (s.bump kCtrlIgnoredCount 1) := by
  have hdiv : o / 4096 < 256 := by omega
  change execControlWindowWrite o n v s = _
  rw [execControlWindowWrite, live_on _ hon]
  simp only [hdiv, hsq, hcq, htick, if_true, if_false]
  rfl

/-- A write behind the request buffer that does not ring the mailbox. -/
theorem exec_controlWindowWrite_behind {o n : Nat} (v : Nat) (ho : 0x101000 ≤ o) (hmbx : ¬ (o = 0x102000 ∧ n = 4)) :
    exec (.controlWindowWrite o n v) s = .next (s.bump kCtrlIgnoredCount 1) := by
  have hpage : ¬ o / 4096 < 256 := by omega
  have hbuf : ¬ (o / 4096 = 256 ∧ o % 4096 + n ≤ 4096) := by omega
  change execControlWindowWrite o n v s = _
  rw [execControlWindowWrite, live_on _ hon]
  simp only [hpage, hbuf, hmbx, if_false]
  rfl

end

/-- Settles O12: the clauses are the places of the control window that are no doorbell. -/
theorem controlWindowRules : Obligations.ControlWindowRules := by
  intro s o n v hon hn
  refine ⟨fun hlo hhi => exec_controlWindowWrite_request hon v hn hlo hhi, ?_⟩
  rintro (⟨ho, hsq, hcq, htick⟩ | ⟨ho, hmbx⟩)
  · exact exec_controlWindowWrite_page hon v ho hsq hcq htick
  · exact exec_controlWindowWrite_behind hon v ho hmbx

/-! ## Submission doorbells (R475) -/

/-- How far index `x` lies past index `start` in the 32-bit count of a queue (R475, R477). -/
def past (start x : Nat) : Nat := (x + 2 ^ 32 - start) % 2 ^ 32

/-- What the device asks of the producer in a submission doorbell of an ACTIVE context (R475). -/
def SqTakes (s : State) (c p : Nat) : Prop :=
  past (s.ctx c).sqCons p ≤ 2 ^ s.obj (objKey c kSqLog2) ∧ past (s.ctx c).sqCons (s.ctx c).sqProd ≤ past (s.ctx c).sqCons p

section
variable {s : State} {c p : Nat}

theorem sqDoorbell_of_inactive (h : (s.ctx c).st ≠ .active) : sqDoorbell s c p = s.bump kSqInactiveIgnored 1 := if_pos h

theorem sqDoorbell_of_taken (h : (s.ctx c).st = .active) (ht : SqTakes s c p) :
    sqDoorbell s c p = setDb (s.setCtx c { s.ctx c with sqProd := p }) (4096 * c) p :=
  (if_neg (not_not_intro h)).trans (if_pos ht)

theorem sqDoorbell_of_refused (h : (s.ctx c).st = .active) (ht : ¬ SqTakes s c p) :
    sqDoorbell s c p = s.bump kSqDoorbellIgnored 1 :=
  (if_neg (not_not_intro h)).trans (if_neg ht)

theorem exec_sqDb (hon : s.off = false) (hc : c < 256) (hp : p < 2 ^ 32) :
    exec (.sqDb c p) s = .next (s.inside (sqDoorbell s c p)) := by
  change execSqDb c p s = _
  rw [execSqDb, onCtx_present s _ hc, live_on _ hon, Nat.mod_eq_of_lt hp]

end

/-- Settles O9: the clauses are what the device asks of a submission doorbell. -/
theorem submissionDoorbellRules : Obligations.SubmissionDoorbellRules := by
  intro s c p hon hc hp
  rw [exec_controlWindowWrite_sq hon hc hp, exec_sqDb hon hc hp]
  refine ⟨rfl, fun h => ?_, fun h hfits hahead => ?_, fun h hbad => ?_⟩
  · rw [sqDoorbell_of_inactive h]
    rfl
  · rw [sqDoorbell_of_taken h ⟨hfits, hahead⟩]
    rfl
  · have hnot : ¬ SqTakes s c p := by
      rintro ⟨hfits, hahead⟩
      rcases hbad with hbad | hbad
      · exact absurd hfits (Nat.not_le.mpr hbad)
      · exact absurd hahead (Nat.not_le.mpr hbad)
    rw [sqDoorbell_of_refused h hnot]
    rfl

/-! ## Completion doorbells (R477) -/

/-- What the device asks of the consumer in a completion doorbell (R477). -/
def CqTakes (s : State) (c q : Nat) : Prop := past (s.ctx c).cqCons q ≤ past (s.ctx c).cqCons (s.ctx c).cqProd

section
variable {s : State} {c : Nat}

theorem cqDoorbell_of_taken {q : Nat} (h : CqTakes s c q) :
    cqDoorbell s c q = setDb (s.setCtx c { s.ctx c with cqCons := q, intArmed := true }) (4096 * c + 8) q := if_pos h

theorem cqDoorbell_of_refused {q : Nat} (h : ¬ CqTakes s c q) : cqDoorbell s c q = s.bump kCtrlIgnoredCount 1 := if_neg h

variable (hon : s.off = false) (hc : c < 256)
include hon hc

theorem exec_cqDb {q : Nat} (hq : q < 2 ^ 32) : exec (.cqDb c q) s = .next (s.inside (cqDoorbell s c q)) := by
  change execCqDb c q s = _
  rw [execCqDb, onCtx_present s _ hc, live_on _ hon, Nat.mod_eq_of_lt hq]

/-- A held interrupt is sent once `CQ_MOD_US` has passed since the latest one (R477). -/
theorem exec_cqModExpiry_of_held {t : Nat} (hheld : (s.ctx c).intHeld = true) (hlast : (s.ctx c).lastInt = some t) :
    exec (.cqModExpiry c) s = .next (if t + s.obj (objKey c kCqModUs) * 1000 ≤ s.time then
      s.inside (sendInt (s.setCtx c { s.ctx c with intHeld := false, lastInt := some s.time }) c (s.obj (objKey c kCqVector)))
    else s) := by
  change execCqModExpiry c s = _
  rw [execCqModExpiry, onCtx_present s _ hc, live_on _ hon]
  simp only [hheld, hlast, Option.all_some, decide_eq_true_eq, true_and]
  rw [apply_ite s.inside, State.inside_self]

end

/-- Settles O10: the clauses are what the device asks of a completion doorbell, and the two moments at which an interrupt that it holds
can be looked at. -/
theorem completionDoorbellRules : Obligations.CompletionDoorbellRules := by
  intro s c hon hc
  refine ⟨fun q hq => ?_, fun t hheld hlast => ?_⟩
  · rw [exec_controlWindowWrite_cq hon hc hq, exec_cqDb hon hc hq]
    refine ⟨rfl, fun h => ?_, fun h => ?_⟩
    · rw [cqDoorbell_of_taken h]
      rfl
    · rw [cqDoorbell_of_refused (Nat.not_le.mpr h)]
      rfl
  · rw [exec_cqModExpiry_of_held hon hc hheld hlast]
    exact ⟨fun h => by rw [if_pos h], fun h => by rw [if_neg (Nat.not_le.mpr h)]⟩

/-! ## The mailbox doorbell (R482) -/

/-- What the device refuses a mailbox doorbell for (R482). -/
def MbxRefuses (s : State) (n : Nat) : Prop := s.mbx.busy = true ∨ n = 0 ∨ 4096 < n

section
variable {s : State} {n : Nat}

theorem mailboxDoorbell_of_refused (h : MbxRefuses s n) : mailboxDoorbell s n = s.bump kMbxIgnored 1 := if_pos h

theorem mailboxDoorbell_of_taken (h : ¬ MbxRefuses s n) :
    mailboxDoorbell s n =
      setDb { s with mbx := { s.mbx with cur := (List.range n).map (fun i => s.mbx.req.getD i 0), busy := true, done := false } }
        0x102000 n := if_neg h

theorem exec_mbxDb (hon : s.off = false) : exec (.mbxDb n) s = .next (s.inside (mailboxDoorbell s n)) :=
  live_on (fun s => mailboxDoorbell s n) hon

end

/-- Settles O11: the mailbox refuses the doorbell, or takes it with the request as it stands. -/
theorem mailboxDoorbellRules : Obligations.MailboxDoorbellRules := by
  intro s n hon
  rw [exec_mbxDb hon]
  refine ⟨fun h => ?_, fun hfree hlo hhi => ?_⟩
  · rw [mailboxDoorbell_of_refused h]
    rfl
  · have hnot : ¬ MbxRefuses s n := by
      rintro (hbusy | hzero | hlong)
      · exact Bool.false_ne_true (hfree.symm.trans hbusy)
      · omega
      · omega
    rw [mailboxDoorbell_of_taken hnot]
    rfl

end Sys2Proof.Proofs.Doorbells
end

section
/-! SUPPORT. The family of 14_host_link.md, part 2: the completion queue. -/

namespace Sys2Proof.Proofs.CompletionQueue

open Sys2Proof.Machine
open Sys2Proof.Proofs.MemoryChannels

/-! ## A full queue (R478) -/

/-- The completion of `o` is the next one of its context to be posted (R476). -/
abbrev PostsNext (s : State) (o : Op) : Prop := o.phase = .done ∧ (s.ctx o.ctx).doneQ.head? = some o.id

section
variable {s : State} {o : Op}

theorem exec_opComplete {id : Nat} (hon : s.off = false) (hop : s.op? id = some o) :
    exec (.opComplete id) s = .next (s.inside (postOp s o)) := by
  change execOpComplete id s = _
  rw [execOpComplete, live_on _ hon]
  simp only [hop]

theorem postOp_of_wait (h : PostsNext s o) (hfull : cqFull s o.ctx = true) (hst : (s.ctx o.ctx).st ≠ .teardown)
    (hw : o.cqSince = none) : postOp s o = s.putOp { o with cqSince := some s.time } := by
  rw [postOp, if_pos h, hfull, if_neg (by decide), if_neg hst, if_pos hw]

theorem postOp_of_discarded (h : PostsNext s o) (hfull : cqFull s o.ctx = true) (hst : (s.ctx o.ctx).st = .teardown) :
    postOp s o = removeOp (s.bump (objKey o.ctx kCqLost) 1) o := by
  rw [postOp, if_pos h, hfull, if_neg (by decide), if_pos hst]

theorem postOp_of_room (h : PostsNext s o) (hroom : cqFull s o.ctx = false) : postOp s o = removeOp (postEntry s o) o := by
  rw [postOp, if_pos h, hroom, if_pos (by decide)]

end

/-- Settles O16: the clauses are the two things that can become of a completed op while its queue is full. -/
theorem fullCompletionQueue : Obligations.FullCompletionQueue := by
  intro s id o hon hop hp hhead hfull
  have hnext : PostsNext s o := ⟨hp, by rw [hhead, op?_id hop]⟩
  rw [exec_opComplete hon hop]
  refine ⟨fun hst hw => ?_, fun hst => ?_⟩
  · rw [postOp_of_wait hnext hfull hst hw]
    rfl
  · rw [postOp_of_discarded hnext hfull hst]

/-! ## What posting an entry can change (R476, R477) -/

/-- A state from which `t` differs only in what has been sent, in the ports' own state, and in the contexts. -/
def Posts (s t : State) : Prop := t = { s with out := t.out, zl := t.zl, soune := t.soune, ctxs := t.ctxs }

section
variable {s t u : State}

theorem Posts.trans (h : Posts s t) (k : Posts t u) : Posts s u := by
  unfold Posts at *
  rw [k, h]

theorem posts_of_sends (h : Sends s t) : Posts s t := by
  unfold Sends at h
  unfold Posts
  rw [h]

theorem posts_setCtx (s : State) (c : Nat) (x : Ctx) : Posts s (s.setCtx c x) := rfl

theorem ctx_of_sends (h : Sends s t) (c : Nat) : t.ctx c = s.ctx c := by
  unfold Sends at h
  rw [h]
  rfl

/-- What posting leaves alone. -/
theorem Posts.keeps (h : Posts s t) :
    t.dp = s.dp ∧ t.ops = s.ops ∧ t.sig = s.sig ∧ t.groups = s.groups ∧ t.twin = s.twin := by
  unfold Posts at h
  rw [h]
  exact ⟨rfl, rfl, rfl, rfl, rfl⟩

end

/-- The interrupt of an entry: none, one that is sent, or one that is held (R477). -/
theorem cqInterrupt_cases (s : State) (c : Nat) :
    cqInterrupt s c = s ∨
    cqInterrupt s c = sendInt (s.setCtx c { s.ctx c with lastInt := some s.time, intHeld := false }) c (s.obj (objKey c kCqVector)) ∨
    cqInterrupt s c = s.setCtx c { s.ctx c with intHeld := true } := by
  unfold cqInterrupt
  dsimp only
  split_ifs
  · exact .inl rfl
  · exact .inr (.inl rfl)
  · exact .inr (.inr rfl)

/-- Whatever becomes of the interrupt, its context keeps its producer. -/
theorem cqInterrupt_spec (s : State) (c : Nat) :
    Posts s (cqInterrupt s c) ∧ ((cqInterrupt s c).ctx c).cqProd = (s.ctx c).cqProd := by
  rcases cqInterrupt_cases s c with h | h | h <;> rw [h]
  · exact ⟨rfl, rfl⟩
  · have hs := sends_sendInt (s.setCtx c { s.ctx c with lastInt := some s.time, intHeld := false }) c (s.obj (objKey c kCqVector))
    exact ⟨(posts_setCtx s c _).trans (posts_of_sends hs), by rw [ctx_of_sends hs, ctx_setCtx_same]⟩
  · exact ⟨posts_setCtx s c _, by rw [ctx_setCtx_same]⟩

/-- The device with bytes stored in host memory. -/
def hostStored (s : State) (a : Nat) (bs : List Nat) : State := { s with dp := { s.dp with mem := hostWrite s.dp.mem a bs } }

/-- What a store to host memory leaves alone. -/
theorem hostStored_keeps (s : State) (a : Nat) (bs : List Nat) :
    (hostStored s a bs).ops = s.ops ∧ (hostStored s a bs).sig = s.sig ∧ (hostStored s a bs).groups = s.groups ∧
      (hostStored s a bs).twin = s.twin := ⟨rfl, rfl, rfl, rfl⟩

theorem hostStored_mem (s : State) (a : Nat) (bs : List Nat) : (hostStored s a bs).dp.mem = hostWrite s.dp.mem a bs := rfl

theorem byteAt_hostStored_other (s : State) (a : Nat) (bs : List Nat) {k : Nat} (h : k < a ∨ a + bs.length ≤ k) :
    byteAt (hostStored s a bs) 2 k = byteAt s 2 k := hostWrite_other s.dp.mem a bs h

/-- Where the next entry of a context's completion queue lies in host memory (R474). -/
def entryAddr (s : State) (c : Nat) : Nat :=
  s.obj (objKey c kCqBase) + 32 * ((s.ctx c).cqProd % 2 ^ s.obj (objKey c kCqLog2))

/-- The device with the entry of an op in host memory, before it has sent anything (R476). -/
def entryStored (s : State) (o : Op) : State := hostStored s (entryAddr s o.ctx) (leBytes 32 (cqEntry s o))

/-- The device with the entry of an op in host memory and sent, before its interrupt (R476). -/
def entrySent (s : State) (o : Op) : State :=
  (zlTransact (entryStored s o) (zlPortFor s o.ctx) 0 (zlHdr 1 2 0 (entryAddr s o.ctx) 0) (leBytes 32 (cqEntry s o))).setCtx o.ctx
    { s.ctx o.ctx with cqProd := ((s.ctx o.ctx).cqProd + 1) % 2 ^ 32, intArmed := false }

section
variable (s : State) (o : Op)

theorem postEntry_eq : postEntry s o = if (s.ctx o.ctx).intArmed then cqInterrupt (entrySent s o) o.ctx else entrySent s o := rfl

theorem entrySent_posts : Posts (entryStored s o) (entrySent s o) :=
  (posts_of_sends (sends_zlTransact (entryStored s o) _ _ _ _)).trans (posts_setCtx _ _ _)

theorem entrySent_cqProd : ((entrySent s o).ctx o.ctx).cqProd = ((s.ctx o.ctx).cqProd + 1) % 2 ^ 32 := by
  rw [entrySent, ctx_setCtx_same]

/-- Besides what is sent and the contexts, posting an entry changes its bytes of host memory; the producer advances. -/
theorem postEntry_spec :
    Posts (entryStored s o) (postEntry s o) ∧ ((postEntry s o).ctx o.ctx).cqProd = ((s.ctx o.ctx).cqProd + 1) % 2 ^ 32 := by
  rw [postEntry_eq]
  split
  · obtain ⟨hposts, hprod⟩ := cqInterrupt_spec (entrySent s o) o.ctx
    exact ⟨(entrySent_posts s o).trans hposts, hprod.trans (entrySent_cqProd s o)⟩
  · exact ⟨entrySent_posts s o, entrySent_cqProd s o⟩

/-- An op that leaves the device is gone from its ops and its context, whose producer stays. -/
theorem removeOp_spec :
    (removeOp s o).dp = s.dp ∧ (removeOp s o).ops = s.ops.filter (fun x => x.id ≠ o.id) ∧ (removeOp s o).sig = s.sig ∧
      (removeOp s o).groups = s.groups ∧ (removeOp s o).twin = s.twin ∧
      ((removeOp s o).ctx o.ctx).cqProd = (s.ctx o.ctx).cqProd := by
  unfold removeOp
  dsimp only
  split
  · exact ⟨rfl, rfl, rfl, rfl, rfl, by simp [State.ctx]⟩
  · exact ⟨rfl, rfl, rfl, rfl, rfl, by simp [State.ctx]⟩

/-- The device once the entry of an op has been posted and the op has left. -/
theorem posted_spec {t : State} (ht : t = removeOp (postEntry s o) o) :
    t.dp = (entryStored s o).dp ∧ t.ops = s.ops.filter (fun x => x.id ≠ o.id) ∧
      (t.ctx o.ctx).cqProd = ((s.ctx o.ctx).cqProd + 1) % 2 ^ 32 ∧ t.sig = s.sig ∧ t.groups = s.groups ∧ t.twin = s.twin := by
  obtain ⟨hposts, hprod⟩ := postEntry_spec s o
  obtain ⟨hdp, hops, hsig, hgroups, htwin⟩ := hposts.keeps
  obtain ⟨hdp', hops', hsig', hgroups', htwin', hprod'⟩ := removeOp_spec (postEntry s o) o
  obtain ⟨hops0, hsig0, hgroups0, htwin0⟩ := hostStored_keeps s (entryAddr s o.ctx) (leBytes 32 (cqEntry s o))
  rw [ht]
  exact ⟨hdp'.trans hdp, hops'.trans (congrArg (List.filter _) (hops.trans hops0)), hprod'.trans hprod,
    hsig'.trans (hsig.trans hsig0), hgroups'.trans (hgroups.trans hgroups0), htwin'.trans (htwin.trans htwin0)⟩

end

/-! ## The entry (R474, R476) -/

/-- The phase bit of an entry is 1 on the even passes over the queue (R476). -/
theorem one_sub_mod_two (n : Nat) : 1 - n % 2 = if n % 2 = 0 then 1 else 0 := by
  split <;> omega

theorem cqEntry_eq (s : State) (o : Op) :
    cqEntry s o = hTag o.desc * 2 ^ 192 + o.status * 2 ^ 176 + o.opc * 2 ^ 168 + o.ctx * 2 ^ 160 + o.queue * 2 ^ 152 +
      o.info * 2 ^ 120 + (s.ctx o.ctx).sqCons * 2 ^ 88 +
      (if (s.ctx o.ctx).cqProd / 2 ^ s.obj (objKey o.ctx kCqLog2) % 2 = 0 then 1 else 0) := by
  rw [cqEntry, one_sub_mod_two]

theorem entryStored_reads (s : State) (o : Op) :
    hostRead (entryStored s o).dp.mem (entryAddr s o.ctx) 32 = leBytes 32 (cqEntry s o) := by
  have h := hostRead_hostWrite s.dp.mem (entryAddr s o.ctx) _ (leBytes_lt 32 (cqEntry s o))
  rwa [length_leBytes] at h

theorem entryStored_other (s : State) (o : Op) {a : Nat} (h : a < entryAddr s o.ctx ∨ entryAddr s o.ctx + 32 ≤ a) :
    byteAt (entryStored s o) 2 a = byteAt s 2 a :=
  byteAt_hostStored_other s (entryAddr s o.ctx) (leBytes 32 (cqEntry s o)) (by rwa [length_leBytes])

/-- Settles O15: the entry is the one write of host memory, what is sent for it touches no memory, and the op leaves the device. -/
theorem completionEntryPosted : Obligations.CompletionEntryPosted := by
  intro s id o hon hop hp hhead _ hroom k at_ phase
  have hid := op?_id hop
  have hnext : PostsNext s o := ⟨hp, by rw [hhead, hid]⟩
  obtain ⟨t, ht⟩ : ∃ t, t = removeOp (postEntry s o) o := ⟨_, rfl⟩
  obtain ⟨hdp, hops, hprod, hsig, hgroups, htwin⟩ := posted_spec s o ht
  have hexec : exec (.opComplete id) s = .next (s.inside t) := by rw [exec_opComplete hon hop, postOp_of_room hnext hroom, ht]
  have hmem : (s.inside t).dp.mem = (entryStored s o).dp.mem := congrArg Dp.mem hdp
  have hbyte : ∀ a, byteAt (s.inside t) 2 a = byteAt (entryStored s o) 2 a := fun a => by rw [byteAt, byteAt, hmem]
  refine ⟨s.inside t, hexec, fun e he => ?_, hprod, ?_, fun a ha => (hbyte a).trans (entryStored_other s o ha), ?_, ?_, ?_, hsig,
    hgroups, htwin⟩
  · have he' : e ∈ s.ops.filter (fun x => x.id ≠ o.id) := hops ▸ he
    simpa [hid] using (List.mem_filter.mp he').2
  · rw [hmem]
    exact (entryStored_reads s o).trans (congrArg (leBytes 32) (cqEntry_eq s o))
  · rw [hmem, entryStored, hostStored_mem, hostWrite_near]
  · rw [hmem, entryStored, hostStored_mem, hostWrite_hbm]
  · rw [hmem, entryStored, hostStored_mem, hostWrite_flash]

end Sys2Proof.Proofs.CompletionQueue
end

section
/-! SUPPORT. The family of 14_host_link.md, part 3: reads of host memory, as they come, fail and expire. -/

namespace Sys2Proof.Proofs.HostReads

open Sys2Proof.Machine
open Sys2Proof.Proofs.MemoryChannels
open Sys2Proof.Proofs.Prefetch

/-! ## The commands by the read that they name (R469) -/

section
variable {s : State} {p tag : Nat} (hon : s.off = false) (hp : p < 2)
include hon hp

theorem exec_hostReadCompletion_of_unknown (err : Nat) (hr : findRead s p tag = none) :
    exec (.hostReadCompletion p tag err) s = .next (s.bump kZlLateCplCount 1) := by
  change execHostReadCompletion p tag err s = _
  rw [execHostReadCompletion, if_neg (Nat.not_le.mpr hp), live_on _ hon]
  simp only [hr]
  rfl

theorem exec_hostReadCompletion_of_came {r : HostRd} {o : Op} (hr : findRead s p tag = some r) (hop : s.op? r.op = some o) :
    exec (.hostReadCompletion p tag 0) s = .next (s.inside (readCame (dropRead s r) o)) := by
  have hop' : (dropRead s r).op? r.op = some o := hop
  change execHostReadCompletion p tag 0 s = _
  rw [execHostReadCompletion, if_neg (Nat.not_le.mpr hp), live_on _ hon]
  simp only [hr, hop', ne_eq, not_true_eq_false, if_false]

theorem exec_hostReadCompletion_of_failed {r : HostRd} {err : Nat} (he : err ≠ 0) (hr : findRead s p tag = some r) :
    exec (.hostReadCompletion p tag err) s = .next (s.inside (failHostRead (dropRead s r) r)) := by
  change execHostReadCompletion p tag err s = _
  rw [execHostReadCompletion, if_neg (Nat.not_le.mpr hp), live_on _ hon]
  simp only [hr, if_pos he]

theorem exec_hostReadTimeout_of_unknown (hr : findRead s p tag = none) : exec (.hostReadTimeout p tag) s = .next s := by
  change execHostReadTimeout p tag s = _
  rw [execHostReadTimeout, if_neg (Nat.not_le.mpr hp), live_on _ hon]
  simp only [hr, State.inside_self]

theorem exec_hostReadTimeout_of_outstanding {r : HostRd} (hr : findRead s p tag = some r) :
    exec (.hostReadTimeout p tag) s = .next
      (if s.expired r.since (s.obj kZlCplTimeoutUs * 1000) then s.inside (failHostRead (dropRead s r) r) else s) := by
  change execHostReadTimeout p tag s = _
  rw [execHostReadTimeout, if_neg (Nat.not_le.mpr hp), live_on _ hon]
  simp only [hr]
  rw [apply_ite s.inside, State.inside_self]

end

/-! ## A read that has come -/

/-- An op without transfers that wait for a tag is released with its last read. -/
theorem readCame_of_all_sent {s : State} {o : Op} (h : o.hostTodo = []) :
    readCame s o = s.putOp { o with hostOk := s.zlReads.all (fun x => x.op != o.id) } := by
  have hall : (!s.zlReads.any (fun x => x.op == o.id)) = s.zlReads.all (fun x => x.op != o.id) := by
    rw [List.not_any_eq_all_not]
    rfl
  unfold readCame
  rw [h]
  simp only [sendMrds, List.foldl_nil, List.isEmpty_nil, Bool.true_and, hall]

/-! ## A read that fails -/

/-- The device without the reads of an op that wait for their completion. -/
def readsDropped (s : State) (r : HostRd) : State :=
  { dropRead s r with zlReads := (dropRead s r).zlReads.filter (fun x => x.op ≠ r.op) }

theorem failHostRead_of_started {s : State} {r : HostRd} {o : Op} (hop : s.op? r.op = some o) (hp : o.phase = .started) :
    failHostRead (dropRead s r) r = endUnread (readsDropped s r) o r.part := by
  have hop' : (readsDropped s r).op? r.op = some o := hop
  unfold failHostRead
  dsimp only
  rw [← readsDropped, hop']
  exact if_pos hp

section
variable {s : State} {o : Op} {part : Nat}

theorem endUnread_of_coll {c : Coll} (h : s.coll? o.id = some c) : endUnread s o part = endColl s c 0x0207 := by
  simp only [endUnread, h]

/-- A prefetch schedule as it is cancelled after a read for its entry `part` has failed. -/
def unread (x : Sched) (part : Nat) : Sched :=
  { x with inflight := x.inflight.filter (fun p => p.1 ≠ part), ready := x.ready ++ x.inflight.filter (fun p => p.1 == part) }

theorem endUnread_of_sched {x : Sched} (h : s.coll? o.id = none) (hx : s.scheds.find? (fun x => x.op == o.id) = some x) :
    endUnread s o part = cancelSched s (unread x part) 0x0207 := by
  simp only [endUnread, h, hx, unread]

theorem endUnread_of_rest (h : s.coll? o.id = none) (hx : s.scheds.find? (fun x => x.op == o.id) = none)
    (hplan : (formOf o.desc).bind (opPlan s o) = none) :
    endUnread s o part = if o.opc = opING then dropIng (finishOp s o.id 0x0207 0) o.id else finishOp s o.id 0x0207 0 := by
  simp only [endUnread, h, hx, hplan]

end

/-! ## The op of a cancelled schedule -/

/-- An op that has not completed. -/
def Unfinished (s : State) (id : Nat) : Prop := ∃ o, s.op? id = some o ∧ o.phase ≠ .done

theorem ends_of_unfinished {s : State} {id : Nat} (h : Unfinished s id) (status info : Nat) :
    EndedAs (finishOp s id status info) id status info := by
  obtain ⟨o, hop, hp⟩ := h
  exact finishOp_ended hop hp

theorem ends_of_bump {s : State} {id status info : Nat} (h : EndedAs s id status info) (k n : Nat) :
    EndedAs (s.bump k n) id status info := h

/-- A change of ops that keeps their numbers, and finishes no op of that number. -/
theorem Unfinished.map {s t : State} {id : Nat} (h : Unfinished s id) (f : Op → Op) (hid : ∀ e, (f e).id = e.id)
    (hf : ∀ e, e.id = id → e.phase ≠ .done → (f e).phase ≠ .done) (hops : t.ops = s.ops.map f) : Unfinished t id := by
  obtain ⟨o, hop, hp⟩ := h
  exact ⟨f o, by rw [op?_map f hid hops, hop]; rfl, hf o (op?_id hop) hp⟩

theorem Unfinished.noteFences {s : State} {id : Nat} (h : Unfinished s id) : Unfinished (noteFences s) id :=
  h.map _ (fun e => by split <;> rfl) (fun e _ he => by split <;> exact he) rfl

theorem Unfinished.putOp {s : State} {id : Nat} (h : Unfinished s id) {x : Op} (hx : x.id ≠ id) : Unfinished (s.putOp x) id := by
  refine h.map (fun e => if e.id = x.id then x else e) (fun e => ?_) (fun e he hp => ?_) rfl
  · split
    · next heq => exact heq.symm
    · rfl
  · rwa [if_neg (fun heq => hx (heq.symm.trans he))]

/-- The completion of another op leaves it unfinished. -/
theorem Unfinished.finishOp {s : State} {id k : Nat} (h : Unfinished s id) (hk : k ≠ id) (status info : Nat) :
    Unfinished (finishOp s k status info) id := by
  unfold Machine.finishOp
  cases he : s.op? k with
  | none => exact h
  | some e =>
    have hput := h.putOp (x := { e with phase := .done, status := status, info := info }) (fun heq => hk ((op?_id he).symm.trans heq))
    dsimp only
    split
    · exact h
    · split <;> exact Unfinished.noteFences hput

theorem Unfinished.finishOps {s : State} {id : Nat} (h : Unfinished s id) {l : List Nat} (hl : ∀ k ∈ l, k ≠ id) (status : Nat) :
    Unfinished (l.foldl (fun s k => Machine.finishOp s k status 0) s) id := by
  induction l generalizing s with
  | nil => exact h
  | cons k l ih =>
    exact ih (h.finishOp (hl k List.mem_cons_self) status 0) (fun j hj => hl j (List.mem_cons_of_mem _ hj))

/-- A schedule's copy changes memories, and no op. -/
theorem schedCopy_ops (s : State) (x : Sched) (e : SchedEntry) : (schedCopy s x e).1.ops = s.ops := by
  have h : ∀ (E : Env) (e : Eff), (s.effect E e).ops = s.ops := fun E e => by
    have hs := sends_effect s E e
    unfold Sends at hs
    rw [hs]
    rfl
  exact h _ _

/-- No two ops of the device have one number (log 4). -/
def NumbersDistinct (s : State) : Prop := (s.ops.map (·.id)).Nodup

theorem eq_of_same_number {s : State} (h : NumbersDistinct s) {id : Nat} {o e : Op} (hop : s.op? id = some o) (he : e ∈ s.ops)
    (hid : e.id = id) : e = o :=
  List.inj_on_of_nodup_map h he (List.mem_of_find?_eq_some hop) (hid.trans (op?_id hop).symm)

/-- A cancelled schedule's copies in flight, carried out, and the entries whose copies failed (R310). -/
def copiesEnded (s : State) (x : Sched) : State × List (Nat × SchedEntry) :=
  x.inflight.foldl (fun p q => ((schedCopy p.1 x q.2).1, if (schedCopy p.1 x q.2).2 = 0 then p.2 else p.2 ++ [q])) (s, [])

theorem copiesEnded_ops (s : State) (x : Sched) : (copiesEnded s x).1.ops = s.ops :=
  foldl_keeps (fun q : State × List (Nat × SchedEntry) => q.1.ops) (fun p q => schedCopy_ops p.1 x q.2) x.inflight (s, [])

/-- The ops that wait for a schedule's entries (R309). -/
def heldOps (s : State) (x : Sched) : List Nat :=
  (s.ops.filter (fun o => o.heldSince.isSome && o.phase == .placed && heldBy x o)).map (·.id)

/-- The device with a cancelled schedule's copies counted and the schedule gone (R310). -/
def schedGone (s : State) (x : Sched) : State :=
  let s1 := (copiesEnded s x).1.bump kPftEntriesDone (x.inflight.length - (copiesEnded s x).2.length)
  { s1 with scheds := s1.scheds.filter (fun y => y.op ≠ x.op) }

theorem schedGone_ops (s : State) (x : Sched) : (schedGone s x).ops = s.ops := copiesEnded_ops s x

theorem cancelSched_eq (s : State) (x : Sched) (status : Nat) :
    cancelSched s x status =
      (finishOp ((heldOps (schedGone s x) { x with inflight := (copiesEnded s x).2 }).foldl (fun s id => finishOp s id 0x01A2 0)
        (schedGone s x)) x.op status 0).bump kPftCancelCount 1 := rfl

/-- The RUN of a schedule that is cancelled ends with the status of the cancellation: the ops that the schedule held are others. -/
theorem ends_of_cancelSched {s : State} {x : Sched} {o : Op} (hd : NumbersDistinct s) (hop : s.op? x.op = some o)
    (hp : o.phase = .started) (status : Nat) : EndedAs (cancelSched s x status) x.op status 0 := by
  have hrun : Unfinished (schedGone s x) x.op := ⟨o, by rw [State.op?, schedGone_ops]; exact hop, by rw [hp]; decide⟩
  rw [cancelSched_eq]
  refine ends_of_bump (ends_of_unfinished (hrun.finishOps (fun k hk hkx => ?_) 0x01A2) status 0) _ _
  obtain ⟨e, he, hek⟩ := List.mem_map.mp hk
  rw [schedGone_ops] at he
  obtain ⟨hmem, hheld⟩ := List.mem_filter.mp he
  rw [eq_of_same_number hd hop hmem (hek.trans hkx), hp] at hheld
  simp at hheld

/-- The op of a failed read that is no collective and has no working ends with 0x0207, where no other op has its number. -/
theorem ends_of_failHostRead {s : State} {r : HostRd} {o : Op} (hd : NumbersDistinct s) (hop : s.op? r.op = some o)
    (hp : o.phase = .started) (hcoll : s.coll? r.op = none) (hplan : (formOf o.desc).bind (opPlan s o) = none) :
    EndedAs (failHostRead (dropRead s r) r) r.op 0x0207 0 := by
  have hid := op?_id hop
  have hcoll' : (readsDropped s r).coll? o.id = none := by rw [hid]; exact hcoll
  rw [failHostRead_of_started hop hp]
  cases hx : (readsDropped s r).scheds.find? (fun x => x.op == o.id) with
  | some x =>
    have hxo : x.op = r.op := by simpa [hid] using List.find?_some hx
    rw [← hxo] at hop ⊢
    rw [endUnread_of_sched hcoll' hx]
    exact ends_of_cancelSched (s := readsDropped s r) (x := unread x r.part) hd hop hp 0x0207
  | none =>
    rw [endUnread_of_rest hcoll' hx hplan, hid]
    have hend : EndedAs (finishOp (readsDropped s r) r.op 0x0207 0) r.op 0x0207 0 :=
      finishOp_ended (o := o) hop (by rw [hp]; decide)
    split <;> exact hend

/-! ## R469 where op numbers are distinct, and where they are not -/

/-- What O39 says, of a device in which no two ops have one number. That an op goes on once all of its reads have come is the model's
choice (log 45). -/
theorem hostReadRules_of_numbersDistinct (s : State) (p tag : Nat) (hon : s.off = false) (hp : p < 2) (hd : NumbersDistinct s) :
    (findRead s p tag = none →
      (∀ err, exec (.hostReadCompletion p tag err) s = .next (s.bump kZlLateCplCount 1)) ∧
      exec (.hostReadTimeout p tag) s = .next s) ∧
    (∀ r o, findRead s p tag = some r → s.op? r.op = some o →
      exec (.hostReadCompletion p tag 0) s = .next (s.inside (readCame (dropRead s r) o)) ∧
      (o.hostTodo = [] → exec (.hostReadCompletion p tag 0) s = .next ((dropRead s r).putOp
        { o with hostOk := (dropRead s r).zlReads.all (fun x => x.op != o.id) })) ∧
      (∀ err, err ≠ 0 → o.phase = .started →
        (s.coll? r.op = none → (formOf o.desc).bind (opPlan s o) = none →
          ∃ t, exec (.hostReadCompletion p tag err) s = .next t ∧ EndedAs t r.op 0x0207 0) ∧
        (∀ c, s.coll? r.op = some c →
          exec (.hostReadCompletion p tag err) s = .next (s.inside (endColl (readsDropped s r) c 0x0207)))) ∧
      (s.expired r.since (s.obj kZlCplTimeoutUs * 1000) = false → exec (.hostReadTimeout p tag) s = .next s) ∧
      (s.expired r.since (s.obj kZlCplTimeoutUs * 1000) = true →
        exec (.hostReadTimeout p tag) s = .next (s.inside (failHostRead (dropRead s r) r)))) := by
  refine ⟨fun hr => ⟨fun err => exec_hostReadCompletion_of_unknown hon hp err hr, exec_hostReadTimeout_of_unknown hon hp hr⟩,
    fun r o hr hop => ⟨exec_hostReadCompletion_of_came hon hp hr hop, fun htodo => ?_, fun err he hst => ⟨fun hcoll hplan => ?_,
      fun c hcoll => ?_⟩, fun hin => ?_, fun hout => ?_⟩⟩
  · rw [exec_hostReadCompletion_of_came hon hp hr hop, readCame_of_all_sent htodo]
    rfl
  · exact ⟨_, exec_hostReadCompletion_of_failed hon hp he hr, ends_of_failHostRead hd hop hst hcoll hplan⟩
  · have hcoll' : (readsDropped s r).coll? o.id = some c := by rw [op?_id hop]; exact hcoll
    rw [exec_hostReadCompletion_of_failed hon hp he hr, failHostRead_of_started hop hst, endUnread_of_coll hcoll']
  · rw [exec_hostReadTimeout_of_outstanding hon hp hr, hin]
    rfl
  · rw [exec_hostReadTimeout_of_outstanding hon hp hr, if_pos hout]

/-- A read of host memory for op 0. -/
def readOfOp0 : HostRd := { port := 0, tag := 3, op := 0, part := 0, since := 0 }

/-- Two ops numbered 0: a RUN that has started and reads host memory, and an MMA of layer 5 that the RUN's schedule holds. -/
def sameNumber : State :=
  { ops := [{ id := 0, ctx := 0, queue := 0x85, opc := opPFT, desc := 1 + opPFT * 2 ^ 32, phase := .started },
            { id := 0, ctx := 0, queue := 0, opc := opMMA, desc := 1 + opMMA * 2 ^ 32 + 5 * 2 ^ 52, heldSince := some 0 }]
    zlReads := [readOfOp0]
    scheds := [{ op := 0, ctx := 0, id := 0, addr := 0, entries := 1, rep := 1, window := 1
                 cur := some { src := 0, dst := 0, bytes := 16, after := 0, done := 0, forLayer := 5, bay := 0 } }] }

/-- The RUN's read fails, and the RUN ends with the status of the MMA that its schedule held. -/
theorem sameNumber_status :
    ((failHostRead (dropRead sameNumber readOfOp0) readOfOp0).op? 0).map Op.status = some 0x01A2 := by decide +kernel

/-- Without the MMA the same device meets the premises of `hostReadRules_of_numbersDistinct`. -/
theorem witness_numbersDistinct :
    let s : State := { sameNumber with ops := sameNumber.ops.take 1 }
    s.off = false ∧ NumbersDistinct s ∧ findRead s 0 3 = some readOfOp0 ∧ (s.op? 0).isSome = true :=
  ⟨rfl, by simp [NumbersDistinct, sameNumber], rfl, rfl⟩

/-- Refutes O39: the statement is of every state, also of those in which two ops have one number. In `sameNumber` a started RUN and an op
that its schedule holds are both numbered 0; when the RUN's read fails, the cancelled schedule first ends the op that it held, with
0x01A2, and so ends the RUN with that status and not with 0x0207. `hostReadRules_of_numbersDistinct` is what holds. -/
theorem not_hostReadRules : ¬ Obligations.HostReadRules := by
  intro h
  obtain ⟨-, hread⟩ := h sameNumber 0 3 rfl (by decide)
  obtain ⟨-, -, hfail, -⟩ := hread readOfOp0 _ rfl rfl
  obtain ⟨t, ht, o, hop, -, hstatus, -⟩ := (hfail 1 (by decide) rfl).1 rfl (by decide +kernel)
  rw [exec_hostReadCompletion_of_failed rfl (by decide) (by decide) (show findRead sameNumber 0 3 = some readOfOp0 from rfl)] at ht
  cases ht
  have hsame : some o.status = some 0x01A2 := (congrArg (Option.map Op.status) hop).symm.trans sameNumber_status
  rw [hstatus] at hsame
  exact absurd hsame (by decide)

end Sys2Proof.Proofs.HostReads
end

section
/-! SUPPORT. The family of 14_host_link.md, part 4: the training of ZelugLink ports. -/

namespace Sys2Proof.Proofs.ZelugLink

open Sys2Proof.Machine

/-! ## Receivers, lock and the full rate are reached (R465) -/

/-- What a port of ZelugLink does that reaches its next state on `n` lanes, by the state in which it is (R465). -/
def zlReached (s : State) (p n : Nat) : State :=
  match (s.port true p).st with
  | 0 => zlTrain s p 1 (s.port true p).lanes
  | 1 => zlTrain s p 2 (s.port true p).lanes
  | 2 => zlTrain s p 3 (if (s.port true p).recovering ∨ n < 16 then 8 else 16)
  | 3 => if n < (s.port true p).lanes then s else zlActivate s p
  | 6 => if (s.port true p).lanes ≤ n then zlActivate s p else zlTrain s p 2 8
  | _ => s

/-- What a port of ZelugLink does that has been too long in its state (R465, R466). -/
def zlOverdue (s : State) (p : Nat) : State :=
  match (s.port true p).st with
  | 0 => if s.expired (s.port true p).since 12000000 then zlTrain s p 0 (s.port true p).lanes else s
  | 1 => if s.expired (s.port true p).since 24000000 then zlTrain s p 0 (s.port true p).lanes else s
  | 2 => if s.expired (s.port true p).since 2000000 then zlTrain s p 0 (s.port true p).lanes else s
  | 3 => if s.expired (s.port true p).since 32000000 then zlDown s p else s
  | 6 => if s.expired (s.port true p).since 1000000 then zlDown s p else s
  | _ => s

section
variable {s : State} {p n : Nat}

theorem zlReached_of_detect (h : (s.port true p).st = 0) : zlReached s p n = zlTrain s p 1 (s.port true p).lanes := by
  simp only [zlReached, h]

theorem zlReached_of_poll (h : (s.port true p).st = 1) : zlReached s p n = zlTrain s p 2 (s.port true p).lanes := by
  simp only [zlReached, h]

theorem zlReached_of_config (h : (s.port true p).st = 2) :
    zlReached s p n = zlTrain s p 3 (if (s.port true p).recovering ∨ n < 16 then 8 else 16) := by
  simp only [zlReached, h]

/-- The last state of training, and RECOVERY, end in ACTIVE on the lanes that the port holds. -/
theorem zlReached_of_last (h : (s.port true p).st = 3 ∨ (s.port true p).st = 6) (hl : (s.port true p).lanes ≤ n) :
    zlReached s p n = zlActivate s p := by
  rcases h with h | h
  · simp only [zlReached, h, if_neg (Nat.not_lt.mpr hl)]
  · simp only [zlReached, h, if_pos hl]

/-- The states in which training starts again once they have taken too long. -/
theorem zlOverdue_of_training
    (h : (s.port true p).st = 0 ∧ s.expired (s.port true p).since 12000000 = true ∨
      (s.port true p).st = 1 ∧ s.expired (s.port true p).since 24000000 = true ∨
      (s.port true p).st = 2 ∧ s.expired (s.port true p).since 2000000 = true) :
    zlOverdue s p = zlTrain s p 0 (s.port true p).lanes := by
  rcases h with ⟨h, hdue⟩ | ⟨h, hdue⟩ | ⟨h, hdue⟩ <;> simp only [zlOverdue, h, hdue, if_true]

/-- The states from which the port goes DOWN once they have taken too long. -/
theorem zlOverdue_of_last
    (h : (s.port true p).st = 3 ∧ s.expired (s.port true p).since 32000000 = true ∨
      (s.port true p).st = 6 ∧ s.expired (s.port true p).since 1000000 = true) :
    zlOverdue s p = zlDown s p := by
  rcases h with ⟨h, hdue⟩ | ⟨h, hdue⟩ <;> simp only [zlOverdue, h, hdue, if_true]

/-- ACTIVE and DOWN have no time limit. -/
theorem zlOverdue_of_settled (h : (s.port true p).st = 4 ∨ (s.port true p).st = 5 ∨ (s.port true p).st = 7) : zlOverdue s p = s := by
  rcases h with h | h | h <;> simp only [zlOverdue, h]

end

/-! ## The commands of a port (R464, R465) -/

section
variable {s : State} {p : Nat} (hon : s.off = false) (hp : p < 2)
include hon hp

theorem exec_zlFlitReceive (f : Flit) :
    exec (.zlFlitReceive p f) s = .next (s.inside (receiveFrame s true p f.ctrl f.data f.uncorrectable).1) := by
  change execZlFlitReceive p f s = _
  rw [execZlFlitReceive, if_neg (Nat.not_le.mpr hp), live_on _ hon]

theorem exec_zlReceiverDetect_of_few {n : Nat} (hn : n < 8) : exec (.zlReceiverDetect p n) s = .next s := by
  change execZlReceiverDetect p n s = _
  rw [execZlReceiverDetect, if_neg (Nat.not_le.mpr hp), live_on _ hon]
  simp only [hn, true_or, if_true, State.inside_self]

theorem exec_zlReceiverDetect_of_enough {n : Nat} (hn : 8 ≤ n) (htrain : zlTrains s = true) (hloop : inLoop s (64 + p) = false) :
    exec (.zlReceiverDetect p n) s = .next (s.inside (zlReached s p n)) := by
  have hgo : ¬ (n < 8 ∨ (!zlTrains s) = true ∨ inLoop s (64 + p) = true) := by
    rw [htrain, hloop]
    simpa using hn
  change execZlReceiverDetect p n s = _
  rw [execZlReceiverDetect, if_neg (Nat.not_le.mpr hp), live_on _ hon]
  dsimp only
  rw [if_neg hgo]
  rfl

theorem exec_zlLinkStateTimeout : exec (.zlLinkStateTimeout p) s = .next (s.inside (zlOverdue s p)) := by
  change execZlLinkStateTimeout p s = _
  rw [execZlLinkStateTimeout, if_neg (Nat.not_le.mpr hp), live_on _ hon]
  rfl

end

/-- Settles O41: the clauses are the states of a port, for receivers that are detected and for a state that has taken too long. -/
theorem zelugLinkPorts : Obligations.ZelugLinkPorts := by
  intro s p hon hp x
  refine ⟨exec_zlFlitReceive hon hp, fun n hn => exec_zlReceiverDetect_of_few hon hp hn, fun n hn htrain hloop => ?_, ?_⟩
  · rw [exec_zlReceiverDetect_of_enough hon hp hn htrain hloop]
    refine ⟨?_, fun hst => ?_, fun hst hl => ?_, fun hst hl => ?_⟩
    · rintro (hst | hst)
      · rw [zlReached_of_detect hst, hst]
        rfl
      · rw [zlReached_of_poll hst, hst]
        rfl
    · rw [zlReached_of_config hst]
      rfl
    · rw [zlReached_of_last (.inl hst) hl]
    · rw [zlReached_of_last (.inr hst) hl]
  · rw [exec_zlLinkStateTimeout hon hp]
    refine ⟨fun h => ?_, fun h => ?_, fun h => ?_⟩
    · rw [zlOverdue_of_training h]
      rfl
    · rw [zlOverdue_of_last h]
    · rw [zlOverdue_of_settled h, State.inside_self]

end Sys2Proof.Proofs.ZelugLink
end

section
/-! SUPPORT. The family of 15_collectives.md, part 1: the records of collectives, and the working of BCS and RDO after GO. -/

namespace Sys2Proof.Proofs.Collectives

open Sys2Proof.Machine

/-! ## Records, packets and ends -/

theorem coll?_op {s : State} {id : Nat} {c : Coll} (h : s.coll? id = some c) : c.op = id := by
  simpa using List.find?_some h

theorem sends_sendPacket (s : State) (h : Hdr) (pre : Nat) (bs : List Nat) : Sends s (sendPacket s h pre bs) := by
  unfold sendPacket
  split
  · exact Sends.refl s
  · split
    · exact Sends.refl s
    · exact (sends_send s _ _ _).trans (sends_souneTransact _ _ _ _)

theorem sends_ops {s t : State} (h : Sends s t) : t.ops = s.ops := by unfold Sends at h; rw [h]

theorem countEnd_ops (s : State) (code : Nat) : (countEnd s code).ops = s.ops := by
  unfold countEnd
  split_ifs <;> rfl

/-- How an op has ended is read from the ops alone. -/
theorem ends_of_ops {s t : State} {id status info : Nat} (h : EndedAs s id status info) (ht : t.ops = s.ops) :
    EndedAs t id status info := by
  obtain ⟨o, hop, hrest⟩ := h
  exact ⟨o, by rw [State.op?, ht]; exact hop, hrest⟩

/-- Chunks that a member has not written, once it may write (R509). -/
def unwritten (c : Coll) : Nat :=
  if c.phase = 2 ∧ writes (collDesc c.desc) c.member then (collDesc c.desc).chunks - c.written.length else 0

/-- The device without a collective, whose turn has passed where it held a ticket and had not started (R495, log 42). -/
def collGone (s : State) (c : Coll) : State :=
  let s1 := match findGroup s (collDesc c.desc).group with
    | some g => if c.phase = 0 ∧ c.ticket.isSome then noteSkipped s g.roster c.prior else s
    | none => s
  { s1 with colls := s1.colls.filter (fun x => x.op ≠ c.op), joins := s1.joins.filter (fun j => some j.ticket ≠ c.ticket) }

theorem collGone_ops (s : State) (c : Coll) : (collGone s c).ops = s.ops := by
  unfold collGone
  cases findGroup s (collDesc c.desc).group with
  | none => rfl
  | some g =>
    dsimp only
    split <;> rfl

/-- A collective whose op has not completed ends by completing its op. -/
theorem endColl_of_incomplete {c : Coll} (s : State) (code : Nat) (h : c.phase ≠ 3) :
    endColl s c code = countEnd (finishOp (collGone s c) c.op code (unwritten c)) code :=
  if_neg h

theorem ends_of_endColl {s : State} {c : Coll} {o : Op} (code : Nat) (h : c.phase ≠ 3) (hop : s.op? c.op = some o)
    (hp : o.phase ≠ .done) : EndedAs (endColl s c code) c.op code (unwritten c) := by
  have hop' : (collGone s c).op? c.op = some o := by rw [State.op?, collGone_ops]; exact hop
  rw [endColl_of_incomplete s code h]
  exact ends_of_ops (finishOp_ended hop' hp) (countEnd_ops _ _)

/-! ## After GO (R492, R493, R499) -/

section
variable {s : State} {c : Coll} {E : CollEnv}

/-- A collective of no elements ends at once. -/
theorem moveColl_of_empty (h : E.d.count = 0) :
    moveColl s E c = endColl (s.putColl { c with moved := true, since := s.time }) { c with moved := true } 0x0310 := if_pos h

variable {o : Op} (hc : s.coll? o.id = some c) (hE : collEnv s c = some E)
include hc hE

theorem runColl_of_no_go (hp : c.phase ≠ 2) : runColl s o = s := by
  simp only [runColl, hc, hE, if_pos hp]

variable (hp : c.phase = 2)
include hp

theorem runColl_of_moved (hm : c.moved = true) : runColl s o = collProgress s E o.id := by
  simp only [runColl, hc, hE, hp, hm, ne_eq, not_true_eq_false, if_false, if_true]

variable (hm : c.moved = false)
include hm

theorem runColl_of_nothing_to_read (h : E.d.count = 0 ∨ E.d.src = 0) : runColl s o = moveColl s E c := by
  simp only [runColl, hc, hE, hp, hm, ne_eq, not_true_eq_false, if_false, Bool.false_eq_true, if_pos h]

section
variable (hn : E.d.count ≠ 0) (hs : E.d.src ≠ 0)
include hn hs

/-- A source goes on once its bytes in host memory have come (R469, log 45). -/
theorem runColl_of_ready
    (hw : waitsForHost o ((sources s E).run {} : Except Nat (List (List Nat)) × Eff).2 = none) : runColl s o = moveColl s E c := by
  simp only [runColl, hc, hE, hp, hm, hn, hs, hw, ne_eq, not_true_eq_false, or_self, if_false, Bool.false_eq_true]

theorem runColl_of_unread {ts : List (Nat × Nat)}
    (hw : waitsForHost o ((sources s E).run {} : Except Nat (List (List Nat)) × Eff).2 = some ts) : runColl s o = readOn s o ts := by
  simp only [runColl, hc, hE, hp, hm, hn, hs, hw, ne_eq, not_true_eq_false, or_self, if_false, Bool.false_eq_true]

end

end

/-! ## Completion (R513, R514) -/

/-- The device once a collective whose data are moved has completed its op. -/
def collDone (s : State) (E : CollEnv) (c : Coll) : State :=
  (finishOp s c.op (collCode c) (if writes E.d c.member then c.lost.length else 0)).putColl { c with phase := 3 }

theorem collDone_mem (s : State) (E : CollEnv) (c : Coll) : (collDone s E c).dp.mem = s.dp.mem := by
  change (finishOp s c.op _ _).dp.mem = _
  rw [finishOp_frame]

/-- The record of a completed collective stays or goes. -/
theorem collProgress_of_finished {s : State} {E : CollEnv} {c : Coll} (hc : s.coll? c.op = some c) (hp : c.phase = 2)
    (hf : collFinished E c = true) : ∃ l, collProgress s E c.op = { collDone s E c with colls := l } := by
  have hdone : collProgress s E c.op = match (collDone s E c).coll? c.op with
      | none => collDone s E c
      | some c1 =>
        if c1.phase = 3 ∧ collIdle (collDone s E c) E c1 then
          { collDone s E c with colls := (collDone s E c).colls.filter (fun x => x.op ≠ c.op) }
        else collDone s E c := by
    simp only [collProgress, hc, hp, hf, and_self, if_true]
    rfl
  rw [hdone]
  split
  · exact ⟨_, rfl⟩
  · split <;> exact ⟨_, rfl⟩

theorem collCode_of_lost {c : Coll} (h : ∃ x ∈ c.lost, x.2 = 0x0404) : collCode c = 0x0404 := by
  have hmem : (c.lost.map (·.2)).contains 0x0404 = true := by simpa using h
  have hcode : lostCode c.lost = 0x0404 := by
    rw [lostCode, firstCode, List.find?_cons_of_pos hmem]
    rfl
  simp [collCode, hcode]

theorem collCode_of_whole {c : Coll} (h : c.lost = []) : collCode c = if c.subst then 0x0303 else 0 := by
  have hcode : lostCode c.lost = 0 := by rw [h]; rfl
  simp [collCode, hcode]

/-! ## The commands of BCS and RDO -/

/-- A collective op that works does what its record says. -/
theorem exec_collective {i : Instr} {f : Form} {s : State} {id : Nat} {o : Op}
    (hi : i = .bcs id ∧ f = .bcs ∨ i = .rdo id ∧ f = .rdo ∨ i = .rdoAll id ∧ f = .rdoAll) (h : Works s id o f) :
    exec i s = .next (s.inside (runColl s o)) := by
  rcases hi with ⟨rfl, rfl⟩ | ⟨rfl, rfl⟩ | ⟨rfl, rfl⟩ <;> exact live_onWork _ h

/-- Settles O29: the cases are whether GO has come, whether the member's own data are moved, and what they are. That the reads of the
source in host memory are all sent at once is the model's choice (log 45), and that 0x0303 ranks after R513's codes is log 87. -/
theorem collectiveWork : Obligations.CollectiveWork := by
  intro i f s id o c E hi hw hcoll hE
  rw [exec_collective hi hw]
  obtain ⟨⟨-, hop, hst, -⟩, -⟩ := hw
  have hid : o.id = id := op?_id hop
  have hcid : c.op = id := coll?_op hcoll
  have hc : s.coll? o.id = some c := by rw [hid]; exact hcoll
  have hd : E.d = collDesc c.desc := by
    obtain ⟨g, -, rfl⟩ := Option.map_eq_some_iff.mp hE
    rfl
  have hlive : o.phase ≠ .done := by rw [hst]; decide
  refine ⟨fun hp => ?_, fun hp hm => ⟨fun hn => ⟨_, rfl, ?_⟩, fun hn => ?_⟩,
    fun hp hm hf => ⟨_, rfl, ?_, ?_, collCode_of_lost, collCode_of_whole⟩⟩
  · rw [runColl_of_no_go hc hE hp, State.inside_self]
  · have hop' : (s.putColl { c with moved := true, since := s.time }).op? c.op = some o := by rw [hcid]; exact hop
    have hend := ends_of_endColl (c := { c with moved := true }) 0x0310 (by rw [hp]; decide) hop' hlive
    have hun : unwritten { c with moved := true } = if writes E.d c.member then E.d.chunks - c.written.length else 0 := by
      simp only [unwritten, hp, hd, true_and]
    rw [runColl_of_nothing_to_read hc hE hp hm (.inl hn), moveColl_of_empty hn, ← hun, ← hcid]
    exact ends_of_ops hend rfl
  · intro e
    refine ⟨fun hr => ?_, fun ts hs hr => ?_⟩
    · by_cases hs : E.d.src = 0
      · rw [runColl_of_nothing_to_read hc hE hp hm (.inr hs)]
      · rw [runColl_of_ready hc hE hp hm hn hs (hr.resolve_left hs)]
    · rw [runColl_of_unread hc hE hp hm hn hs hr]
  all_goals
    obtain ⟨l, hl⟩ := collProgress_of_finished (by rw [hcid]; exact hcoll) hp hf
    rw [runColl_of_moved hc hE hp hm, hid, ← hcid, hl]
  · exact ends_of_ops (finishOp_ended (by rw [hcid]; exact hop) hlive) rfl
  · exact collDone_mem s E c

end Sys2Proof.Proofs.Collectives
end

section
/-! SUPPORT. The family of 15_collectives.md, part 2: packets of the collective engine, and those that are discarded. -/

namespace Sys2Proof.Proofs.CollectivePackets

open Sys2Proof.Machine
open Sys2Proof.Proofs.ExpiryAndSignals

section
variable {s : State} {pkt : Packet} {h : Nat}

/-! ## The commands by the work of the engine (log 2) -/

section
variable (hon : s.off = false)
include hon

theorem exec_collJoin : exec (.collJoin pkt) s = .next (s.inside (onCollJoin pkt s)) := live_on _ hon
theorem exec_collGo : exec (.collGo pkt) s = .next (s.inside (onCollGo pkt s)) := live_on _ hon
theorem exec_collAbort : exec (.collAbort pkt) s = .next (s.inside (onCollAbort pkt s)) := live_on _ hon
theorem exec_chunk : exec (.chunk pkt) s = .next (s.inside (onChunk pkt s)) := live_on _ hon
theorem exec_chunkAck : exec (.chunkAck pkt) s = .next (s.inside (onChunkAck pkt s)) := live_on _ hon
theorem exec_resend : exec (.resend pkt) s = .next (s.inside (onResend pkt s)) := live_on _ hon
theorem exec_withheld : exec (.withheld pkt) s = .next (s.inside (onWithheld pkt s)) := live_on _ hon
theorem exec_ticketReq : exec (.ticketReq pkt) s = .next (s.inside (onTicketReq pkt s)) := live_on _ hon
theorem exec_ticket : exec (.ticket pkt) s = .next (s.inside (onTicket pkt s)) := live_on _ hon

theorem exec_collectiveStart {id : Nat} : exec (.collectiveStart id) s = .next (s.inside (onCollectiveStart id s)) := live_on _ hon

theorem exec_collectiveWaitExpiry {id : Nat} :
    exec (.collectiveWaitExpiry id) s = .next (s.inside (onCollectiveWaitExpiry id s)) := live_on _ hon

end

/-! ## Packets without a collective are discarded (R508, R510) -/

theorem onCollGo_of_none (hc : packetColl s pkt.hdr = none) : onCollGo pkt s = discardPacket s pkt.hdr := by
  simp only [onCollGo, hc]

theorem onCollAbort_of_none (hc : packetColl s pkt.hdr = none) : onCollAbort pkt s = discardPacket s pkt.hdr := by
  simp only [onCollAbort, hc]

theorem onChunk_of_none (hc : packetColl s pkt.hdr = none) : onChunk pkt s = discardPacket s pkt.hdr := by
  simp only [onChunk, hc]

theorem onWithheld_of_none (hc : packetColl s pkt.hdr = none) : onWithheld pkt s = discardPacket s pkt.hdr := by
  simp only [onWithheld, hc]

/-- The collectives here that a packet's ticket names (R510). -/
def ticketColls (s : State) (h : Nat) : List Coll := s.colls.filter (fun c => epochOk s h && c.ticket == some (pTicket h))

/-- Whether an acknowledgement, or a request to send once more, speaks of a chunk that was sent (R503). -/
def speaksOf (h : Nat) : CollSent → Bool := fun x => x.dst == pSrc h && x.chunk == pChunk h && x.level == pLevel h

theorem onChunkAck_of_none (hn : (ticketColls s pkt.hdr).find? (fun c => c.sent.any (speaksOf pkt.hdr)) = none) :
    onChunkAck pkt s = discardPacket s pkt.hdr := by
  unfold ticketColls speaksOf at hn
  simp only [onChunkAck, hn]

theorem onResend_of_none (hn : (ticketColls s pkt.hdr).findSome? (fun c => c.sent.find? (speaksOf pkt.hdr)) = none) :
    onResend pkt s = discardPacket s pkt.hdr := by
  unfold ticketColls speaksOf at hn
  simp only [onResend, hn]

/-! ## Epochs (R510) -/

theorem discardPacket_of_stale (he : epochOk s h = false) : discardPacket s h = s.bump kCollStaleCount 1 := by
  simp only [discardPacket, he, Bool.false_and, Bool.false_eq_true, if_false]

theorem packetColl_of_stale (he : epochOk s h = false) : packetColl s h = none := by
  simp only [packetColl, he, Bool.not_false, if_true]

/-- A packet's epoch is current or not by its group's roster. -/
theorem epochOk_of_group {g : Group} (hg : findGroup s (pGroup h) = some g) : epochOk s h = (g.roster.epoch == pEpoch h) := by
  simp only [epochOk, hg, Option.any_some]

theorem epoch_of_current {g : Group} (hg : findGroup s (pGroup h) = some g) (he : epochOk s h = true) : g.roster.epoch = pEpoch h := by
  simpa only [epochOk_of_group hg, beq_iff_eq] using he

theorem epoch_of_stale {g : Group} (hg : findGroup s (pGroup h) = some g) (he : epochOk s h = false) : g.roster.epoch ≠ pEpoch h := by
  simpa only [epochOk_of_group hg, beq_eq_false_iff_ne] using he

section
variable (he : epochOk s pkt.hdr = false)
include he

theorem onCollJoin_of_stale : onCollJoin pkt s = discardPacket s pkt.hdr := by
  cases hg : findGroup s (pGroup pkt.hdr) with
  | none => simp only [onCollJoin, hg]
  | some g => simp only [onCollJoin, hg, ne_eq, epoch_of_stale hg he, not_false_eq_true, true_or, if_true]

theorem onTicketReq_of_stale : onTicketReq pkt s = discardPacket s pkt.hdr := by
  cases hg : findGroup s (pGroup pkt.hdr) with
  | none => simp only [onTicketReq, hg]
  | some g => simp only [onTicketReq, hg, ne_eq, epoch_of_stale hg he, not_false_eq_true, true_or, if_true]

theorem onTicket_of_stale : onTicket pkt s = discardPacket s pkt.hdr := by
  simp only [onTicket, he, Bool.not_false, if_true]

theorem ticketColls_of_stale : ticketColls s pkt.hdr = [] := by
  simp [ticketColls, he]

end

/-- A discarded packet of a stale epoch is counted, and changes nothing else. -/
theorem next_of_discarded (he : epochOk s pkt.hdr = false) {t : State} (ht : t = discardPacket s pkt.hdr) :
    (.next (s.inside t) : Host.Outcome State Fault Refusal) = .next (s.bump kCollStaleCount 1) := by
  rw [ht, discardPacket_of_stale he]
  rfl

end

/-- Settles O30: each packet of the collective engine meets the check of its epoch before it is looked at. -/
theorem stalePacketsAreDiscarded : Obligations.StalePacketsAreDiscarded := by
  intro i pkt s hon he
  have hc : packetColl s pkt.hdr = none := packetColl_of_stale he
  refine ⟨fun hi => ?_, ?_⟩
  · simp only [List.mem_cons, List.not_mem_nil, or_false] at hi
    rcases hi with rfl | rfl | rfl | rfl | rfl | rfl | rfl | rfl | rfl
    · exact (exec_collJoin hon).trans (next_of_discarded he (onCollJoin_of_stale he))
    · exact (exec_collGo hon).trans (next_of_discarded he (onCollGo_of_none hc))
    · exact (exec_collAbort hon).trans (next_of_discarded he (onCollAbort_of_none hc))
    · exact (exec_chunk hon).trans (next_of_discarded he (onChunk_of_none hc))
    · exact (exec_chunkAck hon).trans (next_of_discarded he (onChunkAck_of_none (by rw [ticketColls_of_stale he]; rfl)))
    · exact (exec_resend hon).trans (next_of_discarded he (onResend_of_none (by rw [ticketColls_of_stale he]; rfl)))
    · exact (exec_withheld hon).trans (next_of_discarded he (onWithheld_of_none hc))
    · exact (exec_ticketReq hon).trans (next_of_discarded he (onTicketReq_of_stale he))
    · exact (exec_ticket hon).trans (next_of_discarded he (onTicket_of_stale he))
  · have hdrop : onRemoteSignal pkt s = s.bump kSigRemoteDrop 1 := by
      simp only [onRemoteSignal, he, Bool.false_and, Bool.false_eq_true, if_false]
    rw [exec_remoteSignal hon, hdrop]
    rfl

end Sys2Proof.Proofs.CollectivePackets
end

section
/-! SUPPORT. The family of 15_collectives.md, part 3: tickets, and the starts of collectives in their order. -/

namespace Sys2Proof.Proofs.Tickets

open Sys2Proof.Machine
open Sys2Proof.Proofs.Collectives
open Sys2Proof.Proofs.CollectivePackets

/-! ## The turns of a ticket sequence (R495, log 42) -/

/-- What `PRIOR` the collectives of a roster's sequence had that ended before their start. -/
def skippedOf (s : State) (r : Roster) : List Nat := (s.skipped.filter (fun x => x.1 == startedKey r)).map (·.2)

/-- The turns that have passed after `n`, with those behind them that were skipped. -/
def turnsAfter (mine : List Nat) (n : Nat) : Nat := mine.foldl (fun m _ => if mine.contains m then m + 1 else m) n

theorem turnsAfter_nil (n : Nat) : turnsAfter [] n = n := rfl

theorem turnsAfter_same (n : Nat) : turnsAfter [n] n = n + 1 := by simp [turnsAfter]

theorem turnsAfter_later {n p : Nat} (h : n < p) : turnsAfter [p] n = n := by simp [turnsAfter, h.ne]

theorem startedOf_passTurns (s : State) (r : Roster) (n : Nat) :
    (passTurns s (startedKey r) n).startedOf r = turnsAfter (skippedOf s r) n := kvGet_kvSet_same _ _ _ _

theorem passTurns_skipped (s : State) (r : Roster) (n : Nat) :
    (passTurns s (startedKey r) n).skipped =
      s.skipped.filter (fun x => x.1 != startedKey r || decide (turnsAfter (skippedOf s r) n ≤ x.2)) := rfl

/-- A skipped turn is remembered until it has passed. -/
theorem skippedOf_passTurns (s : State) (r : Roster) (n : Nat) :
    skippedOf (passTurns s (startedKey r) n) r = (skippedOf s r).filter (fun p => decide (turnsAfter (skippedOf s r) n ≤ p)) := by
  rw [skippedOf, passTurns_skipped]
  generalize turnsAfter (skippedOf s r) n = m
  rw [skippedOf, List.filter_map, List.filter_filter, List.filter_filter]
  congr 1
  refine List.filter_congr (fun x _ => ?_)
  cases hx : x.1 == startedKey r <;> simp [bne, hx]

theorem startedOf_noteStarted (s : State) (r : Roster) :
    (noteStarted s r).startedOf r = turnsAfter (skippedOf s r) (s.startedOf r + 1) := startedOf_passTurns s r _

theorem skippedOf_cons (s : State) (r : Roster) (p : Nat) :
    skippedOf { s with skipped := (startedKey r, p) :: s.skipped } r = p :: skippedOf s r := by
  simp [skippedOf]

theorem startedOf_noteSkipped (s : State) (r : Roster) (p : Nat) :
    (noteSkipped s r p).startedOf r = turnsAfter (p :: skippedOf s r) (s.startedOf r) := by
  rw [noteSkipped, startedOf_passTurns, skippedOf_cons]

theorem skippedOf_noteSkipped (s : State) (r : Roster) (p : Nat) :
    skippedOf (noteSkipped s r p) r =
      (p :: skippedOf s r).filter (fun q => decide (turnsAfter (p :: skippedOf s r) (s.startedOf r) ≤ q)) := by
  rw [noteSkipped, skippedOf_passTurns, skippedOf_cons]

theorem skippedOf_of_none {s : State} {r : Roster} (h : s.skipped.all (fun x => x.1 != startedKey r) = true) : skippedOf s r = [] := by
  rw [skippedOf, List.filter_eq_nil_iff.mpr]
  · rfl
  · simpa using h

/-- The turn behind one that was skipped has passed once the turn before it has. -/
theorem startedOf_noteStarted_noteSkipped {s : State} {r : Roster} (h : skippedOf s r = []) :
    (noteStarted (noteSkipped s r (s.startedOf r + 1)) r).startedOf r = s.startedOf r + 2 := by
  have hpast : (noteSkipped s r (s.startedOf r + 1)).startedOf r = s.startedOf r := by
    rw [startedOf_noteSkipped, h, turnsAfter_later (Nat.lt_succ_self _)]
  have hkept : skippedOf (noteSkipped s r (s.startedOf r + 1)) r = [s.startedOf r + 1] := by
    rw [skippedOf_noteSkipped, h, turnsAfter_later (Nat.lt_succ_self _)]
    simp
  rw [startedOf_noteStarted, hkept, hpast, turnsAfter_same]

/-! ## A ticket reaches the device (R494, R508, R510) -/

section
variable {s : State} {pkt : Packet} {g : Group} {group epoch ticket gseq prior : Nat}

theorem meetTicket_of_asked (h : s.colls.any (fun c => asks c group epoch gseq) = true) :
    meetTicket s group epoch ticket gseq prior = takeTicket s group epoch ticket gseq prior := if_pos h

section
variable (h : s.colls.any (fun c => asks c group epoch gseq) = false)
include h

theorem meetTicket_of_held (hk : s.colls.any (fun c => c.ticket == some ticket) = true) :
    meetTicket s group epoch ticket gseq prior = s := by
  simp only [meetTicket, h, hk, Bool.false_eq_true, if_false, if_true]

variable (hk : s.colls.any (fun c => c.ticket == some ticket) = false) (hg : findGroup s group = some g)
include hk hg

/-- A ticket whose own wait has expired here is late, and its number is noted (log 43). -/
theorem meetTicket_of_late (hl : s.late.contains (askKey group epoch gseq) = true) :
    meetTicket s group epoch ticket gseq prior =
      ({ noteSkipped s g.roster prior with
          late := ticket :: s.late.filter (· ≠ askKey group epoch gseq) } : State).bump kCollLateCount 1 := by
  simp only [meetTicket, h, hk, hg, hl, Bool.false_eq_true, if_false, if_true]
  rfl

theorem meetTicket_of_stale (hl : s.late.contains (askKey group epoch gseq) = false) :
    meetTicket s group epoch ticket gseq prior = (noteSkipped s g.roster prior).bump kCollStaleCount 1 := by
  simp only [meetTicket, h, hk, hg, hl, Bool.false_eq_true, if_false]

end

theorem meetTicket_mgr (s : State) (group epoch ticket gseq prior : Nat) : (meetTicket s group epoch ticket gseq prior).mgr = s.mgr := by
  unfold meetTicket
  split
  · rfl
  · split
    · rfl
    · dsimp only
      split <;> cases findGroup s group <;> rfl

theorem onTicket_of_current (he : epochOk s pkt.hdr = true) :
    onTicket pkt s = meetTicket s (pGroup pkt.hdr) (pEpoch pkt.hdr) (pTicket pkt.hdr) (leNat (pkt.data.take 4))
      (leNat ((pkt.data.drop 4).take 8)) := by
  simp only [onTicket, he, Bool.not_true, Bool.false_eq_true, if_false]

/-! ## Requests at the primary manager (R494, R546) -/

theorem sends_mgr {s t : State} (h : Sends s t) : t.mgr = s.mgr := by unfold Sends at h; rw [h]

theorem answerTicket_mgr (s : State) (dst group epoch ticket gseq prior : Nat) :
    (answerTicket s dst group epoch ticket gseq prior).mgr = s.mgr := by
  unfold answerTicket
  split
  · exact meetTicket_mgr _ _ _ _ _ _
  · exact sends_mgr (sends_sendPacket _ _ _ _)

/-- The ticket that the manager has given to a triple. -/
def givenTo (s : State) (group epoch gseq : Nat) : Option (Nat × Nat × Nat × Nat) :=
  s.mgr.given.find? (fun x => x.1 == group && x.2.1 == epoch && x.2.2.1 == gseq)

theorem giveTicket_mgr_of_given {src : Nat} {n : Nat × Nat × Nat × Nat} (hg : findGroup s group = some g)
    (hn : givenTo s group epoch gseq = some n) : (giveTicket s src group epoch gseq).mgr = s.mgr := by
  unfold givenTo at hn
  simp only [giveTicket, hg, hn, Option.isSome_some, Option.isNone_some, Bool.false_eq_true, and_false, if_false, if_true]
  exact answerTicket_mgr _ _ _ _ _ _ _

/-- The manager of a device that is not paired answers a triple that asks first at once. -/
theorem giveTicket_mgr_of_new {src : Nat} (ht : s.twin.st ≠ 2) (hg : findGroup s group = some g)
    (hn : givenTo s group epoch gseq = none) :
    (giveTicket s src group epoch gseq).mgr =
      { s.mgr with next := s.mgr.next + 1, given := s.mgr.given ++ [(group, epoch, gseq, s.mgr.next)] } := by
  unfold givenTo at hn
  simp only [giveTicket, hg, hn, ht, Option.isSome_none, Bool.false_eq_true, false_and, if_false]
  exact answerTicket_mgr _ _ _ _ _ _ _

theorem onTicketReq_of_not_primary (hg : findGroup s (pGroup pkt.hdr) = some g) (h : isPrimary s g = false) :
    onTicketReq pkt s = discardPacket s pkt.hdr := by
  simp only [onTicketReq, hg, h, Bool.not_false, or_true, if_true]

theorem onTicketReq_of_primary (he : epochOk s pkt.hdr = true) (hg : findGroup s (pGroup pkt.hdr) = some g) (h : isPrimary s g = true) :
    onTicketReq pkt s = giveTicket s (pSrc pkt.hdr) (pGroup pkt.hdr) (pEpoch pkt.hdr) (leNat (pkt.data.take 4)) := by
  simp only [onTicketReq, hg, h, epoch_of_current hg he, ne_eq, not_true_eq_false, Bool.not_true, Bool.false_eq_true, or_self, if_false]

end

/-! ## The start of a collective (R495) -/

/-- A placed collective holds its ticket in the current epoch of an operational group, on a device that may start it now. -/
structure HoldsTurn (s : State) (id : Nat) (o : Op) (g : Group) (c : Coll) : Prop where
  op : s.op? id = some o
  placed : o.phase = .placed
  kind : isColl o.opc = true
  twin : s.twin.st ≠ 5
  fence : s.ops.any (fun e => e.opc == opFNC && e.queue == o.queue && e.ctx == o.ctx && e.phase != .done && decide (e.id < o.id)) = false
  group : findGroup s (collDesc o.desc).group = some g
  coll : s.coll? id = some c
  formed : g.st = 1
  joins : c.phase = 0
  ticket : c.ticket ≠ none
  epoch : g.roster.epoch = (collDesc o.desc).epoch
  room : (s.colls.filter (fun x => decide (1 ≤ x.phase))).length < 64

/-- A collective as it starts: as the member that the roster names now, or as the stand-in that it was placed for (log 41). -/
def startedColl (s : State) (g : Group) (c : Coll) : Coll :=
  { c with phase := 1, since := s.time, member := if c.member = g.roster.standin then c.member else g.roster.member }

section
variable {s : State} {id : Nat} {o : Op} {g : Group} {c : Coll} (h : HoldsTurn s id o g c)
include h

theorem onCollectiveStart_of_early (hp : s.startedOf g.roster < c.prior) : onCollectiveStart id s = s := by
  simp only [onCollectiveStart, h.op, h.placed, h.kind, h.twin, h.fence, h.group, h.coll, h.epoch, hp, ne_eq, not_true_eq_false,
    Bool.not_true, Bool.false_eq_true, or_self, or_true, true_or, if_false, if_true]

/-- A collective whose turn has come starts, and sends JOIN. -/
theorem onCollectiveStart_of_turn (hp : s.startedOf g.roster = c.prior) :
    onCollectiveStart id s = sendJoin
      (((noteStarted (s.bump kTicketWaitNs (s.time - c.since)) g.roster).putOp { o with phase := .started, startedAt := s.time }).putColl
        (startedColl s g c)) ⟨o.ctx, collDesc o.desc, g.roster⟩ (startedColl s g c) := by
  simp only [onCollectiveStart, h.op, h.placed, h.kind, h.twin, h.fence, h.group, h.coll, h.epoch, h.formed, h.joins, h.ticket, hp,
    Nat.not_le.mpr h.room, Nat.lt_irrefl, ne_eq, not_true_eq_false, Bool.not_true, Bool.false_eq_true, or_self, if_false, if_true]
  rfl

end

/-- Settles O31: a ticket is taken, late or stale by what waits for it, a turn passes by the list of those that were skipped, and a start
compares the turns that have passed with the ticket's PRIOR. That a collective which ended before its start counts in its turn is
log 42, and which tickets are late or stale is log 43. -/
theorem ticketRules : Obligations.TicketRules := by
  intro pkt s hon he h gseq prior asked
  refine ⟨fun ha => ?_, fun ha hk => ?_, fun g hg ha hk => ⟨fun hl => ?_, fun hl => ?_⟩, fun g hnone => ?_,
    fun g hg => ⟨fun hprim => ?_, fun hprim htwin =>
      ⟨fun n hn => ⟨_, exec_ticketReq hon, ?_⟩, fun hn => ⟨_, exec_ticketReq hon, ?_⟩⟩⟩,
    fun id o g c hop hpl hkind htwin hf hg hcoll hst hph htick hep hroom => ?_⟩
  · rw [exec_ticket hon, onTicket_of_current he, meetTicket_of_asked ha]
  · rw [exec_ticket hon, onTicket_of_current he, meetTicket_of_held ha hk, State.inside_self]
  · rw [exec_ticket hon, onTicket_of_current he, meetTicket_of_late ha hk hg hl]
    rfl
  · rw [exec_ticket hon, onTicket_of_current he, meetTicket_of_stale ha hk hg hl]
  · have hs : skippedOf s g.roster = [] := skippedOf_of_none hnone
    refine ⟨?_, ?_, fun p hp => ?_, startedOf_noteStarted_noteSkipped hs⟩
    · rw [startedOf_noteStarted, hs, turnsAfter_nil]
    · rw [startedOf_noteSkipped, hs, turnsAfter_same]
    · rw [startedOf_noteSkipped, hs, turnsAfter_later hp]
  · rw [exec_ticketReq hon, onTicketReq_of_not_primary hg hprim]
  · rw [onTicketReq_of_primary he hg hprim]
    exact giveTicket_mgr_of_given hg hn
  · have hm := giveTicket_mgr_of_new (src := pSrc pkt.hdr) htwin hg hn
    rw [onTicketReq_of_primary he hg hprim, State.inside_mgr, hm]
    exact ⟨rfl, rfl⟩
  · have hturn : HoldsTurn s id o g c := ⟨hop, hpl, hkind, htwin, hf, hg, hcoll, hst, hph, htick, hep, hroom⟩
    refine ⟨fun hp => ?_, fun hp => ?_⟩
    · rw [exec_collectiveStart hon, onCollectiveStart_of_early hturn hp, State.inside_self]
    · rw [exec_collectiveStart hon, onCollectiveStart_of_turn hturn hp]
      rfl

end Sys2Proof.Proofs.Tickets
end

section
/-! SUPPORT. The family of 15_collectives.md, part 4: JOIN, GO, ABORT, and the wait of a collective that expires. -/

namespace Sys2Proof.Proofs.Joining

open Sys2Proof.Machine
open Sys2Proof.Proofs.Collectives
open Sys2Proof.Proofs.CollectivePackets

section
variable {s : State} {pkt : Packet}

/-! ## GO and ABORT of a collective that runs here (R498, R499, R509) -/

/-- The collectives of a ticket that are in one of the given phases. -/
def collsIn (s : State) (h : Nat) (ph : Coll → Bool) : List Coll := s.colls.filter (fun c => c.ticket == some (pTicket h) && ph c)

section
variable {p : Coll × CollEnv} (hc : packetColl s pkt.hdr = some p)
include hc

theorem onCollGo_of_collector (hl : pLevel pkt.hdr = 1) : onCollGo pkt s = decide1 s p.2 (pTicket pkt.hdr) none := by
  simp only [onCollGo, hc, hl, if_true]

theorem onCollGo_of_member (hl : pLevel pkt.hdr ≠ 1) :
    onCollGo pkt s = (collsIn s pkt.hdr (fun c => c.phase == 1)).foldl takeGo s := by
  simp only [onCollGo, hc, hl, if_false, collsIn]

theorem onCollAbort_of_collector (hl : pLevel pkt.hdr = 1) (hp : p.1.phase = 1) :
    onCollAbort pkt s = decide1 s p.2 (pTicket pkt.hdr) (some (leNat (pkt.data.take 2))) := by
  simp only [onCollAbort, hc, hl, hp, and_self, if_true]

theorem onCollAbort_of_member (hl : pLevel pkt.hdr ≠ 1 ∨ p.1.phase ≠ 1) :
    onCollAbort pkt s = (collsIn s pkt.hdr (fun c => c.phase == 1 || c.phase == 2)).foldl
      (fun s c => endColl s c (leNat (pkt.data.take 2))) s := by
  simp only [onCollAbort, hc, not_and_or.mpr hl, if_false, collsIn]

end

/-! ## JOIN at a collector (R498, log 43) -/

/-- JOINs of a ticket that has ended here are late. -/
theorem onCollJoin_of_late (hl : s.late.contains (pTicket pkt.hdr) = true) : onCollJoin pkt s = discardPacket s pkt.hdr := by
  cases hg : findGroup s (pGroup pkt.hdr) with
  | none => simp only [onCollJoin, hg]
  | some g => simp only [onCollJoin, hg, hl, or_true, if_true]

/-- The level at which a JOIN is collected: 1 at member 0, 0 at the first member of a set. -/
def joinLevel (h : Nat) : Nat := if pLevel h = 1 then 1 else 0

/-- What a collector needs of its surroundings to pass a decision on. -/
def joinEnv (g : Group) (h : Nat) : CollEnv := ⟨0, { (default : CollDesc) with group := pGroup h, epoch := pEpoch h }, g.roster⟩

/-- The members whose JOINs this device collects at a packet's level. -/
def joinSenders (s : State) (g : Group) (h : Nat) : List Nat :=
  if joinLevel h = 1 then (List.range (setCount g.roster.size)).map (256 * ·)
  else ((List.range (setCount g.roster.size)).filter (fun j => addrIs g.roster s.self (256 * j))).flatMap (setMembers g.roster.size)

/-- The member for which a JOIN stands: one that its sender holds, and that has not joined yet. -/
def joinMember (s : State) (g : Group) (h : Nat) : Option Nat :=
  (joinSenders s g h).find? (fun m => addrIs g.roster (pSrc h) m &&
    !s.joins.any (fun j => j.ticket == pTicket h && j.level == joinLevel h && j.member == m))

/-- The device with a JOIN of member `m` held. -/
def joinHeld (s : State) (pkt : Packet) (m : Nat) : State :=
  let k := pkt.data.length - 3
  { s with joins := { ticket := pTicket pkt.hdr, level := joinLevel pkt.hdr, member := m, sig := pkt.data.take k
                      code := leNat ((pkt.data.drop k).take 2), differ := (pkt.data.drop (k + 2)).headD 0 == 1 } :: s.joins }

section
variable {g : Group} (hg : findGroup s (pGroup pkt.hdr) = some g) (he : g.roster.epoch = pEpoch pkt.hdr)
  (hl : s.late.contains (pTicket pkt.hdr) = false)
include hg he hl

theorem onCollJoin_of_current :
    onCollJoin pkt s = match joinMember s g pkt.hdr with
      | none => s
      | some m =>
        if joinLevel pkt.hdr = 1 then decideTop (joinHeld s pkt m) (joinEnv g pkt.hdr) (pTicket pkt.hdr)
        else collect0 (joinHeld s pkt m) (joinEnv g pkt.hdr) (pTicket pkt.hdr) (m / 256) := by
  simp only [onCollJoin, hg, he, hl, ne_eq, not_true_eq_false, Bool.false_eq_true, or_self, if_false]
  rfl

theorem onCollJoin_of_no_member (hm : joinMember s g pkt.hdr = none) : onCollJoin pkt s = s := by
  rw [onCollJoin_of_current hg he hl, hm]

variable {m : Nat} (hm : joinMember s g pkt.hdr = some m)
include hm

theorem onCollJoin_of_top (hlvl : joinLevel pkt.hdr = 1) :
    onCollJoin pkt s = decideTop (joinHeld s pkt m) (joinEnv g pkt.hdr) (pTicket pkt.hdr) := by
  rw [onCollJoin_of_current hg he hl, hm]
  exact if_pos hlvl

theorem onCollJoin_of_set (hlvl : joinLevel pkt.hdr = 0) :
    onCollJoin pkt s = collect0 (joinHeld s pkt m) (joinEnv g pkt.hdr) (pTicket pkt.hdr) (m / 256) := by
  rw [onCollJoin_of_current hg he hl, hm]
  exact if_neg (by rw [hlvl]; decide)

end

/-! ## The wait of R508 -/

variable {id : Nat} {c : Coll} {o : Op}

/-- How long a collective waits, in nanoseconds. -/
def collLimit (s : State) (c : Coll) : Nat :=
  (if (collDesc c.desc).timeoutUs = 0 then s.obj kCollTimeoutUs else (collDesc c.desc).timeoutUs) * 1000

/-- The device after a member whose wait has expired has told its group, which only one with a ticket can. -/
def groupTold (s : State) (c : Coll) : State :=
  match findGroup s (collDesc c.desc).group with
  | some g => if c.ticket.isSome then abortGroup s c g.roster 0x0402 else s
  | none => s

theorem groupTold_of_no_ticket (h : c.ticket = none) : groupTold s c = s := by
  unfold groupTold
  cases findGroup s (collDesc c.desc).group with
  | none => rfl
  | some g => simp only [h, Option.isSome_none, Bool.false_eq_true, if_false]

theorem groupTold_of_ticket {g : Group} {k : Nat} (h : c.ticket = some k) (hg : findGroup s (collDesc c.desc).group = some g) :
    groupTold s c = abortGroup s c g.roster 0x0402 := by
  simp only [groupTold, hg, h, Option.isSome_some, if_true]

theorem sends_abortGroup (s : State) (c : Coll) (r : Roster) (cause : Nat) : Sends s (abortGroup s c r cause) :=
  Sends.foldl _ (fun s _ => sends_sendPacket s _ _ _) _ s

theorem sends_groupTold (s : State) (c : Coll) : Sends s (groupTold s c) := by
  unfold groupTold
  cases findGroup s (collDesc c.desc).group with
  | none => exact Sends.refl s
  | some g =>
    dsimp only
    split
    · exact sends_abortGroup s c _ _
    · exact Sends.refl s

/-- What the device knows an expired collective's later packets by: its ticket, or what it asked a ticket for. -/
def lateKey (c : Coll) : Nat :=
  match c.ticket with
  | some k => k
  | none => askKey (collDesc c.desc).group (collDesc c.desc).epoch (collDesc c.desc).gseq

theorem lateKey_of_ticket {k : Nat} (h : c.ticket = some k) : lateKey c = k := by simp only [lateKey, h]

theorem lateKey_of_no_ticket (h : c.ticket = none) :
    lateKey c = askKey (collDesc c.desc).group (collDesc c.desc).epoch (collDesc c.desc).gseq := by simp only [lateKey, h]

/-- The device after a collective's wait has expired. -/
def collExpired (s : State) (c : Coll) : State :=
  let t := endColl (groupTold s c) c 0x0402
  { t with late := lateKey c :: t.late }

section
variable (hc : s.coll? id = some c)
include hc

theorem onCollectiveWaitExpiry_of_waiting (hx : s.expired c.since (collLimit s c) = false) : onCollectiveWaitExpiry id s = s := by
  unfold collLimit at hx
  simp only [onCollectiveWaitExpiry, hc, hx, Bool.not_false, or_true, if_true]

theorem onCollectiveWaitExpiry_of_expired (hp : c.phase ≠ 3) (hx : s.expired c.since (collLimit s c) = true) :
    onCollectiveWaitExpiry id s = collExpired s c := by
  unfold collLimit at hx
  simp only [onCollectiveWaitExpiry, hc, hx, hp, Bool.not_true, Bool.false_eq_true, or_self, if_false]
  cases hg : findGroup s (collDesc c.desc).group <;> cases hk : c.ticket <;> simp only [collExpired, groupTold, lateKey, hg, hk]

end

theorem ends_of_collExpired (hp : c.phase ≠ 3) (hop : s.op? c.op = some o) (hd : o.phase ≠ .done) :
    EndedAs (collExpired s c) c.op 0x0402 (unwritten c) := by
  have hop' : (groupTold s c).op? c.op = some o := by rw [State.op?, sends_ops (sends_groupTold s c)]; exact hop
  exact ends_of_ops (ends_of_endColl 0x0402 hp hop' hd) rfl

end

/-- Settles O32: JOIN, GO and ABORT by the level and phase at which they find a collector or a member, and a wait by whether it has
expired and whether its collective has a ticket. That a JOIN before the collector's own start is held, and that one of an ended ticket
is late, is log 43. -/
theorem joinGoAndAbort : Obligations.JoinGoAndAbort := by
  intro pkt s hon h cause
  refine ⟨fun p hc => ⟨fun hl => ?_, fun hl => ?_, fun hl hp => ?_, fun hl => ?_⟩, fun hn i hi => ?_, fun hl => ?_,
    fun g hg he hl => ?_, fun id c o hcoll hop hlive hph => ?_⟩
  · rw [exec_collGo hon, onCollGo_of_collector hc hl]
  · rw [exec_collGo hon, onCollGo_of_member hc hl]
    rfl
  · rw [exec_collAbort hon, onCollAbort_of_collector hc hl hp]
  · rw [exec_collAbort hon, onCollAbort_of_member hc hl]
    rfl
  · simp only [List.mem_cons, List.not_mem_nil, or_false] at hi
    rcases hi with rfl | rfl | rfl | rfl
    · rw [exec_collGo hon, onCollGo_of_none hn]
    · rw [exec_collAbort hon, onCollAbort_of_none hn]
    · rw [exec_chunk hon, onChunk_of_none hn]
    · rw [exec_withheld hon, onWithheld_of_none hn]
  · rw [exec_collJoin hon, onCollJoin_of_late hl]
  · intro lvl E senders found k
    rw [exec_collJoin hon]
    refine ⟨fun hm => ?_, fun m hm => ⟨fun hlvl => ?_, fun hlvl => ?_⟩⟩
    · rw [onCollJoin_of_no_member hg he hl hm, State.inside_self]
    · rw [onCollJoin_of_top hg he hl hm hlvl]
      rfl
    · rw [onCollJoin_of_set hg he hl hm hlvl]
      rfl
  · have hp3 : c.phase ≠ 3 := hph.ne
    refine ⟨fun hx => ?_, fun hx => ?_⟩
    · rw [exec_collectiveWaitExpiry hon, onCollectiveWaitExpiry_of_waiting hcoll hx, State.inside_self]
    · rw [exec_collectiveWaitExpiry hon, onCollectiveWaitExpiry_of_expired hcoll hp3 hx]
      have hcid : c.op = id := coll?_op hcoll
      have hend : EndedAs (collExpired s c) id 0x0402 (unwritten c) := by
        rw [← hcid] at hop ⊢
        exact ends_of_collExpired hp3 hop hlive
      refine ⟨⟨_, rfl, fun k hk => ?_, hend⟩, fun hk => ?_, fun k g hk hg => ?_⟩
      · simp [collExpired, lateKey_of_ticket hk]
      · rw [collExpired, groupTold_of_no_ticket hk, lateKey_of_no_ticket hk]
      · rw [collExpired, groupTold_of_ticket hk hg, lateKey_of_ticket hk]
        simp only [abortGroup, hk, Option.getD_some]

end Sys2Proof.Proofs.Joining
end

section
/-! SUPPORT. The family of 15_collectives.md, part 5: chunks, their acknowledgements, and those that are withheld. -/

namespace Sys2Proof.Proofs.Chunks

open Sys2Proof.Machine
open Sys2Proof.Proofs.CollectivePackets

section
variable {s : State} {pkt : Packet} {c : Coll} {E : CollEnv}

/-! ## A CHUNK (R503, R504) -/

/-- A device after it has sent a packet of a kind back to the sender of a chunk. -/
def answered (s : State) (self h kind : Nat) : State :=
  sendPacket s { dst := pSrc h, src := self, kind := kind, group := pGroup h, epoch := pEpoch h, ticket := pTicket h,
                 chunk := pChunk h, level := pLevel h } 0 []

/-- What a chunk stands for at this device, before its bytes. -/
def partOf (h src : Nat) : CollPart := { chunk := pChunk h, level := pLevel h, src := src }

/-- The device with a chunk from a source noted as seen. -/
def chunkSeen (s : State) (c : Coll) (h src : Nat) : State :=
  s.putColl { c with seen := (pChunk h, pLevel h, src) :: c.seen, since := s.time }

/-- The device with a chunk asked for once more. -/
def chunkAsked (s : State) (c : Coll) (h src : Nat) : State :=
  answered (s.putColl { c with again := (pChunk h, pLevel h, src) :: c.again, since := s.time }) s.self h 5

/-- The device with a good chunk acknowledged. -/
def chunkTaken (s : State) (c : Coll) (h src : Nat) : State := answered (chunkSeen s c h src) s.self h 4

/-- The device with a chunk given up: it is counted, and acknowledged (log 89). -/
def chunkGivenUp (s : State) (c : Coll) (h src : Nat) : State :=
  answered ((chunkSeen s c h src).bump kCollChunkFail 1) s.self h 4

/-- The device with a good result chunk acknowledged that has come before GO, and is held for it (R499). -/
def resultHeld (s : State) (c : Coll) (pkt : Packet) (src : Nat) : State :=
  match (chunkTaken s c pkt.hdr src).coll? c.op with
  | some c1 => (chunkTaken s c pkt.hdr src).putColl
      { c1 with parts := { chunk := pChunk pkt.hdr, level := 7, src := src, bytes := pkt.data } :: c1.parts }
  | none => chunkTaken s c pkt.hdr src

theorem resultHeld_of_record {src : Nat} {c1 : Coll} (hl : pLevel pkt.hdr = 7) (h : (chunkTaken s c pkt.hdr src).coll? c.op = some c1) :
    resultHeld s c pkt src =
      (chunkTaken s c pkt.hdr src).putColl { c1 with parts := { partOf pkt.hdr src with bytes := pkt.data } :: c1.parts } := by
  simp only [resultHeld, h, partOf, hl]

theorem self_chunkFailed (s : State) (c : Coll) (h src : Nat) : ((chunkSeen s c h src).bump kCollChunkFail 1).self = s.self :=
  obj_bump_other (chunkSeen s c h src) 1 (by decide)

section
variable (hc : packetColl s pkt.hdr = some (c, E))
include hc

theorem onChunk_of_duplicate (hs : chunkSource s E c pkt.hdr = none) : onChunk pkt s = s.bump kCollDupCount 1 := by
  simp only [onChunk, hc, hs]

variable {src : Nat} (hs : chunkSource s E c pkt.hdr = some src)
include hs

section
variable (hbad : packetCrc pkt.pre pkt.data ≠ pkt.crc)
include hbad

theorem onChunk_of_first_failure (ha : c.again.contains (pChunk pkt.hdr, pLevel pkt.hdr, src) = false) :
    onChunk pkt s = chunkAsked s c pkt.hdr src := by
  simp only [onChunk, hc, hs, hbad, ha, ne_eq, not_false_eq_true, Bool.not_false, if_true]
  rfl

/-- A chunk whose check fails twice is withheld from those to whom it would go from here. -/
theorem onChunk_of_second_failure (ha : c.again.contains (pChunk pkt.hdr, pLevel pkt.hdr, src) = true) :
    onChunk pkt s = collProgress
      (if pLevel pkt.hdr = 7 then takeDown (chunkGivenUp s c pkt.hdr src) E c.op (pTicket pkt.hdr) (pChunk pkt.hdr) (.error 0x0404)
       else takePart (chunkGivenUp s c pkt.hdr src) E c.op (pTicket pkt.hdr) { partOf pkt.hdr src with bad := 0x0404 }) E c.op := by
  rw [chunkGivenUp, ← self_chunkFailed s c pkt.hdr src]
  simp only [onChunk, hc, hs, hbad, ha, ne_eq, not_false_eq_true, Bool.not_true, Bool.false_eq_true, if_false, if_true]
  rfl

end

section
variable (hgood : packetCrc pkt.pre pkt.data = pkt.crc)
include hgood

theorem onChunk_of_good :
    onChunk pkt s = collProgress
      (if pLevel pkt.hdr = 7 then
        if c.phase = 1 then resultHeld s c pkt src
        else takeDown (chunkTaken s c pkt.hdr src) E c.op (pTicket pkt.hdr) (pChunk pkt.hdr) (.ok pkt.data)
       else takePart (chunkTaken s c pkt.hdr src) E c.op (pTicket pkt.hdr)
        { partOf pkt.hdr src with scale := pkt.pre % 256, bytes := pkt.data }) E c.op := by
  simp only [onChunk, hc, hs, hgood, ne_eq, not_true_eq_false, if_false]
  rfl

end

end

/-! ## WITHHELD (R503, log 40) -/

/-- Why a chunk is withheld. -/
def reasonOf (pkt : Packet) : Nat := if pkt.data.length < 2 then 0x0404 else leNat (pkt.data.take 2)

section
variable (hc : packetColl s pkt.hdr = some (c, E))
include hc

theorem onWithheld_of_down (hl : pLevel pkt.hdr = 7) :
    onWithheld pkt s = collProgress (takeDown (s.putColl { c with since := s.time }) E c.op (pTicket pkt.hdr) (pChunk pkt.hdr)
      (.error (reasonOf pkt))) E c.op := by
  simp only [onWithheld, hc, hl, if_true, reasonOf]

variable (hl : pLevel pkt.hdr ≠ 7)
include hl

theorem onWithheld_of_duplicate (hs : chunkSource s E c pkt.hdr = none) :
    onWithheld pkt s = collProgress (s.putColl { c with since := s.time }) E c.op := by
  simp only [onWithheld, hc, hl, hs, if_false]

theorem onWithheld_of_up {src : Nat} (hs : chunkSource s E c pkt.hdr = some src) :
    onWithheld pkt s = collProgress (takePart (s.putColl { c with since := s.time }) E c.op (pTicket pkt.hdr)
      { partOf pkt.hdr src with bad := reasonOf pkt }) E c.op := by
  simp only [onWithheld, hc, hl, hs, if_false, partOf, reasonOf]

end

/-! ## CHUNK_ACK and RESEND (R503) -/

/-- The device with the chunks released that an acknowledgement speaks of. -/
def chunkReleased (s : State) (c : Coll) (h : Nat) : State :=
  s.putColl { c with since := s.time, sent := c.sent.filter (fun x => !speaksOf h x) }

section
variable (hc : (ticketColls s pkt.hdr).find? (fun c => c.sent.any (speaksOf pkt.hdr)) = some c)
include hc

theorem onChunkAck_of_sent (hE : collEnv s c = some E) :
    onChunkAck pkt s = collProgress (chunkReleased s c pkt.hdr) E c.op := by
  unfold ticketColls speaksOf at hc
  simp only [onChunkAck, hc, hE]
  rfl

theorem onChunkAck_of_no_group (hE : collEnv s c = none) : onChunkAck pkt s = chunkReleased s c pkt.hdr := by
  unfold ticketColls speaksOf at hc
  simp only [onChunkAck, hc, hE]
  rfl

end

theorem onResend_of_sent {x : CollSent} (hx : (ticketColls s pkt.hdr).findSome? (fun c => c.sent.find? (speaksOf pkt.hdr)) = some x) :
    onResend pkt s = (sendPacket s
      { dst := x.dst, src := s.self, kind := 3, group := pGroup pkt.hdr, epoch := pEpoch pkt.hdr, ticket := pTicket pkt.hdr,
        chunk := x.chunk, level := x.level } x.scale x.bytes).bump kCollResendCount 1 := by
  unfold ticketColls speaksOf at hx
  simp only [onResend, hx]

end

/-- Settles O33: a CHUNK by whether it is new, whether its check agrees, and its way; WITHHELD by its way; CHUNK_ACK and RESEND by whether a
collective here has sent the chunk. That a chunk which is given up is acknowledged is the model's choice (log 89), and so is 0x0404 for a
WITHHELD without a cause (log 40). -/
theorem chunkRules : Obligations.ChunkRules := by
  intro pkt s hon h t k l answer
  refine ⟨fun c E hc => ⟨fun hs => ?_, fun src hs => ?_, ?_⟩, ?_⟩
  · rw [exec_chunk hon, onChunk_of_duplicate hc hs]
    rfl
  · rw [exec_chunk hon]
    refine ⟨fun hbad ha => ?_, fun hbad ha => ⟨fun hl => ?_, fun hl => ?_⟩,
      fun hgood => ⟨fun hl => ?_, fun hl hp => ?_, fun hl hp c1 h1 => ?_⟩⟩
    · rw [onChunk_of_first_failure hc hs hbad ha]
      rfl
    · rw [onChunk_of_second_failure hc hs hbad ha, if_pos hl]
      rfl
    · rw [onChunk_of_second_failure hc hs hbad ha, if_neg hl]
      rfl
    · rw [onChunk_of_good hc hs hgood, if_neg hl]
      rfl
    · rw [onChunk_of_good hc hs hgood, if_pos hl, if_neg hp]
      rfl
    · rw [onChunk_of_good hc hs hgood, if_pos hl, if_pos hp, resultHeld_of_record hl h1]
      rfl
  · rw [exec_withheld hon]
    refine ⟨fun hl => ?_, fun hl hs => ?_, fun hl src hs => ?_⟩
    · rw [onWithheld_of_down hc hl]
      rfl
    · rw [onWithheld_of_duplicate hc hl hs]
    · rw [onWithheld_of_up hc hl hs]
      rfl
  · rw [exec_chunkAck hon, exec_resend hon]
    refine ⟨fun c hc => ⟨fun E hE => ?_, fun hE => ?_⟩, fun hn => ?_, fun x hx => ?_, fun hn => ?_⟩
    · rw [onChunkAck_of_sent hc hE]
      rfl
    · rw [onChunkAck_of_no_group hc hE]
      rfl
    · rw [onChunkAck_of_none hn]
    · rw [onResend_of_sent hx]
    · rw [onResend_of_none hn]

end Sys2Proof.Proofs.Chunks
end

section
/-! SUPPORT. The family of 15_collectives.md, part 6: the ports of the fabric. -/

namespace Sys2Proof.Proofs.SounePorts

open Sys2Proof.Machine

/-! ## Frames (R487) -/

theorem bump_b2n (s : State) (k : Nat) (b : Bool) : s.bump k (b2n b) = if b then s.bump k 1 else s := by
  cases b <;> rfl

/-- The device with the correction, or the loss, of a frame counted. -/
def frameCounted (s : State) (p : Nat) (f : SouneFrame) : State :=
  (s.bump (objKey p kPortFecCorr) (b2n (f.corrected && !f.uncorrectable))).bump (objKey p kPortFecUncorr) (b2n f.uncorrectable)

theorem frameCounted_eq (s : State) (p : Nat) (f : SouneFrame) :
    frameCounted s p f =
      let corrected := if f.corrected = true ∧ f.uncorrectable = false then s.bump (objKey p kPortFecCorr) 1 else s
      if f.uncorrectable = true then corrected.bump (objKey p kPortFecUncorr) 1 else corrected := by
  simp only [frameCounted, bump_b2n, Bool.and_eq_true, Bool.not_eq_true']

/-- The device after a frame that reached an ACTIVE port. -/
def frameTaken (s : State) (p : Nat) (f : SouneFrame) : State :=
  (receiveFrame (frameCounted s p f) false p f.ctrl f.data f.uncorrectable).1

/-! ## Receivers and lock are reached (R488) -/

/-- A Soune port as it becomes ACTIVE afresh, with 256 credits in each channel (log 62). -/
def souneFresh (s : State) (p : Nat) : Port :=
  { st := 2, since := s.time, downs := (s.port false p).downs, credits := [256, 256, 256, 256], lanes := 4 }

/-- The device with a Soune port back from RECOVERY, and nothing that waited sent yet. -/
def souneBack (s : State) (p : Nat) : State :=
  s.setPort false p { s.port false p with st := 2, since := s.time, recovering := false, naked := false, wait := [] }

/-- What a Soune port does that reaches its next state. -/
def souneReached (s : State) (p : Nat) : State :=
  match (s.port false p).st with
  | 0 => s.setPort false p { s.port false p with st := 1, since := s.time }
  | 1 => s.setPort false p (souneFresh s p)
  | 3 => drainWait false p (s.port false p).wait
      (if (s.port false p).buf.isEmpty then souneBack s p else replay (souneBack s p) false p)
  | _ => s

/-- Whether a Soune port that is in no loopback run has been in its state for too long. -/
def souneDue (s : State) (p ns : Nat) : Bool := s.expired (s.port false p).since ns && !inLoop s p

/-- What a Soune port does that has been too long in its state. -/
def souneOverdue (s : State) (p : Nat) : State :=
  match (s.port false p).st with
  | 0 => if souneDue s p 10000000 then s.setPort false p { s.port false p with since := s.time } else s
  | 1 => if souneDue s p 100000000 then souneDown s p else s
  | 3 => if souneDue s p 1000000 then souneDown s p else s
  | 4 => if souneDue s p 1000000000 then
      s.setPort false p { s.port false p with st := if 3 ≤ (s.port false p).downs then 5 else 0, since := s.time } else s
  | _ => s

section
variable {s : State} {p : Nat}

theorem souneReached_of_detect (h : (s.port false p).st = 0) :
    souneReached s p = s.setPort false p { s.port false p with st := 1, since := s.time } := by
  simp only [souneReached, h]

theorem souneReached_of_lock (h : (s.port false p).st = 1) : souneReached s p = s.setPort false p (souneFresh s p) := by
  simp only [souneReached, h]

section
variable (h : (s.port false p).st = 3)
include h

theorem souneReached_of_recovery_empty (hb : (s.port false p).buf = []) :
    souneReached s p = drainWait false p (s.port false p).wait (souneBack s p) := by
  simp only [souneReached, h, hb, List.isEmpty_nil, if_true]

/-- What is not acknowledged is replayed before what waits is sent. -/
theorem souneReached_of_recovery (hb : (s.port false p).buf ≠ []) :
    souneReached s p = drainWait false p (s.port false p).wait (replay (souneBack s p) false p) := by
  simp only [souneReached, h, List.isEmpty_iff, hb, if_false]

end

/-- ACTIVE, DOWN and DISABLED are left neither by receivers nor by lock. -/
theorem souneReached_of_settled (h : (s.port false p).st = 2 ∨ 4 ≤ (s.port false p).st) : souneReached s p = s := by
  unfold souneReached
  split
  · omega
  · omega
  · omega
  · rfl

/-! ## States that take too long (R488) -/

theorem souneDue_of_loop (ns : Nat) (h : inLoop s p = true) : souneDue s p ns = false := by simp [souneDue, h]

theorem souneOverdue_of_loop (h : inLoop s p = true) : souneOverdue s p = s := by
  unfold souneOverdue
  simp only [souneDue_of_loop _ h, Bool.false_eq_true, if_false]
  split <;> rfl

/-- A port that was not ACTIVE goes DOWN without chunks to send again. -/
theorem souneDown_of_inactive (h : portActive false (s.port false p) = false) :
    souneDown s p = (s.setPort false p { st := 4, since := s.time, downs := (s.port false p).downs + 1 }).bump
      (objKey p kPortDownCount) 1 := by
  simp only [souneDown, souneLeave, h, Bool.false_eq_true, if_false]

variable (hl : inLoop s p = false)
include hl

theorem souneDue_of_no_loop (ns : Nat) : souneDue s p ns = s.expired (s.port false p).since ns := by simp [souneDue, hl]

theorem souneOverdue_of_detect (h : (s.port false p).st = 0) (hx : s.expired (s.port false p).since 10000000 = true) :
    souneOverdue s p = s.setPort false p { s.port false p with since := s.time } := by
  simp only [souneOverdue, h, souneDue_of_no_loop hl, hx, if_true]

/-- Training and RECOVERY end in DOWN. -/
theorem souneOverdue_of_training
    (h : (s.port false p).st = 1 ∧ s.expired (s.port false p).since 100000000 = true ∨
      (s.port false p).st = 3 ∧ s.expired (s.port false p).since 1000000 = true) :
    souneOverdue s p = (s.setPort false p { st := 4, since := s.time, downs := (s.port false p).downs + 1 }).bump
      (objKey p kPortDownCount) 1 := by
  have hdown : souneOverdue s p = souneDown s p := by
    rcases h with ⟨h, hx⟩ | ⟨h, hx⟩ <;> simp only [souneOverdue, h, souneDue_of_no_loop hl, hx, if_true]
  have hoff : portActive false (s.port false p) = false := by
    rcases h with ⟨h, -⟩ | ⟨h, -⟩ <;> simp [portActive, h]
  rw [hdown, souneDown_of_inactive hoff]

/-- A port that was DOWN for a second tries again, or is DISABLED after the third time (log 62). -/
theorem souneOverdue_of_down (h : (s.port false p).st = 4) (hx : s.expired (s.port false p).since 1000000000 = true) :
    souneOverdue s p =
      s.setPort false p { s.port false p with st := if 3 ≤ (s.port false p).downs then 5 else 0, since := s.time } := by
  simp only [souneOverdue, h, souneDue_of_no_loop hl, hx, if_true]

theorem souneOverdue_of_in_time
    (h : (s.port false p).st = 0 ∧ s.expired (s.port false p).since 10000000 = false ∨
      (s.port false p).st = 1 ∧ s.expired (s.port false p).since 100000000 = false ∨
      (s.port false p).st = 3 ∧ s.expired (s.port false p).since 1000000 = false ∨
      (s.port false p).st = 4 ∧ s.expired (s.port false p).since 1000000000 = false) :
    souneOverdue s p = s := by
  rcases h with ⟨h, hx⟩ | ⟨h, hx⟩ | ⟨h, hx⟩ | ⟨h, hx⟩ <;>
    simp only [souneOverdue, h, souneDue_of_no_loop hl, hx, Bool.false_eq_true, if_false]

omit hl in
/-- ACTIVE and DISABLED have no time limit. -/
theorem souneOverdue_of_settled (h : (s.port false p).st = 2 ∨ 5 ≤ (s.port false p).st) : souneOverdue s p = s := by
  unfold souneOverdue
  split
  · omega
  · omega
  · omega
  · omega
  · rfl

end

/-! ## The commands of a port (R487, R488) -/

section
variable {s : State} {p : Nat} (hon : s.off = false) (hp : p < 36)
include hon hp

theorem exec_souneFrameReceive_of_inactive (f : SouneFrame) (h : portActive false (s.port false p) = false) :
    exec (.souneFrameReceive p f) s = .next s := by
  change execSouneFrameReceive p f s = _
  rw [execSouneFrameReceive, if_neg (Nat.not_le.mpr hp), live_on _ hon]
  simp only [h, Bool.not_false, if_true, State.inside_self]

/-- A port that a frame takes out of ACTIVE sends its chunks again elsewhere (R489). -/
theorem exec_souneFrameReceive_of_active (f : SouneFrame) (h : portActive false (s.port false p) = true) :
    exec (.souneFrameReceive p f) s = .next (s.inside
      (if portActive false ((frameTaken s p f).port false p) then frameTaken s p f else resendPort (frameTaken s p f) p)) := by
  change execSouneFrameReceive p f s = _
  rw [execSouneFrameReceive, if_neg (Nat.not_le.mpr hp), live_on _ hon]
  simp only [h, Bool.not_true, Bool.false_eq_true, if_false]
  rfl

theorem exec_souneReceiverDetect_of_not {n : Nat} (h : n < 4 ∨ souneTrains s = false ∨ inLoop s p = true) :
    exec (.souneReceiverDetect p n) s = .next s := by
  have hno : n < 4 ∨ (!souneTrains s) = true ∨ inLoop s p = true := by simpa using h
  change execSouneReceiverDetect p n s = _
  rw [execSouneReceiverDetect, if_neg (Nat.not_le.mpr hp), live_on _ hon]
  simp only [if_pos hno, State.inside_self]

theorem exec_souneReceiverDetect {n : Nat} (hn : 4 ≤ n) (htrain : souneTrains s = true) (hloop : inLoop s p = false) :
    exec (.souneReceiverDetect p n) s = .next (s.inside (souneReached s p)) := by
  have hgo : ¬ (n < 4 ∨ (!souneTrains s) = true ∨ inLoop s p = true) := by
    rw [htrain, hloop]
    simpa using hn
  change execSouneReceiverDetect p n s = _
  rw [execSouneReceiverDetect, if_neg (Nat.not_le.mpr hp), live_on _ hon]
  dsimp only
  rw [if_neg hgo]
  rfl

theorem exec_sounePortTimeout : exec (.sounePortTimeout p) s = .next (s.inside (souneOverdue s p)) := by
  change execSounePortTimeout p s = _
  rw [execSounePortTimeout, if_neg (Nat.not_le.mpr hp), live_on _ hon]
  rfl

/-- Receivers and lock say nothing to a port that is not in training, or may not train. -/
theorem exec_souneReceiverDetect_of_nothing {n : Nat}
    (h : n < 4 ∨ souneTrains s = false ∨ inLoop s p = true ∨ (s.port false p).st = 2 ∨ 4 ≤ (s.port false p).st) :
    exec (.souneReceiverDetect p n) s = .next s := by
  by_cases hno : n < 4 ∨ souneTrains s = false ∨ inLoop s p = true
  · exact exec_souneReceiverDetect_of_not hon hp hno
  · obtain ⟨hn, htrain, hloop⟩ : 4 ≤ n ∧ souneTrains s = true ∧ inLoop s p = false := by simpa using hno
    have hst : (s.port false p).st = 2 ∨ 4 ≤ (s.port false p).st := by tauto
    rw [exec_souneReceiverDetect hon hp hn htrain hloop, souneReached_of_settled hst, State.inside_self]

end

/-- Settles O42: the clauses are the states of a port, for frames, for receivers and lock on all lanes, and for a state that has taken too
long. The 256 credits of a port that becomes ACTIVE, and DISABLED once the second of the third DOWN has passed, are log 62. -/
theorem sounePorts : Obligations.SounePorts := by
  intro s p hon hp x setTo
  refine ⟨fun f h => exec_souneFrameReceive_of_inactive hon hp f h, fun f h => ?_,
    fun n h => exec_souneReceiverDetect_of_nothing hon hp h, fun n hn htrain hloop => ?_, fun hloop => ?_, fun hloop => ?_⟩
  · intro corrected counted t
    have ht : frameTaken s p f = t := by rw [frameTaken, frameCounted_eq]
    rw [exec_souneFrameReceive_of_active hon hp f h, ht]
    exact ⟨fun hact => by rw [if_pos hact], fun hact => by rw [if_neg (ne_true_of_eq_false hact)]⟩
  · rw [exec_souneReceiverDetect hon hp hn htrain hloop]
    refine ⟨fun hst => ?_, fun hst => ?_, fun hst => ⟨fun hb => ?_, fun hb => ?_⟩⟩
    · rw [souneReached_of_detect hst]
      rfl
    · rw [souneReached_of_lock hst]
      rfl
    · rw [souneReached_of_recovery_empty hst hb]
      rfl
    · rw [souneReached_of_recovery hst hb]
      rfl
  · rw [exec_sounePortTimeout hon hp]
    refine ⟨fun hst hx => ?_, fun h => ?_, fun hst hx => ?_, fun h => ?_⟩
    · rw [souneOverdue_of_detect hloop hst hx]
      rfl
    · rw [souneOverdue_of_training hloop h]
      rfl
    · rw [souneOverdue_of_down hloop hst hx]
      rfl
    · by_cases hst : x.st = 2 ∨ 5 ≤ x.st
      · rw [souneOverdue_of_settled hst, State.inside_self]
      · rw [souneOverdue_of_in_time hloop (by tauto), State.inside_self]
  · rw [exec_sounePortTimeout hon hp, souneOverdue_of_loop hloop, State.inside_self]

end Sys2Proof.Proofs.SounePorts
end

section
/-! SUPPORT. The family of 16_twin_and_recovery.md, part 1: heartbeats, probes and the packets of the tether. -/

namespace Sys2Proof.Proofs.Twin

open Sys2Proof.Machine
open Sys2Proof.Proofs.MemoryChannels
open Sys2Proof.Proofs.Collectives

/-! ## What is sent -/

theorem sends_sendTether (s : State) (kind chunk ticket : Nat) (every : Bool) (bs : List Nat) :
    Sends s (sendTether s kind chunk ticket every bs) :=
  Sends.foldl _ (fun s _ => (sends_send s _ _ _).trans (sends_souneTransact _ _ _ _)) _ s

theorem sends_sendProbe (s : State) (answer : Nat) (bs : List Nat) : Sends s (sendProbe s answer bs) := sends_sendPacket s _ _ _

theorem sends_twin {s t : State} (h : Sends s t) : t.twin = s.twin := by unfold Sends at h; rw [h]

theorem sends_obj {s t : State} (h : Sends s t) (k : Nat) : t.obj k = s.obj k := congrArg (objGet · k) (sends_dp h)

/-- A counter that holds a 64-bit value gains any number, none among them, and saturates. -/
theorem obj_bump_of_lt {s : State} {k : Nat} (n : Nat) (h : s.obj k < 2 ^ 64) :
    (s.bump k n).obj k = min (s.obj k + n) (2 ^ 64 - 1) := by
  by_cases hn : n = 0
  · subst hn
    change s.obj k = min (s.obj k) (2 ^ 64 - 1)
    omega
  · exact objGet_bump_same s.dp k n hn

/-! ## Heartbeats and probes as time passes (R524, R538) -/

/-- The device with a heartbeat sent on every ACTIVE tether port. -/
def beaten (s : State) : State := sendTether s 10 0 0 true [s.twin.st, s.twin.member]

/-- A PAIRED device after one more interval without a heartbeat. -/
def missedOnce (s : State) : State := (setTwin s { s.twin with missed := s.twin.missed + 1 }).bump kTetherHbMiss 1

/-- The same with a probe sent, whose answer is awaited from now on. -/
def probed (s : State) : State :=
  (sendProbe (setTwin (missedOnce s) { (missedOnce s).twin with probeAt := some s.time }) 0 []).bump kProbeCount 1

section
variable {s : State} (hon : s.off = false)
include hon

theorem exec_heartbeatSend (h : s.twin.st = 2 ∨ s.twin.st = 4) :
    exec .heartbeatSend s = .next (s.inside ((beaten s).bump kTetherHbSent (tetherPorts s).length)) := by
  change execHeartbeatSend s = _
  rw [execHeartbeatSend, live_on _ hon, if_pos h]
  rfl

variable (hst : s.twin.st = 2)
include hst

theorem exec_heartbeatIntervalMiss_of_beat (h : s.twin.beat = true) :
    exec .heartbeatIntervalMiss s = .next { s with twin := { s.twin with beat := false } } := by
  change execHeartbeatIntervalMiss s = _
  rw [execHeartbeatIntervalMiss, live_on _ hon, if_neg (by omega), if_neg (not_not_intro hst), if_pos h]
  rfl

theorem exec_heartbeatIntervalMiss_of_silence (h : s.twin.beat = false) :
    exec .heartbeatIntervalMiss s = .next (s.inside
      (if s.obj kTetherHbLimit ≤ s.twin.missed + 1 ∧ s.twin.probeAt.isNone = true then probed s else missedOnce s)) := by
  change execHeartbeatIntervalMiss s = _
  rw [execHeartbeatIntervalMiss, live_on _ hon, if_neg (by omega), if_neg (not_not_intro hst), if_neg (ne_true_of_eq_false h)]
  rfl

theorem exec_probeTimeout {at_ : Nat} (h : s.twin.probeAt = some at_) :
    exec .probeTimeout s =
      .next (s.inside (if s.expired at_ (s.obj kTwinProbeUs * 1000) then declareLost s 2 else s)) := by
  change execProbeTimeout s = _
  rw [execProbeTimeout, live_on _ hon]
  simp only [h, hst, true_and]

end

theorem probed_twin (s : State) : (probed s).twin = { s.twin with missed := s.twin.missed + 1, probeAt := some s.time } :=
  sends_twin (sends_sendProbe _ 0 [])

theorem probed_misses (s : State) : (probed s).obj kTetherHbMiss = min (s.obj kTetherHbMiss + 1) (2 ^ 64 - 1) := by
  rw [probed, obj_bump_other _ 1 (by decide), sends_obj (sends_sendProbe _ 0 [])]
  exact obj_bump_one s kTetherHbMiss

theorem probed_probes (s : State) : (probed s).obj kProbeCount = min (s.obj kProbeCount + 1) (2 ^ 64 - 1) := by
  rw [probed, obj_bump_one, sends_obj (sends_sendProbe _ 0 [])]
  congr 2
  exact obj_bump_other s 1 (by decide)

/-! ## Packets of the tether (R523, R539) -/

section
variable {s : State} {p : Packet} (hon : s.off = false)
include hon

theorem onTether_of_stale (f : State → State) (h : pEpoch p.hdr ≠ s.twin.epoch ∨ s.twin.st = 0) :
    onTether p s f = .next (s.bump kTetherDropCount 1) := by
  rw [onTether, live_on _ hon, if_neg (by tauto)]
  rfl

/-- A tether packet that is stale is dropped whatever it says. -/
theorem exec_stale {i : Instr}
    (hi : i ∈ [Instr.heartbeat p, .tetherFault p, .probeRequest p, .probeAnswer p, .mirror p, .mirrorAck p, .digest p])
    (h : pEpoch p.hdr ≠ s.twin.epoch ∨ s.twin.st = 0) : exec i s = .next (s.bump kTetherDropCount 1) := by
  have htether : ∃ f, exec i s = onTether p s f := by
    simp only [List.mem_cons, List.not_mem_nil, or_false] at hi
    rcases hi with rfl | rfl | rfl | rfl | rfl | rfl | rfl
    · exact ⟨_, (rfl : execHeartbeat p s = _)⟩
    · exact ⟨_, (rfl : execTetherFault p s = _)⟩
    · exact ⟨_, (rfl : execProbeRequest p s = _)⟩
    · exact ⟨_, (rfl : execProbeAnswer p s = _)⟩
    · exact ⟨_, (rfl : execMirror p s = _)⟩
    · exact ⟨_, (rfl : execMirrorAck p s = _)⟩
    · exact ⟨_, (rfl : execDigest p s = _)⟩
  obtain ⟨f, hf⟩ := htether
  rw [hf, onTether_of_stale hon f h]

variable (he : pEpoch p.hdr = s.twin.epoch) (hst : s.twin.st = 2)
include he hst

theorem onTether_of_paired (f : State → State) : onTether p s f = .next (s.inside (f s)) := by
  rw [onTether, live_on _ hon, if_pos ⟨he, by omega⟩]

theorem exec_heartbeat :
    exec (.heartbeat p) s = .next { s with twin := { s.twin with beat := true, missed := 0, probeAt := none } } := by
  change execHeartbeat p s = _
  rw [execHeartbeat, onTether_of_paired hon he hst, if_pos hst]
  rfl

theorem exec_tetherFault : exec (.tetherFault p) s = .next (s.inside (declareLost s 1)) := by
  change execTetherFault p s = _
  rw [execTetherFault, onTether_of_paired hon he hst, if_pos (.inl hst)]

theorem exec_probeRequest : exec (.probeRequest p) s = .next (s.inside (linkLoss (sendProbe s 1 [2]))) := by
  change execProbeRequest p s = _
  rw [execProbeRequest, onTether_of_paired hon he hst]
  simp only [hst, if_true]

theorem exec_probeAnswer_of_no_probe (h : s.twin.probeAt = none) :
    exec (.probeAnswer p) s = .next (s.bump kTetherDropCount 1) := by
  change execProbeAnswer p s = _
  rw [execProbeAnswer, onTether_of_paired hon he hst, if_pos (.inr (by rw [h]; rfl))]
  rfl

theorem exec_probeAnswer_of_probe {at_ : Nat} (h : s.twin.probeAt = some at_) :
    exec (.probeAnswer p) s = .next (s.inside (if p.data.headD 0 = 5 then declareLost s 2 else linkLoss s)) := by
  change execProbeAnswer p s = _
  rw [execProbeAnswer, onTether_of_paired hon he hst, if_neg (by simp [h, hst])]

/-! ## Mirrored entries, acknowledgements and digests (R529, R530, R534) -/

theorem exec_mirror_of_entry (h : pChunk p.hdr = 0) : exec (.mirror p) s = .next (s.inside (takeEntry p.data s)) := by
  change execMirror p s = _
  rw [execMirror, onTether_of_paired hon he hst, if_neg (not_not_intro hst), h]
  rfl

/-- What an acknowledgement does that no ticket waits for. -/
def rowsAcked (s : State) (p : Packet) : State :=
  match s.serve.findSome? (fun x => (x.2.acks.find? (fun a => a.1 == pTicket p.hdr)).map (fun a => (x.1, a.2))) with
  | some x => ackRows s x.1 (pTicket p.hdr) x.2 (bit (pChunk p.hdr) 0)
  | none => s

theorem exec_mirrorAck_of_no_ticket (h : s.mgr.waiting = []) : exec (.mirrorAck p) s = .next (s.inside (rowsAcked s p)) := by
  change execMirrorAck p s = _
  rw [execMirrorAck, onTether_of_paired hon he hst, if_neg (not_not_intro hst), h]
  rfl

theorem exec_digest :
    exec (.digest p) s = .next (s.inside (digestCompare (setTwin s { s.twin with
      theirs := (pChunk p.hdr, leNat (p.data.take 8), (List.range (min ((p.data.length - 8) / 8)
        (s.obj (objKey (pChunk p.hdr) kDigestCount)))).map (fun i => leNat ((p.data.drop (8 + 8 * i)).take 8))) :: s.twin.theirs })
      (pChunk p.hdr) (leNat (p.data.take 8)))) := by
  change execDigest p s = _
  rw [execDigest, onTether_of_paired hon he hst, if_neg (not_not_intro hst)]

end

/-- A mirrored entry that is not FREE stands in its slot, unless a stream of this device holds the slot. -/
theorem takeEntry_stream {s : State} {bs : List Nat} (hx : (streamOf (leNat ((bs.drop 4).take 128))).st ≠ 0)
    (hold : ¬ (1 ≤ (s.stream (leNat (bs.take 4))).st ∧ (s.stream (leNat (bs.take 4))).st ≤ 4)) :
    ((takeEntry bs s).stream (leNat (bs.take 4))).st = mirrorState (streamOf (leNat ((bs.drop 4).take 128))).st := by
  rw [takeEntry]
  simp only [if_neg hold, if_neg hx]
  simp only [State.stream, writeBackEntry, State.setStream_seq, kvGet_kvSet_same]

theorem rowsAcked_of_none {s : State} (p : Packet) (h : ∀ x ∈ s.serve, x.2.acks = []) : rowsAcked s p = s := by
  have hnone : s.serve.findSome? (fun x => (x.2.acks.find? (fun a => a.1 == pTicket p.hdr)).map (fun a => (x.1, a.2))) = none :=
    List.findSome?_eq_none_iff.mpr fun x hx => by rw [h x hx]; rfl
  rw [rowsAcked, hnone]

/-- The only context of a device is the one that its list of serving contexts names. -/
theorem serve_of_keys {s : State} {c : Nat} (h : s.serve.map (·.1) = [c]) : s.serve = [(c, s.srv c)] := by
  obtain ⟨x, hx, rfl⟩ := List.map_eq_singleton_iff.mp h
  simp [State.srv, hx, kvGet]

/-- The last acknowledgement of rows that a commit waits for lets it take effect. -/
theorem rowsAcked_of_last {s : State} {p : Packet} {c slot : Nat} (hserve : s.serve.map (·.1) = [c])
    (hacks : (s.srv c).acks = [(pTicket p.hdr, slot)]) (hspace : bit (pChunk p.hdr) 0 = false) :
    rowsAcked s p = finishCommit (s.setSrv c { s.srv c with acks := [] }) c := by
  have hfound : s.serve.findSome? (fun x => (x.2.acks.find? (fun a => a.1 == pTicket p.hdr)).map (fun a => (x.1, a.2))) =
      some (c, slot) := by
    rw [serve_of_keys hserve]
    simp [hacks]
  rw [rowsAcked, hfound]
  simp [ackRows, hacks, hspace]

end Sys2Proof.Proofs.Twin
end

section
/-! SUPPORT. The family of 16_twin_and_recovery.md, part 2: takeover. -/

namespace Sys2Proof.Proofs.Takeover

open Sys2Proof.Machine
open Sys2Proof.Proofs.MemoryChannels
open Sys2Proof.Proofs.Twin

/-! ## Groups by their number -/

/-- A change of groups that keeps their numbers. -/
theorem findGroup_map {s t : State} (f : Group → Group) (hf : ∀ g, (f g).roster.group = g.roster.group)
    (h : t.groups = s.groups.map f) (n : Nat) : findGroup t n = (findGroup s n).map f := by
  have hkey : ((fun g : Group => g.roster.group == n) ∘ f) = (fun g => g.roster.group == n) := by
    funext g
    exact congrArg (· == n) (hf g)
  rw [findGroup, h, List.find?_map, hkey, findGroup]

theorem findGroup_group {s : State} {n : Nat} {g : Group} (h : findGroup s n = some g) : g.roster.group = n := by
  simpa using List.find?_some h

/-! ## The pools of a context that no mirrored page waits for (R540 step 4) -/

/-- A state from which `t` differs only in stored objects, serving contexts and the table of entries. -/
def Pools (s t : State) : Prop := t = { s with dp := { s.dp with objs := t.dp.objs }, serve := t.serve, seqTable := t.seqTable }

theorem Pools.refl (s : State) : Pools s s := rfl

theorem Pools.trans {s t u : State} (h : Pools s t) (k : Pools t u) : Pools s u := by
  unfold Pools at *
  rw [k, h]

theorem pools_seqTable (s : State) (l : List (Nat × Nat)) : Pools s { s with seqTable := l } := rfl

theorem pools_writeBackEntry (s : State) (k : Nat) : Pools s (writeBackEntry s k) := by
  unfold writeBackEntry
  exact pools_seqTable s _

theorem pools_writeBackEntries (s : State) (c : Nat) : Pools s (writeBackEntries s c) := by
  have hslots : ∀ (slots : List Nat) (s : State), Pools s (slots.foldl writeBackEntry s) := by
    intro slots
    induction slots with
    | nil => exact Pools.refl
    | cons k slots ih => exact fun s => (pools_writeBackEntry s k).trans (ih _)
  rw [writeBackEntries]
  exact hslots _ s

theorem runFor_pure (c : Nat) {s : State} (h : s.dp.hwDue = none) : runFor c (pure ()) s = s := by
  change raiseDue s = s
  rw [raiseDue, h]

/-- The device with the recovery bucket mode of a serving context begun (R540 step 4). -/
def bucketSet (s : State) (c : Nat) : State :=
  (s.setSrv c { s.srv c with bucketLeft := srBucketTicks (s.srv c).record }).setObj (objKey c kBucketMode)
    (b2n (srBucketTicks (s.srv c).record != 0))

theorem pools_adoptPools {s : State} {c : Nat} (hdue : s.dp.hwDue = none) (hfree : (poolOf s c .mirror).free = 0) :
    Pools s (adoptPools s c) := by
  have hset : adoptPools s c = writeBackEntries (bucketSet s c) c := by
    rw [adoptPools, hfree, mergePages, runFor_pure c hdue]
    rfl
  rw [hset]
  exact Pools.trans (t := bucketSet s c) rfl (pools_writeBackEntries _ c)

theorem pools_adoptAll (cs : List Nat) {s : State} (hdue : s.dp.hwDue = none) (hfree : ∀ c ∈ cs, (poolOf s c .mirror).free = 0) :
    Pools s (cs.foldl adoptPools s) := by
  induction cs generalizing s with
  | nil => exact Pools.refl s
  | cons c cs ih =>
    have hc : Pools s (adoptPools s c) := pools_adoptPools hdue (hfree c List.mem_cons_self)
    have hdue' : (adoptPools s c).dp.hwDue = none := by rw [hc]; exact hdue
    have hpools : (adoptPools s c).mpools = s.mpools := by rw [hc]
    refine hc.trans (ih hdue' fun d hd => ?_)
    rw [poolOf, hpools]
    exact hfree d (List.mem_cons_of_mem c hd)

/-! ## What a takeover does before entries and pools (R540 steps 1 to 3, R546) -/

@[simp] theorem bump_hwDue (d : Dp) (k n : Nat) : (bump d k n).hwDue = d.hwDue := by
  unfold bump
  split <;> rfl

@[simp] theorem logEvent_hwDue (d : Dp) (e : Event) : (logEvent d e).hwDue = d.hwDue := by
  unfold logEvent
  split
  · rfl
  · exact bump_hwDue _ _ _

/-- A group of the survivor, with the higher of its own role and its partner's (R546). -/
def withRole (roles : List (Nat × Nat)) (g : Group) : Group :=
  { g with roster := { g.roster with role := max g.roster.role (kvGet 0 roles g.roster.group) } }

/-- The device once it has declared its partner lost, before anything is sent or released. -/
def survivor (s0 : State) (how : Nat) : State :=
  let s := takeRoles s0
  let e := (s.twin.epoch + 1) % 2 ^ 32
  let s1 := setTwin s { s.twin with epoch := e, st := 3, blocks := 0, probeAt := none, missed := 0, beat := false }
  ((s1.setDp { partnerFaultReels s1.dp with partnerPages := 0 }).bump kTwinTakeoverCount 1).log
    { source := 0x5100, code := 0x5100, sev := 2, data := dataAt 576 s.twin.partner + dataAt 544 e + dataAt 536 how }

theorem partnerFaultReels_hwDue (d : Dp) : (partnerFaultReels d).hwDue = d.hwDue := by
  have hlose : ∀ (p : Dp × Reel) (f : ReelFrame), (loseFrame p.1 p.2 f.tag 2).1.hwDue = p.1.hwDue := by
    intro p f
    unfold loseFrame
    split
    · rfl
    · split
      · rfl
      · simp
  refine foldl_keeps Dp.hwDue (fun d r => ?_) _ d
  split
  · exact foldl_keeps (fun p : Dp × Reel => p.1.hwDue) hlose _ (d, r)
  · rfl

theorem survivor_hwDue (s : State) (how : Nat) : (survivor s how).dp.hwDue = s.dp.hwDue := by
  simp [survivor, partnerFaultReels_hwDue, takeRoles]

theorem sends_twinInt (s : State) : Sends s (twinInt s) := by
  unfold twinInt
  split
  · exact Sends.refl s
  · exact sends_sendInt s 0 _

theorem twinInt_survivor (s : State) (how : Nat) :
    twinInt (survivor s how) =
      { survivor s how with out := (twinInt (survivor s how)).out, zl := (twinInt (survivor s how)).zl
                            soune := (twinInt (survivor s how)).soune } := sends_twinInt _

/-- Nothing is released where no commit and no ticket waits for the twin. -/
theorem releaseWaits_of_none {s : State} (hcommit : ∀ x ∈ s.serve, x.2.commitAt = none) (hticket : s.mgr.waiting = []) :
    releaseWaits s = s := by
  have hnone : s.serve.filter (fun p => p.2.commitAt.isSome) = [] :=
    List.filter_eq_nil_iff.mpr fun x hx => by simp [hcommit x hx]
  rw [releaseWaits, hnone]
  simp only [List.map_nil, List.foldl_nil, hticket]
  rw [← hticket]

/-- The survivor with its partner's entries adopted, once its interrupt is sent. -/
def adopting (s : State) (how : Nat) : State :=
  { twinInt (survivor s how) with seq := s.seq.map (fun x => (x.1, adoptStream x.2)) }

section
variable {s : State} {how : Nat} (hticket : s.mgr.waiting = []) (hdue : s.dp.hwDue = none)
  (hserve : ∀ x ∈ s.serve, x.2.commitAt = none ∧ (x.2.record ≠ 0 → (poolOf s x.1 .mirror).free = 0))
include hticket hdue hserve

/-- Where nothing waits for the twin and no page is mirrored, a takeover is the survivor's, but for objects, pools and the table. -/
theorem declareLost_pools : ∃ t, Pools (adopting s how) t ∧ declareLost s how = leafReport t [3, (s.twin.epoch + 1) % 2 ^ 32] := by
  have hserve' : (twinInt (survivor s how)).serve = s.serve := by rw [twinInt_survivor]; rfl
  have hwaits : releaseWaits (twinInt (survivor s how)) = twinInt (survivor s how) := by
    refine releaseWaits_of_none (fun x hx => (hserve x (hserve' ▸ hx)).1) ?_
    rw [twinInt_survivor]
    exact hticket
  refine ⟨((s.serve.filter (fun p => p.2.record != 0)).map (·.1)).foldl adoptPools (adopting s how), pools_adoptAll _ ?_ ?_, ?_⟩
  · change (twinInt (survivor s how)).dp.hwDue = none
    rw [twinInt_survivor]
    exact (survivor_hwDue s how).trans hdue
  · intro c hc
    obtain ⟨x, hx, rfl⟩ := List.mem_map.mp hc
    obtain ⟨hmem, hrec⟩ := List.mem_filter.mp hx
    have hpools : (adopting s how).mpools = s.mpools := by rw [adopting, twinInt_survivor]; rfl
    rw [poolOf, hpools]
    exact (hserve x hmem).2 (by simpa using hrec)
  · have hseq : (twinInt (survivor s how)).seq = s.seq := by rw [twinInt_survivor]; rfl
    change leafReport (((((releaseWaits (twinInt (survivor s how))).serve.filter _).map _).foldl adoptPools
      { releaseWaits (twinInt (survivor s how)) with seq := (releaseWaits (twinInt (survivor s how))).seq.map _ })) _ = _
    rw [hwaits, hserve', hseq]
    rfl

theorem declareLost_fields :
    (declareLost s how).twin = (survivor s how).twin ∧ (declareLost s how).groups = (survivor s how).groups ∧
    (declareLost s how).seq = s.seq.map (fun x => (x.1, adoptStream x.2)) := by
  obtain ⟨t, ht, hlost⟩ := declareLost_pools (how := how) hticket hdue hserve
  rw [hlost, ht, adopting, twinInt_survivor]
  exact ⟨rfl, rfl, rfl⟩

theorem findGroup_declareLost (n : Nat) : findGroup (declareLost s how) n = (findGroup s n).map (withRole s.twin.roles) := by
  obtain ⟨-, hgroups, -⟩ := declareLost_fields (how := how) hticket hdue hserve
  exact findGroup_map (withRole s.twin.roles) (fun _ => rfl) hgroups n

end

/-- Settles O59: heartbeats and probes by the state of the wait, packets of the tether by their epoch and kind, and a takeover with nothing
that waits for the twin. That an answered probe leads to LINKLOSS is log 62, the layouts of MIRROR, MIRROR_ACK and DIGEST are the model's
choice (log 40), and so are heartbeats in PAIRED and LINKLOSS alone (log 89). -/
theorem twinRules : Obligations.TwinRules := by
  refine ⟨fun s hon => ⟨fun hst => ?_, exec_heartbeatIntervalMiss_of_beat hon, fun hst hbeat => ?_, fun at_ hst hat => ?_⟩,
    fun s p hon => ⟨fun i hi hstale => exec_stale hon hi hstale, fun he hst => ⟨exec_heartbeat hon he hst,
      exec_tetherFault hon he hst, exec_probeRequest hon he hst, exec_probeAnswer_of_no_probe hon he hst,
      fun at_ hat => exec_probeAnswer_of_probe hon he hst hat, ?_, fun hticket hacks => ?_, fun c hticket hacks hkeys hspace => ?_,
      ⟨_, exec_digest hon he hst, rfl⟩⟩⟩,
    fun s how hticket hdue hserve => ?_⟩
  · have hsent : Sends s (beaten s) := sends_sendTether _ _ _ _ _ _
    have htwin : (beaten s).twin = s.twin := sends_twin hsent
    have hops : (beaten s).ops = s.ops := Collectives.sends_ops hsent
    have hobj : (beaten s).obj kTetherHbSent = s.obj kTetherHbSent := sends_obj hsent _
    refine ⟨_, exec_heartbeatSend hon hst, htwin, hops, fun hlt => ?_⟩
    rw [obj_inside, obj_bump_of_lt _ (by rwa [hobj]), hobj]
  · refine ⟨_, exec_heartbeatIntervalMiss_of_silence hon hst hbeat, ?_⟩
    by_cases hprobe : s.obj kTetherHbLimit ≤ s.twin.missed + 1 ∧ s.twin.probeAt.isNone = true
    · rw [if_pos hprobe]
      obtain ⟨hlimit, hnone⟩ := hprobe
      refine ⟨congrArg Twin.missed (probed_twin s), probed_misses s,
        fun _ _ => ⟨congrArg Twin.probeAt (probed_twin s), probed_probes s⟩, fun hno => absurd hno ?_⟩
      simp [Option.isNone_iff_eq_none.mp hnone, hlimit]
    · rw [if_neg hprobe]
      exact ⟨rfl, obj_bump_one s kTetherHbMiss, fun hlimit hnone => absurd ⟨hlimit, by simp [hnone]⟩ hprobe, fun _ => rfl⟩
  · rw [exec_probeTimeout hon hst hat]
    exact ⟨fun hx => by rw [hx]; rfl, fun hx => by rw [if_pos hx]⟩
  · rintro x hchunk rfl hx hold
    exact ⟨_, exec_mirror_of_entry hon he hst hchunk, takeEntry_stream hx hold⟩
  · rw [exec_mirrorAck_of_no_ticket hon he hst hticket, rowsAcked_of_none p hacks, State.inside_self]
  · rw [exec_mirrorAck_of_no_ticket hon he hst hticket, rowsAcked_of_last hkeys hacks hspace]
    exact ⟨_, rfl, rfl, rfl⟩
  · obtain ⟨htwin, -, hseq⟩ := declareLost_fields (how := how) hticket hdue hserve
    refine ⟨congrArg Twin.st htwin, congrArg Twin.epoch htwin, congrArg Twin.blocks htwin, hseq, fun n g hg => ?_⟩
    refine ⟨_, ?_, rfl⟩
    rw [findGroup_declareLost hticket hdue hserve, hg, ← findGroup_group hg]
    rfl

end Sys2Proof.Proofs.Takeover
end

section
/-! SUPPORT. The family of 16_twin_and_recovery.md, part 3: re-formation of groups, token beacons and leases. -/

namespace Sys2Proof.Proofs.Groups

open Sys2Proof.Machine
open Sys2Proof.Proofs.Takeover

/-! ## Groups and messages -/

/-- A group that is in the device reads as it was put back. -/
theorem findGroup_putGroup {s : State} {n : Nat} {g x : Group} (h : findGroup s n = some g) (hx : x.roster.group = g.roster.group) :
    findGroup (putGroup s x) n = some x := by
  have hkeep : ∀ e : Group, (if e.roster.group = x.roster.group then x else e).roster.group = e.roster.group := by
    intro e
    split
    · exact Eq.symm ‹_›
    · rfl
  rw [findGroup_map (t := putGroup s x) (fun e => if e.roster.group = x.roster.group then x else e) hkeep rfl, h, Option.map_some,
    if_pos hx.symm]

/-- A message to several addresses is sent to each in turn. -/
theorem foldl_send (kind : OutKind) (data as : List Nat) (s : State) :
    as.foldl (fun s a => s.send kind a data) s = { s with out := s.out ++ as.map (⟨kind, ·, data⟩) } := by
  induction as generalizing s with
  | nil => simp
  | cons a as ih =>
    rw [List.foldl_cons, ih]
    simp [State.send]

/-- The message to an address that a list of messages consists of. -/
theorem message_of_mem {kind : OutKind} {data as : List Nat} {x : Out} (h : x ∈ as.map (⟨kind, ·, data⟩)) :
    x.kind = kind ∧ x.data = data := by
  obtain ⟨a, -, rfl⟩ := List.mem_map.mp h
  exact ⟨rfl, rfl⟩

section
variable {s : State} (hon : s.off = false)
include hon

/-! ## Declarations and PREPARE of a group that is not held (R545, R547) -/

theorem exec_leafReport_of_manager {g : Group} {m : Nat} (hg : s.groups = [g]) (hrole : g.roster.role = 4) (hm : m < g.roster.size) :
    exec (.leafReport m true) s = .next (s.inside (reformAround s g m)) := by
  change execLeafReport m true s = _
  rw [execLeafReport, live_on _ hon, hg]
  simp [hrole, hm]

/-- A group that the device does not hold yet, as PREPARE brings it. -/
def preparedGroup (r : Roster) : Group := { roster := { r with epoch := 0, size := 0, lines := [] }, st := 2, prep := some r }

/-- The acknowledgement of PREPARE goes to the primary manager. -/
def prepareAcked (s : State) (r : Roster) : State := s.send .mgr ((memberAddr r r.primary).getD 0) [2, r.group, r.member]

section
variable {r : Roster} (hg : findGroup s r.group = none)
include hg

theorem exec_prepare_of_new (hroom : s.groups.length < 16) (hpaired : s.twin.paired = true) :
    exec (.prepare r) s = .next (prepareAcked { s with groups := s.groups ++ [preparedGroup r] } r) := by
  change execPrepare r s = _
  rw [execPrepare, live_on _ hon]
  simp only [hg]
  rw [if_neg (by simp [hpaired, hroom])]
  rfl

theorem exec_prepare_of_no_room (h : 16 ≤ s.groups.length ∨ s.twin.paired = false) : exec (.prepare r) s = .next s := by
  change execPrepare r s = _
  rw [execPrepare, live_on _ hon]
  simp only [hg]
  rw [if_pos (by simpa using h), State.inside_self]

end

/-! ## Messages about a group that is held -/

theorem onGroup_of_held {n : Nat} {g : Group} (hg : findGroup s n = some g) (k : State → Group → State) :
    onGroup n s k = .next (s.inside (k s g)) := by
  rw [onGroup, live_on _ hon, hg]

section
variable {g : Group} {r : Roster} (hg : findGroup s r.group = some g)
include hg

theorem exec_prepare_of_stale (he : r.epoch ≤ g.roster.epoch) :
    exec (.prepare r) s = .next (s.bump kMgrStaleDrop 1) := by
  change execPrepare r s = _
  rw [execPrepare, live_on _ hon]
  simp only [hg, if_pos he]
  rfl

theorem exec_prepare_of_next (he : g.roster.epoch < r.epoch) :
    exec (.prepare r) s = .next (prepareAcked (putGroup s { g with st := 2, prep := some r }) r) := by
  change execPrepare r s = _
  rw [execPrepare, live_on _ hon]
  simp only [hg, if_neg (Nat.not_le.mpr he)]
  rfl

theorem exec_reformCommit_of_stale (he : r.epoch ≤ g.roster.epoch) :
    exec (.reformCommit r) s = .next (s.bump kMgrStaleDrop 1) := by
  change execReformCommit r s = _
  rw [execReformCommit, onGroup_of_held hon hg, if_pos he]
  rfl

theorem exec_reformCommit_of_next (he : g.roster.epoch < r.epoch) :
    exec (.reformCommit r) s = .next (s.inside (installRoster s r)) := by
  change execReformCommit r s = _
  rw [execReformCommit, onGroup_of_held hon hg, if_neg (Nat.not_le.mpr he)]

end

/-! ## Acknowledgements of PREPARE (R547 step 5, R549) -/

section
variable {n : Nat} {g : Group} (hg : findGroup s n = some g)
include hg

theorem exec_prepareAck_of_no_forming (m : Nat) (hf : g.forming = none) :
    exec (.prepareAck n m) s = .next (s.bump kMgrStaleDrop 1) := by
  change execPrepareAck n m s = _
  rw [execPrepareAck, onGroup_of_held hon hg, hf]
  rfl

section
variable {m : Nat} {r : Roster} (hf : g.forming = some r) (hm : g.acks.contains m = false)
include hf hm

theorem exec_prepareAck_of_missing (ha : allAcked s r (g.acks ++ [m]) = false) :
    exec (.prepareAck n m) s = .next (putGroup s { g with acks := g.acks ++ [m] }) := by
  change execPrepareAck n m s = _
  rw [execPrepareAck, onGroup_of_held hon hg]
  simp only [hf, hm, ha, Bool.false_eq_true, if_false]
  rfl

/-- The devices of a forming roster beside this one, to which COMMIT goes. -/
def commitTo (s : State) (r : Roster) : List Nat := (((List.range r.size).filterMap (memberAddr r)).filter (· ≠ s.self)).dedup

theorem exec_prepareAck_of_last (ha : allAcked s r (g.acks ++ [m]) = true) :
    exec (.prepareAck n m) s = .next (s.inside (installRoster
      { s with out := s.out ++ (commitTo s r).map (⟨.mgr, ·, [3, r.group, r.epoch]⟩) } r)) := by
  change execPrepareAck n m s = _
  rw [execPrepareAck, onGroup_of_held hon hg, ← foldl_send]
  simp only [hf, hm, ha, Bool.false_eq_true, if_false, if_true]
  rfl

theorem exec_prepareTimeout_of_expired (hx : s.expired g.sentAt (s.obj kReformPrepareMs * 1000000) = true) :
    exec (.prepareTimeout n m) s = .next (s.inside (reformAround s g m)) := by
  change execPrepareTimeout n m s = _
  rw [execPrepareTimeout, onGroup_of_held hon hg]
  simp only [hf]
  rw [if_neg (by simpa [hx] using hm)]

end

/-! ## Spare pairs (R551) -/

theorem exec_synced_of_spare {m : Nat} (hrole : g.roster.role = 4)
    (hspare : g.roster.lines.any (fun l => l.incoming && (l.member == m || l.member + 1 == m)) = true) :
    exec (.synced n m) s = .next (putGroup s { g with synced := some m }) := by
  change execSynced n m s = _
  rw [execSynced, onGroup_of_held hon hg, if_pos ⟨hrole, hspare⟩]
  rfl

/-! ## Token beacons and leases (R552, R553) -/

theorem exec_beaconSend_of_paired (htoken : holdsToken g.roster = true) (hst : s.twin.st = 2) :
    exec (.beaconSend n) s = .next { s with out := s.out ++ [⟨.beacon, n, [g.roster.epoch]⟩] } := by
  change execBeaconSend n s = _
  rw [execBeaconSend, onGroup_of_held hon hg, if_pos (by simp [htoken, hst])]
  rfl

theorem exec_tokenBeacon_of_stale {e : Nat} (he : e ≠ g.roster.epoch) :
    exec (.tokenBeacon n e) s = .next (s.bump kMgrStaleDrop 1) := by
  change execTokenBeacon n e s = _
  rw [execTokenBeacon, onGroup_of_held hon hg, if_pos he]
  rfl

theorem exec_tokenBeacon_of_current :
    exec (.tokenBeacon n g.roster.epoch) s =
      .next (putGroup s { g with beaconAt := s.time, st := if g.st ≠ 3 then g.st else afterHalt g }) := by
  change execTokenBeacon n g.roster.epoch s = _
  rw [execTokenBeacon, onGroup_of_held hon hg, if_neg (not_not_intro rfl)]
  rfl

theorem exec_lease_of_stale {e : Nat} (he : e ≠ g.roster.epoch) : exec (.lease n e) s = .next (s.bump kMgrStaleDrop 1) := by
  change execLease n e s = _
  rw [execLease, onGroup_of_held hon hg, if_pos he]
  rfl

theorem exec_lease_of_current (htoken : holdsToken g.roster = true) :
    exec (.lease n g.roster.epoch) s = .next (putGroup s { g with leaseAt := some s.time }) := by
  change execLease n g.roster.epoch s = _
  rw [execLease, onGroup_of_held hon hg, if_neg (not_not_intro rfl), if_pos htoken]
  rfl

/-- The devices of a group's token pair, to which the primary manager's lease goes. -/
def leaseTo (r : Roster) : List Nat := ([r.token, r.token + 1].filterMap (memberAddr r)).dedup

theorem exec_leaseSend_of_primary (hrole : g.roster.role = 4) :
    exec (.leaseSend n) s =
      .next { s with out := s.out ++ (leaseTo g.roster).map (⟨.mgr, ·, [4, n, g.roster.epoch]⟩) } := by
  change execLeaseSend n s = _
  rw [execLeaseSend, onGroup_of_held hon hg, if_neg (not_not_intro hrole), foldl_send]
  rfl

/-- The event of a group that is halted (R553). -/
def haltEvent (n epoch : Nat) : Event := { source := 0x5200, code := 0x5202, sev := 2, data := dataAt 624 n + dataAt 592 epoch }

theorem exec_tokenLeaseExpiry_of_expired (hst : g.st ≠ 3) (hsize : g.roster.size ≠ 0)
    (hx : s.expired g.beaconAt (s.obj kTokenLeaseMs * 1000000) = true) :
    exec (.tokenLeaseExpiry n) s =
      .next (((putGroup s { g with st := 3 }).bump kTokenHaltCount 1).log (haltEvent n g.roster.epoch)) := by
  change execTokenLeaseExpiry n s = _
  rw [execTokenLeaseExpiry, onGroup_of_held hon hg, if_pos ⟨hst, hsize, hx⟩]
  rfl

theorem exec_tokenLeaseExpiry_of_in_time (hx : s.expired g.beaconAt (s.obj kTokenLeaseMs * 1000000) = false) :
    exec (.tokenLeaseExpiry n) s = .next s := by
  change execTokenLeaseExpiry n s = _
  rw [execTokenLeaseExpiry, onGroup_of_held hon hg, if_neg (by simp [hx]), State.inside_self]

end

end

theorem halt_count (s : State) (g : Group) (e : Event) :
    (((putGroup s g).bump kTokenHaltCount 1).log e).obj kTokenHaltCount = min (s.obj kTokenHaltCount + 1) (2 ^ 64 - 1) := by
  rw [obj_log _ e (by decide), obj_bump_one]
  rfl

/-- Settles O60: the messages of group management by whether the group is held and by their epoch. The numbers of the messages are the
model's choice (log 18), and so are SYNCED and leases over an epoch (log 89); the way back from a halt to PREPARING is log 39. -/
theorem groupRules : Obligations.GroupRules := by
  intro s hon
  refine ⟨fun g m => exec_leafReport_of_manager hon, fun r hg hroom hpaired => ?_, fun r hg h => exec_prepare_of_no_room hon hg h,
    fun g r hg => ⟨fun he => ⟨exec_prepare_of_stale hon hg he, exec_reformCommit_of_stale hon hg he⟩,
      fun he => ⟨exec_reformCommit_of_next hon hg he, ?_⟩⟩,
    fun n g hg => ⟨fun m hf => exec_prepareAck_of_no_forming hon hg m hf, fun m r hf hm =>
        ⟨fun ha => exec_prepareAck_of_missing hon hg hf hm ha, fun ha => ?_, fun hx => exec_prepareTimeout_of_expired hon hg hf hm hx⟩,
      fun m hrole hspare => exec_synced_of_spare hon hg hrole hspare,
      fun htoken hst => exec_beaconSend_of_paired hon hg htoken hst,
      fun e he => ⟨exec_tokenBeacon_of_stale hon hg he, exec_lease_of_stale hon hg he⟩, ?_,
      fun htoken => exec_lease_of_current hon hg htoken, fun hrole => ?_, fun hst hsize hx => ?_,
      fun hx => exec_tokenLeaseExpiry_of_in_time hon hg hx⟩⟩
  · exact ⟨_, exec_prepare_of_new hon hg hroom hpaired, ⟨preparedGroup r, rfl, rfl, rfl⟩, rfl⟩
  · exact ⟨_, exec_prepare_of_next hon hg he, findGroup_putGroup hg rfl⟩
  · exact ⟨_, _, exec_prepareAck_of_last hon hg hf hm ha, rfl, fun x hx => message_of_mem hx⟩
  · rintro st rfl
    exact exec_tokenBeacon_of_current hon hg
  · exact ⟨_, exec_leaseSend_of_primary hon hg hrole, fun x hx => message_of_mem hx⟩
  · exact ⟨_, exec_tokenLeaseExpiry_of_expired hon hg hst hsize hx, rfl, halt_count s _ _⟩

end Sys2Proof.Proofs.Groups
end

section
/-! SUPPORT. The family of 95_what_each_step_holds.md: what every step keeps, and the state after reset. -/

namespace Sys2Proof.Proofs.Steps

open Sys2Proof.Machine

/-! ## Signals that agree, and the queue (R605, R616, R617) -/

/-- `t` has the waiting commands of `s`, and its signals agree if those of `s` do. -/
def StaysInOrder (s t : State) : Prop := t.pending = s.pending ∧ (SignalsAgree s → SignalsAgree t)

/-- What leaves the queue, the reset and the levels of the control signals alone. -/
theorem staysInOrder_of_levels {s t : State} (hq : t.pending = s.pending) (ho : t.off = s.off)
    (hp : ∃ l x, t.pins = { s.pins with trips := l, tripAt := x }) : StaysInOrder s t := by
  obtain ⟨l, x, hp⟩ := hp
  exact ⟨hq, fun h => by rw [SignalsAgree, ho, hp]; exact h⟩

theorem staysInOrder_refl (s : State) : StaysInOrder s s := ⟨rfl, id⟩

theorem signalsAgree_losePower (s : State) : SignalsAgree (losePower s) := by
  simp [SignalsAgree]

theorem staysInOrder_losePower (s : State) : StaysInOrder s (losePower s) := ⟨rfl, fun _ => signalsAgree_losePower s⟩

/-- A device that is out of reset only while both signals are high leaves reset where they are, and so its signals agree. -/
theorem signalsAgree_tryLeave {s : State} (hon : s.off = false → s.pins.modRst = true ∧ s.pins.pwrGood = true)
    (hgood : s.pins.pwrGood = true → s.pins.regs = true) (hregs : s.pins.regs = true → s.pins.pwrEn = true) :
    SignalsAgree (tryLeave s) := by
  rcases tryLeave_cases s with ⟨-, hm, hg, ht⟩ | ⟨hheld, ht⟩
  · rw [ht, SignalsAgree, afterReset_off, afterReset_pins]
    exact ⟨by simp [hm, hg], hgood, hregs⟩
  · rw [ht]
    refine ⟨?_, hgood, hregs⟩
    cases ho : s.off with
    | false => obtain ⟨hm, hg⟩ := hon ho; simp [hm, hg]
    | true => rcases hheld with h | h | h <;> simp_all

theorem tryLeave_pending (s : State) : (tryLeave s).pending = s.pending := by
  unfold tryLeave; split <;> rfl

/-! ## Commands of the signals -/

theorem staysInOrder_setTrip (s : State) : StaysInOrder s (setTrip s) := by
  obtain ⟨x, hx⟩ := setTrip_cases s
  exact hx ▸ staysInOrder_of_levels rfl rfl ⟨s.pins.trips, x, rfl⟩

theorem StaysInOrder.trans {s t u : State} (h : StaysInOrder s t) (k : StaysInOrder t u) : StaysInOrder s u :=
  ⟨k.1.trans h.1, k.2 ∘ h.2⟩

/-- A crossing of the warning limit changes the data path only, and a trip of the signals only the sensors in trip. -/
theorem staysInOrder_tripCheck (s : State) (n : Nat) (old x : Int) : StaysInOrder s (tripCheck (warnCross s n old x) n old x) := by
  obtain ⟨d, hd⟩ := warnCross_cases s n old x
  obtain ⟨l, hp, ho, hq, -⟩ := tripCheck_cases (warnCross s n old x) n old x
  rw [hd] at hp ho hq ⊢
  exact staysInOrder_of_levels hq ho ⟨l, s.pins.tripAt, hp⟩

theorem staysInOrder_sensorSample (n : Nat) (x : Int) (s : State) : ∃ t, execSensorSample n x s = .next t ∧ StaysInOrder s t := by
  unfold execSensorSample
  split
  · exact ⟨s, rfl, staysInOrder_refl s⟩
  · refine ⟨_, rfl, StaysInOrder.trans ?_ (staysInOrder_setTrip _)⟩
    have hs1 : StaysInOrder s { s with temps := kvSet 0 s.temps n x } := ⟨rfl, id⟩
    split
    · exact hs1
    · exact hs1.trans (staysInOrder_tripCheck _ n _ x)

theorem staysInOrder_ite {p : Prop} [Decidable p] {s a b : State} (ha : p → StaysInOrder s a) (hb : StaysInOrder s b) :
    StaysInOrder s (if p then a else b) := by
  split
  · exact ha ‹_›
  · exact hb

/-- The regulators start under a new `PWR_EN`: `PWR_GOOD` is still low, as the regulators did not run. -/
theorem staysInOrder_pwrEnAssert (s : State) :
    StaysInOrder s (if s.pins.pwrEn then s else setPins s { s.pins with pwrEn := true, regs := true }) := by
  refine staysInOrder_ite (fun _ => staysInOrder_refl s) ⟨rfl, fun ⟨hoff, _, _⟩ => ⟨hoff, fun _ => rfl, fun _ => rfl⟩⟩

theorem staysInOrder_pwrEnRemove (s : State) :
    StaysInOrder s (if s.pins.pwrEn then (let t := losePower s; setPins t { t.pins with pwrEn := false }) else s) :=
  staysInOrder_ite (fun _ => ⟨rfl, fun _ => by simp [SignalsAgree]⟩) (staysInOrder_refl s)

theorem staysInOrder_pwrGoodRelease (s : State) :
    StaysInOrder s (if s.pins.regs ∧ !s.pins.pwrGood then tryLeave (setPins s { s.pins with pwrGood := true }) else s) := by
  refine staysInOrder_ite (fun hup => ⟨tryLeave_pending _, fun ⟨hoff, _, hen⟩ => ?_⟩) (staysInOrder_refl s)
  obtain ⟨hregs, hlow⟩ := hup
  have hheld : s.off = true := by rw [hoff]; simp_all
  exact signalsAgree_tryLeave (fun ho => absurd (hheld.symm.trans ho) (by decide)) (fun _ => hregs) hen

theorem staysInOrder_modRstNAssert (low : Bool) (s : State) :
    StaysInOrder s (setPins (enterReset s) (if low then { s.pins with pwrGood := false } else { s.pins with modRst := false })) := by
  refine ⟨rfl, fun ⟨_, hgood, hen⟩ => ?_⟩
  cases low with
  | false => exact ⟨by simp [enterReset], hgood, hen⟩
  | true => exact ⟨by simp [enterReset], by simp, hen⟩

theorem staysInOrder_modRstNRelease (s : State) : StaysInOrder s (tryLeave (setPins s { s.pins with modRst := true })) := by
  refine ⟨tryLeave_pending _, fun ⟨hoff, hgood, hen⟩ => signalsAgree_tryLeave (fun ho => ⟨rfl, ?_⟩) hgood hen⟩
  have hlevels : (!(s.pins.modRst && s.pins.pwrGood)) = false := hoff.symm.trans ho
  simp_all

theorem staysInOrder_thermTripTimeout (s : State) :
    StaysInOrder s (match s.pins.tripAt with
      | some t => if s.pins.regs ∧ t + 500000000 ≤ s.time then losePower s else s
      | none => s) := by
  split
  · exact staysInOrder_ite (fun _ => staysInOrder_losePower s) (staysInOrder_refl s)
  · exact staysInOrder_refl s

/-- Every command of the signals has a next state, with the same queue and signals that still agree. -/
theorem exec_signal (i : Instr) (s : State) (h : signalCommand i = true) : ∃ t, exec i s = .next t ∧ StaysInOrder s t :=
  match i, h with
  | .sensorSample n x, _ => staysInOrder_sensorSample n x s
  | .vinUndervoltage _ _, _ => ⟨_, rfl, staysInOrder_ite (fun _ => staysInOrder_losePower s) (staysInOrder_refl s)⟩
  | .vinOvervoltage _ _, _ => ⟨_, rfl, staysInOrder_ite (fun _ => staysInOrder_losePower s) (staysInOrder_refl s)⟩
  | .thermTripTimeout, _ => ⟨_, rfl, staysInOrder_thermTripTimeout s⟩
  | .pwrEnAssert, _ => ⟨_, rfl, staysInOrder_pwrEnAssert s⟩
  | .pwrEnRemove, _ => ⟨_, rfl, staysInOrder_pwrEnRemove s⟩
  | .modRstNAssert low, _ => ⟨_, rfl, staysInOrder_modRstNAssert low s⟩
  | .modRstNRelease, _ => ⟨_, rfl, staysInOrder_modRstNRelease s⟩
  | .alertAck, _ => ⟨_, rfl, rfl, id⟩
  | .pwrGoodRelease, _ => ⟨_, rfl, staysInOrder_pwrGoodRelease s⟩
  | .thermTripComparator, _ => ⟨_, rfl, staysInOrder_setTrip s⟩

/-! ## Every command, and every step -/

theorem exec_staysInOrder {i : Instr} {s t : State} (he : exec i s = .next t) : StaysInOrder s t := by
  cases hi : signalCommand i with
  | false =>
    obtain ⟨hq, ho, hp, -⟩ := exec_device_next hi he
    exact staysInOrder_of_levels hq ho ⟨_, _, hp⟩
  | true =>
    obtain ⟨u, hu, hk⟩ := exec_signal i s hi
    rw [he] at hu
    cases hu
    exact hk

/-- An idle nanosecond ends a reset that was asked for only on a device that runs, and such a device runs on. -/
theorem idle_staysInOrder (s : State) : StaysInOrder s (idle s) := by
  obtain ⟨t, hq, ho, hp, -, hidle | ⟨hon, k, hidle⟩⟩ := idle_cases s
  · exact hidle ▸ staysInOrder_of_levels hq ho ⟨_, _, hp⟩
  · rw [hidle]
    refine ⟨hq, fun ⟨hoff, hgood, hen⟩ => ?_⟩
    rw [SignalsAgree, afterReset_off, afterReset_pins, hp]
    exact ⟨hon.symm.trans hoff, hgood, hen⟩

/-- What every step keeps: the queue but for its front, and signals that agree. -/
theorem step_keeps {s t : State} (h : step s = .next t) : t.pending = s.pending.tail ∧ (SignalsAgree s → SignalsAgree t) := by
  cases hp : s.pending with
  | nil =>
    rw [step_empty hp] at h
    cases h
    exact ⟨(idle_staysInOrder s).1.trans hp, (idle_staysInOrder s).2⟩
  | cons c rest =>
    rw [step_front hp] at h
    exact exec_staysInOrder h

/-- Settles O3: an idle step and the eleven commands of the signals each keep the agreement, and a command of the device does not touch
the signals. -/
theorem signalsAgreeAfterEveryStep : Obligations.SignalsAgreeAfterEveryStep := fun _ _ hs hstep => (step_keeps hstep).2 hs

/-- Settles O2: no command puts one into the queue, and `step` has taken the front one off. -/
theorem stepTakesOneCommand : Obligations.StepTakesOneCommand := fun _ _ hstep => (step_keeps hstep).1

/-- Settles O1: the two cases of `step`. That an idle step is a nanosecond is log 1. -/
theorem stepRunsFrontCommand : Obligations.StepRunsFrontCommand :=
  ⟨fun _ _ _ => step_front rfl, fun _ hempty => step_empty hempty⟩

/-! ## Commands of the device, and reset -/

/-- Settles O5: every command but those of the signals is an effect under `live`, which a device in reset does not have (log 2). -/
theorem heldDeviceTakesNoCommand : Obligations.HeldDeviceTakesNoCommand := fun _ _ hi ho => exec_device_off hi ho

/-- Settles O6: an effect under `live` keeps the queue, the signals and the temperatures. -/
theorem deviceCommandsKeepSignals : Obligations.DeviceCommandsKeepSignals := by
  intro i s t hi he
  obtain ⟨hq, ho, hp, ht⟩ := exec_device_next hi he
  exact ⟨hp, ho, ht, hq⟩

/-- Settles O4: each part is a field of the state after reset, which is powered and released (log 12). -/
theorem resetLeavesDeviceIdle : Obligations.ResetLeavesDeviceIdle := by
  have hagree : SignalsAgree State.reset := ⟨rfl, fun _ => rfl, fun _ => rfl⟩
  exact ⟨hagree, rfl, rfl, rfl, fun _ => rfl, rfl, rfl, rfl⟩

end Sys2Proof.Proofs.Steps
end

section
/-! SUPPORT. The family of 18_module.md, part 1: control signals, supply faults, and the timer of a thermal trip. -/

namespace Sys2Proof.Proofs.ControlSignals

open Sys2Proof.Machine

/-! ## Leaving reset, and losing power (R617, R655) -/

theorem tryLeave_of_released {s : State} (ho : s.off = true) (hm : s.pins.modRst = true) (hg : s.pins.pwrGood = true) :
    tryLeave s = afterReset s s.pins.nextKind := if_pos ⟨ho, hm, hg⟩

theorem tryLeave_of_modRst_low {s : State} (hm : s.pins.modRst = false) : tryLeave s = s :=
  if_neg (fun ⟨_, h, _⟩ => by simp [hm] at h)

theorem tryLeave_of_pwrGood_low {s : State} (hg : s.pins.pwrGood = false) : tryLeave s = s :=
  if_neg (fun ⟨_, _, h⟩ => by simp [hg] at h)

/-- `RESET_KIND` tells the kind of the latest reset (R655). -/
theorem afterReset_resetKind (s : State) (k : Nat) : (afterReset s k).obj kResetKind = k :=
  kvGet_kvSet_same 1 k _ kResetKind

/-- The device whose `PWR_GOOD`, or `MOD_RST_N`, has gone high. -/
abbrev withPwrGood (s : State) : State := setPins s { s.pins with pwrGood := true }
abbrev withModRst (s : State) : State := setPins s { s.pins with modRst := true }

section
variable {s : State}

/-! ## The signals (R613, R616, R617, R644) -/

theorem exec_pwrEnAssert_of_low (h : s.pins.pwrEn = false) :
    exec .pwrEnAssert s = .next (setPins s { s.pins with pwrEn := true, regs := true }) := by
  change execPwrEnAssert s = _
  rw [execPwrEnAssert, if_neg (ne_true_of_eq_false h)]

theorem exec_pwrEnAssert_of_high (h : s.pins.pwrEn = true) : exec .pwrEnAssert s = .next s := by
  change execPwrEnAssert s = _
  rw [execPwrEnAssert, if_pos h]

theorem exec_pwrEnRemove_of_high (h : s.pins.pwrEn = true) :
    exec .pwrEnRemove s = .next (setPins (losePower s) { (losePower s).pins with pwrEn := false }) := by
  change execPwrEnRemove s = _
  rw [execPwrEnRemove, if_pos h]

theorem exec_pwrEnRemove_of_low (h : s.pins.pwrEn = false) : exec .pwrEnRemove s = .next s := by
  change execPwrEnRemove s = _
  rw [execPwrEnRemove, if_neg (ne_true_of_eq_false h)]

theorem exec_pwrGoodRelease_of_low (hr : s.pins.regs = true) (hg : s.pins.pwrGood = false) :
    exec .pwrGoodRelease s = .next (tryLeave (withPwrGood s)) := by
  change execPwrGoodRelease s = _
  rw [execPwrGoodRelease, if_pos ⟨hr, by rw [hg]; rfl⟩]

theorem exec_modRstNRelease : exec .modRstNRelease s = .next (tryLeave (withModRst s)) := rfl

/-! ## Supply and thermal trip (R605, R618) -/

theorem exec_vinDip_of_dip {mv : Nat} (hon : s.off = false) (hlo : 42000 ≤ mv) (hhi : mv < 48000) :
    exec (.vinDip mv) s = .next (s.bump kVinUvCount 1) := by
  change execVinDip mv s = _
  rw [execVinDip, live_on _ hon, if_pos ⟨hlo, hhi⟩]
  rfl

/-- The supply stays too low, or too high, for as long as a supply fault takes. -/
theorem exec_supplyFault {i : Instr} {mv ns : Nat} (h : (i = .vinUndervoltage mv ns ∧ mv < 42000 ∧ 50000 ≤ ns) ∨
    (i = .vinOvervoltage mv ns ∧ 57000 < mv ∧ 10000 ≤ ns)) : exec i s = .next (losePower s) := by
  rcases h with ⟨rfl, h⟩ | ⟨rfl, h⟩
  · change execVinUndervoltage mv ns s = _
    rw [execVinUndervoltage, if_pos h]
  · change execVinOvervoltage mv ns s = _
    rw [execVinOvervoltage, if_pos h]

theorem exec_thermTripTimeout_of_tripped {at_ : Nat} (ht : s.pins.tripAt = some at_) (hr : s.pins.regs = true) :
    exec .thermTripTimeout s = .next (if at_ + 500000000 ≤ s.time then losePower s else s) := by
  change execThermTripTimeout s = _
  simp only [execThermTripTimeout, ht, hr, true_and]

end

/-- Settles O55: the clauses are the levels that each signal finds. -/
theorem controlSignals : Obligations.ControlSignals := by
  intro s
  refine ⟨exec_pwrEnAssert_of_low, fun hen => ⟨exec_pwrEnAssert_of_high hen, _, exec_pwrEnRemove_of_high hen, rfl, rfl, rfl⟩,
    exec_pwrEnRemove_of_low, fun hregs hgood hoff => ⟨fun hmod => ?_, fun hmod => ?_⟩, fun low => ?_, fun hoff hgood => ?_,
    fun hgood => ?_, rfl, fun mv => exec_vinDip_of_dip, fun i mv ns hfault => ⟨_, exec_supplyFault hfault, rfl, rfl, rfl⟩,
    fun at_ htrip hregs => ⟨fun hlate => ?_, fun hsoon => ?_⟩⟩
  · refine ⟨_, exec_pwrGoodRelease_of_low hregs hgood, ?_⟩
    rw [tryLeave_of_released (s := withPwrGood s) hoff hmod rfl]
    exact ⟨rfl, afterReset_resetKind _ _, rfl, rfl, rfl, rfl⟩
  · rw [exec_pwrGoodRelease_of_low hregs hgood, tryLeave_of_modRst_low (s := withPwrGood s) hmod]
    rfl
  · exact ⟨_, rfl, rfl, rfl, rfl, rfl, rfl, rfl, rfl⟩
  · refine ⟨_, exec_modRstNRelease, ?_⟩
    rw [tryLeave_of_released (s := withModRst s) hoff rfl hgood]
    exact ⟨rfl, afterReset_resetKind _ _, rfl, rfl, rfl, rfl⟩
  · rw [exec_modRstNRelease, tryLeave_of_pwrGood_low (s := withModRst s) hgood]
    rfl
  · refine ⟨_, exec_thermTripTimeout_of_tripped htrip hregs, ?_⟩
    rw [if_pos hlate]
    exact ⟨rfl, rfl⟩
  · rw [exec_thermTripTimeout_of_tripped htrip hregs, if_neg (by omega)]

end Sys2Proof.Proofs.ControlSignals
end

section
/-! SUPPORT. The family of 18_module.md, part 2: hardware faults, which fence the device. -/

namespace Sys2Proof.Proofs.HardwareFaults

open Sys2Proof.Machine
open Sys2Proof.Proofs.MemoryChannels
open Sys2Proof.Proofs.Twin

/-! ## What the discarded ops leave: the twin's state, the cause and the event log (R454, R537) -/

/-- What tells that the device is fenced, and why. -/
def fenceRecord (s : State) : Twin × Nat × Log := (s.twin, s.fault, s.dp.log)

theorem finishOp_fenceRecord (s : State) (id status info : Nat) : fenceRecord (finishOp s id status info) = fenceRecord s := by
  rw [finishOp_frame]
  rfl

theorem spoil_fenceRecord (s : State) (o : Op) : fenceRecord (spoil s o) = fenceRecord s := by
  have hlog : (spoil s o).dp.log = s.dp.log := by
    rw [spoil, State.setDp_dp, freeBytes, foldl_keeps Dp.log]
    exact fun _ _ => rfl
  exact congrArg (fun l => (s.twin, s.fault, l)) hlog

theorem discardOp_fenceRecord (code : Nat) (s : State) (o : Op) : fenceRecord (discardOp code s o) = fenceRecord s := by
  unfold discardOp
  split
  · rfl
  · dsimp only
    rw [finishOp_fenceRecord, apply_ite fenceRecord, spoil_fenceRecord, ite_self]

/-! ## Every op completes -/

theorem noteFences_phase {s : State} {id : Nat} {x : Op} (h : s.op? id = some x) :
    ∃ x', (noteFences s).op? id = some x' ∧ x'.phase = x.phase := by
  refine ⟨_, (op?_map (s := s) _ (fun e => ?_) rfl id).trans (congrArg _ h), ?_⟩
  · split <;> rfl
  · split <;> rfl

theorem op?_putOp_other {s : State} {id : Nat} {e x : Op} (h : s.op? id = some x) (he : e.id ≠ id) : (s.putOp e).op? id = some x := by
  rw [op?_map (s := s) (fun y => if y.id = e.id then e else y) (fun y => by by_cases hy : y.id = e.id <;> simp [hy]) rfl, h]
  simp [op?_id h, he.symm]

/-- After the completion of op `k` every op is still there, `k` has completed, and so have those that had before. -/
theorem op?_finishOp {s : State} {id : Nat} {x : Op} (h : s.op? id = some x) (k status info : Nat) :
    ∃ x', (finishOp s k status info).op? id = some x' ∧ (x.phase = .done ∨ k = id → x'.phase = .done) := by
  cases hk : s.op? k with
  | none =>
    have hne : k ≠ id := fun heq => by simp [heq, h] at hk
    exact ⟨x, by simp only [finishOp, hk, h], fun hd => hd.resolve_right hne⟩
  | some e =>
    by_cases he : e.phase = .done
    · refine ⟨x, by simp only [finishOp, hk, he, if_true, h], fun hd => hd.elim (fun hx => hx) fun heq => ?_⟩
      rw [heq, h] at hk
      cases hk
      exact he
    · by_cases heq : k = id
      · subst heq
        obtain ⟨x', hx', hd, -, -⟩ := finishOp_ended (status := status) (info := info) hk he
        exact ⟨x', hx', fun _ => hd⟩
      · have hput := op?_putOp_other (e := { e with phase := .done, status := status, info := info }) h
          (fun hid => heq ((op?_id hk).symm.trans hid))
        unfold finishOp
        simp only [hk, he, if_false]
        refine (noteFences_phase (x := x) ?_).imp fun x' hx' => ⟨hx'.1, fun hd => hx'.2.trans (hd.resolve_right heq)⟩
        split <;> exact hput

theorem op?_discardOp (code : Nat) {s : State} {id : Nat} {x : Op} (h : s.op? id = some x) (y : Op) :
    ∃ x', (discardOp code s y).op? id = some x' ∧ (x.phase = .done ∨ y.id = id ∧ y.phase ≠ .done → x'.phase = .done) := by
  unfold discardOp
  split
  · next hy => exact ⟨x, h, fun hd => hd.resolve_right fun hn => hn.2 hy⟩
  · have hs : (if y.phase = .started ∨ code = 0x0701 then spoil s y else s).op? id = some x := by split <;> exact h
    obtain ⟨x', hx', hd⟩ := op?_finishOp hs y.id code 0
    exact ⟨x', hx', fun hc => hd (hc.imp_right And.left)⟩

/-- Ops that are discarded one after the other have all completed. -/
theorem op?_discardOps (code : Nat) {s : State} {id : Nat} {x : Op} (h : s.op? id = some x) (l : List Op)
    (hx : x.phase = .done ∨ ∃ y ∈ l, y.id = id ∧ y.phase ≠ .done) :
    ∃ x', (l.foldl (discardOp code) s).op? id = some x' ∧ x'.phase = .done := by
  induction l generalizing s x with
  | nil => exact ⟨x, h, hx.resolve_right (by simp)⟩
  | cons y l ih =>
    obtain ⟨x', hx', hd⟩ := op?_discardOp code h y
    refine ih hx' ?_
    rcases hx with hx | ⟨z, hz, hid, hn⟩
    · exact .inl (hd (.inl hx))
    · rcases List.mem_cons.mp hz with rfl | hz
      · exact .inl (hd (.inr ⟨hid, hn⟩))
      · exact .inr ⟨z, hz, hid, hn⟩

/-! ## What a hardware fault does (R536, R537) -/

/-- The entry's event (R662). -/
def faultEvent (cause source detail : Nat) : Event :=
  { source := source, code := 0x0701, sev := 3, data := dataAt 632 cause + dataAt 568 (detail % 2 ^ 64) }

/-- A device that has become FENCED, with its entry added. -/
def fencedNow (s : State) (cause source detail : Nat) : State :=
  { s.log (faultEvent cause source detail) with twin := { s.twin with st := 5 }, fault := cause }

/-- The same with its ops discarded, and collectives, schedules and ingest stopped. -/
def fencedIdle (s : State) (cause source detail : Nat) : State :=
  { s.ops.foldl (discardOp 0x0701) (fencedNow s cause source detail) with colls := [], scheds := [], ing := [] }

section
variable {s : State} (cause source detail : Nat)

theorem hwFault_of_fenced (h : s.twin.st = 5) : hwFault s cause source detail = s.log (faultEvent cause source detail) := if_pos h

theorem hwFault_of_sound (h : s.twin.st ≠ 5) : hwFault s cause source detail =
    (sendTether (fencedIdle s cause source detail) 13 0 0 true [cause]).send .leafReport 0 [1, cause] := if_neg h

/-- After a fault the device differs from the fenced one only in what has been sent. -/
theorem sends_hwFault (h : s.twin.st ≠ 5) : Sends (fencedIdle s cause source detail) (hwFault s cause source detail) := by
  rw [hwFault_of_sound cause source detail h]
  exact (sends_sendTether _ _ _ _ _ _).trans (sends_send _ _ _ _)

theorem fencedIdle_record :
    fenceRecord (fencedIdle s cause source detail) =
      ({ s.twin with st := 5 }, cause, (logEvent s.dp (faultEvent cause source detail)).log) :=
  foldl_keeps fenceRecord (discardOp_fenceRecord 0x0701) s.ops (fencedNow s cause source detail)

theorem hwFault_record (h : s.twin.st ≠ 5) : fenceRecord (hwFault s cause source detail) =
    ({ s.twin with st := 5 }, cause, (logEvent s.dp (faultEvent cause source detail)).log) := by
  have hs := sends_hwFault cause source detail h
  unfold Sends at hs
  rw [hs]
  exact fencedIdle_record cause source detail

theorem hwFault_twin (h : s.twin.st ≠ 5) : (hwFault s cause source detail).twin = { s.twin with st := 5 } :=
  congrArg Prod.fst (hwFault_record cause source detail h)

theorem hwFault_cause (h : s.twin.st ≠ 5) : (hwFault s cause source detail).fault = cause :=
  congrArg (fun r => r.2.1) (hwFault_record cause source detail h)

theorem hwFault_log (h : s.twin.st ≠ 5) :
    (hwFault s cause source detail).dp.log = (logEvent s.dp (faultEvent cause source detail)).log :=
  congrArg (fun r => r.2.2) (hwFault_record cause source detail h)

theorem hwFault_fences : (hwFault s cause source detail).twin.st = 5 := by
  by_cases h : s.twin.st = 5
  · rw [hwFault_of_fenced cause source detail h]
    exact h
  · rw [hwFault_twin cause source detail h]

/-- Running collectives, schedules and ingest stop, and every op completes. -/
theorem hwFault_stops (h : s.twin.st ≠ 5) :
    (hwFault s cause source detail).colls = [] ∧ (hwFault s cause source detail).scheds = [] ∧
      (hwFault s cause source detail).ing = [] ∧
      ∀ id o, s.op? id = some o → ∃ o', (hwFault s cause source detail).op? id = some o' ∧ o'.phase = .done := by
  have hs := sends_hwFault cause source detail h
  unfold Sends at hs
  rw [hs]
  refine ⟨rfl, rfl, rfl, fun id o ho => op?_discardOps 0x0701 (s := fencedNow s cause source detail) ho s.ops ?_⟩
  by_cases hd : o.phase = .done
  · exact .inl hd
  · exact .inr ⟨o, List.mem_of_find?_eq_some ho, op?_id ho, hd⟩

end

/-! ## The commands (R557, R558, R606) -/

section
variable {s : State} (hon : s.off = false)
include hon

theorem exec_mgmtWatchdogExpiry : exec .mgmtWatchdogExpiry s = .next (s.inside (hwFault s 9 0x9000 0)) :=
  live_on (fun s => hwFault s 9 0x9000 0) hon

theorem exec_lockstepError : exec .lockstepError s = .next (s.inside (hwFault s 6 0x9000 0)) :=
  live_on (fun s => hwFault s 6 0x9000 0) hon

theorem exec_railFault {rail ns : Nat} (hr : rail ≤ 128) (hns : 5000 ≤ ns) :
    exec (.railFault rail ns) s = .next (s.inside (hwFault s 7 0x2010 (rail * 2 ^ 48))) := by
  change execRailFault rail ns s = _
  rw [execRailFault, if_neg (by omega), live_on _ hon, if_pos hns]

/-- Each of the three commands is a hardware fault of its cause. -/
theorem exec_hardwareFault {i : Instr} {cause : Nat} (h : i = .mgmtWatchdogExpiry ∧ cause = 9 ∨ i = .lockstepError ∧ cause = 6 ∨
    ∃ rail ns, i = .railFault rail ns ∧ rail ≤ 128 ∧ 5000 ≤ ns ∧ cause = 7) :
    ∃ source detail, exec i s = .next (s.inside (hwFault s cause source detail)) := by
  rcases h with ⟨rfl, rfl⟩ | ⟨rfl, rfl⟩ | ⟨rail, ns, rfl, hr, hns, rfl⟩
  · exact ⟨_, _, exec_mgmtWatchdogExpiry hon⟩
  · exact ⟨_, _, exec_lockstepError hon⟩
  · exact ⟨_, _, exec_railFault hon hr hns⟩

end

/-- Settles O53: a fault is R537's on a device that is not FENCED (the cases of R557, R558 and R606 differ in the cause only, R662), and
on a FENCED one its entry alone. The fields of the report to the leaf manager are log 18. -/
theorem hardwareFaultsFence : Obligations.HardwareFaultsFence := by
  intro i s cause hon hi
  obtain ⟨source, detail, he⟩ := exec_hardwareFault hon hi
  refine ⟨fun hst => ?_, fun hst => ⟨_, he, ?_⟩⟩
  · obtain ⟨hcolls, hscheds, hing, hops⟩ := hwFault_stops cause source detail hst
    refine ⟨_, he, hwFault_fences cause source detail, hwFault_cause cause source detail hst, hcolls, hscheds, hing, hops,
      fun hroom => ⟨{ seq := s.dp.log.nextSeq, time := s.dp.time, ev := faultEvent cause source detail }, ?_, rfl, rfl, rfl⟩,
      (sendTether (fencedIdle s cause source detail) 13 0 0 true [cause]).out, ?_⟩
    · rw [State.inside_dp, hwFault_log cause source detail hst, logEvent_sram _ _ hroom]
      exact List.mem_append_right _ (List.mem_singleton_self _)
    · rw [State.inside_out, hwFault_of_sound cause source detail hst]
      rfl
  · rw [hwFault_of_fenced cause source detail hst]
    exact ⟨rfl, rfl, rfl, rfl, logEvent_mem _ _⟩

end Sys2Proof.Proofs.HardwareFaults
end

section
/-! SUPPORT. The family of 18_module.md, part 3: temperature samples, warnings, trips, and the module's comparator. -/

namespace Sys2Proof.Proofs.Sensors

open Sys2Proof.Machine
open Sys2Proof.Proofs.HardwareFaults

/-! ## Warnings and trips (R589, R601) -/

/-- The device with a sample of a sensor held. -/
def sampled (s : State) (n : Nat) (x : Int) : State := { s with temps := kvSet 0 s.temps n x }

section
variable {s : State} {n : Nat} {old x : Int}

/-- A crossing counts, and changes no limit. -/
theorem warnCross_obj {k : Nat} (h1 : k ≠ kThermWarnCount) (h2 : k ≠ kLogDropped) : (warnCross s n old x).obj k = s.obj k := by
  unfold warnCross
  dsimp only
  split
  · rw [obj_log _ _ h2, obj_bump_other _ _ h1]
  · rfl

theorem warnCross_atTrip (m : Nat) (t : Int) : atTrip (warnCross s n old x) m t = atTrip s m t := by
  simp only [atTrip, tripLimit, warnCross_obj (k := kThermTripC) (by decide) (by decide)]

theorem warnCross_pins : (warnCross s n old x).pins = s.pins := by
  obtain ⟨d, hd⟩ := warnCross_cases s n old x
  rw [hd]
  rfl

theorem warnCross_twin : (warnCross s n old x).twin = s.twin := by
  obtain ⟨d, hd⟩ := warnCross_cases s n old x
  rw [hd]
  rfl

theorem warnCross_counts (hlo : old < ((16 * warnLimit s n : Nat) : Int)) (hhi : ((16 * warnLimit s n : Nat) : Int) ≤ x) :
    (warnCross s n old x).obj kThermWarnCount = min (s.obj kThermWarnCount + 1) (2 ^ 64 - 1) := by
  unfold warnCross
  rw [if_pos ⟨hlo, hhi⟩, obj_log _ _ (by decide), obj_bump_one]

theorem tripCheck_of_below (h : atTrip s n x = false) :
    tripCheck s n old x = setPins s { s.pins with trips := s.pins.trips.filter (· ≠ n) } := by
  unfold tripCheck
  rw [h]
  rfl

theorem tripCheck_of_second (h : atTrip s n x = true) (ho : atTrip s n old = true) (hn : n ∉ s.pins.trips) :
    tripCheck s n old x =
      setPins (s.inside (hwFault s 8 0x2101 (n * 2 ^ 48))) { s.pins with trips := s.pins.trips ++ [n] } := by
  unfold tripCheck
  simp [h, ho, hn]

end

/-! ## `THERM_TRIP_N` (R602) -/

theorem setTrip_of_cause {s : State} (h : comparator s = true ∨ s.pins.trips ≠ []) :
    setTrip s = setPins s { s.pins with tripAt := some (s.pins.tripAt.getD s.time) } := by
  unfold setTrip
  rw [if_pos]
  rcases h with h | h <;> simp [h]

theorem setTrip_of_no_cause {s : State} (hc : comparator s = false) (ht : s.pins.trips = []) :
    setTrip s = setPins s { s.pins with tripAt := none } := by
  unfold setTrip
  rw [if_neg]
  simp [hc, ht]

/-- Sensors in trip, the twin's state, the cause of its fault and the objects do not depend on `THERM_TRIP_N`. -/
theorem setTrip_frame (s : State) : (setTrip s).pins.trips = s.pins.trips ∧ (setTrip s).twin = s.twin ∧ (setTrip s).fault = s.fault ∧
    (setTrip s).temps = s.temps ∧ ∀ k, (setTrip s).obj k = s.obj k := by
  obtain ⟨a, ha⟩ := setTrip_cases s
  rw [ha]
  exact ⟨rfl, rfl, rfl, rfl, fun _ => rfl⟩

/-! ## Samples (R588, R589, R602) -/

/-- The device with a sample held, and a crossing of the warning limit counted. -/
def warned (s : State) (n : Nat) (x : Int) : State := warnCross (sampled s n x) n (kvGet 0 s.temps n) x

theorem warned_atTrip (s : State) (n : Nat) (x : Int) (m : Nat) (t : Int) : atTrip (warned s n x) m t = atTrip s m t :=
  warnCross_atTrip (s := sampled s n x) m t

theorem warned_pins (s : State) (n : Nat) (x : Int) : (warned s n x).pins = s.pins := warnCross_pins

theorem warned_twin (s : State) (n : Nat) (x : Int) : (warned s n x).twin = s.twin := warnCross_twin

theorem warned_temps (s : State) (n : Nat) (x : Int) : (warned s n x).temps = kvSet 0 s.temps n x := by
  obtain ⟨d, hd⟩ := warnCross_cases (sampled s n x) n (kvGet 0 s.temps n) x
  rw [warned, hd]
  rfl

/-- What the firmware makes of a sample, before `THERM_TRIP_N`: nothing where it does not run. -/
def checked (s : State) (n : Nat) (x : Int) : State :=
  if s.off || !mgmtUp s then sampled s n x else tripCheck (warned s n x) n (kvGet 0 s.temps n) x

theorem exec_sensorSample {s : State} {n : Nat} {x : Int} (hn : n < 404) :
    exec (.sensorSample n x) s = .next (setTrip (checked s n x)) := by
  change execSensorSample n x s = _
  rw [execSensorSample, if_neg (by omega)]
  rfl

theorem checked_temps (s : State) (n : Nat) (x : Int) : (checked s n x).temps = kvSet 0 s.temps n x := by
  unfold checked
  split
  · rfl
  · obtain ⟨_, -, -, -, ht⟩ := tripCheck_cases (warned s n x) n (kvGet 0 s.temps n) x
    rw [ht, warned_temps]

section
variable {s : State} {n : Nat} {x : Int} (hon : s.off = false) (hup : mgmtUp s = true)
include hon hup

theorem checked_of_up : checked s n x = tripCheck (warned s n x) n (kvGet 0 s.temps n) x := by
  rw [checked, hon, hup]
  rfl

theorem checked_of_below (h : atTrip s n x = false) :
    checked s n x = setPins (warned s n x) { s.pins with trips := s.pins.trips.filter (· ≠ n) } := by
  rw [checked_of_up hon hup, tripCheck_of_below ((warned_atTrip s n x n x).trans h), warned_pins]

theorem checked_of_second (h : atTrip s n x = true) (ho : atTrip s n (kvGet 0 s.temps n) = true) (ht : n ∉ s.pins.trips) :
    checked s n x = setPins ((warned s n x).inside (hwFault (warned s n x) 8 0x2101 (n * 2 ^ 48)))
      { s.pins with trips := s.pins.trips ++ [n] } := by
  have hnew : n ∉ (warned s n x).pins.trips := by rw [warned_pins]; exact ht
  rw [checked_of_up hon hup, tripCheck_of_second ((warned_atTrip s n x n x).trans h) ((warned_atTrip s n x n _).trans ho) hnew,
    warned_pins]

end

/-- Settles O54: what a sample does once the firmware runs goes by the limits of R589 and R601, and `THERM_TRIP_N` by whether a cause
stands (R602). That a trip is one fault until its sensor is below the limit again, and that a warning counts when a sample reaches the
limit from below, is log 59. -/
theorem sensorRules : Obligations.SensorRules := by
  refine ⟨fun s n x hn => ⟨_, exec_sensorSample hn, ?_⟩, fun s =>
    ⟨fun hc => congrArg Host.Outcome.next (setTrip_of_cause hc),
      fun hc ht => congrArg Host.Outcome.next (setTrip_of_no_cause hc ht)⟩⟩
  obtain ⟨htrips, htwin, hfault, htemps, hobj⟩ := setTrip_frame (checked s n x)
  rw [htrips, htwin, hfault, htemps, hobj, checked_temps]
  refine ⟨kvGet_kvSet_same _ _ _ _, fun m hm => kvGet_kvSet_other _ _ _ hm, fun hon hup =>
    ⟨fun hlo hhi hbelow => ?_, fun htrip hold hnew => ?_, fun hbelow => ?_⟩⟩
  · rw [checked_of_below hon hup hbelow]
    exact warnCross_counts (s := sampled s n x) hlo hhi
  · have hc := checked_of_second hon hup htrip hold hnew
    have hin : (checked s n x).pins.trips = s.pins.trips ++ [n] := by rw [hc]; rfl
    refine ⟨?_, fun hst => ?_, ?_, ?_⟩
    · rw [hc]
      exact hwFault_fences 8 _ _
    · rw [hc]
      exact hwFault_cause 8 _ _ (warned_twin s n x ▸ hst)
    · rw [hin]
      exact List.mem_append_right _ (List.mem_singleton_self n)
    · rw [setTrip_of_cause (.inr (by rw [hin]; simp))]
      rfl
  · rw [checked_of_below hon hup hbelow]
    simp

end Sys2Proof.Proofs.Sensors
end

section
/-! SUPPORT. The family of 17_management.md, part 1: QOP frames that are refused, and those that are served. -/

namespace Sys2Proof.Proofs.QopFrames

open Sys2Proof.Machine
open Sys2Proof.Proofs.MemoryChannels

/-! ## Responses change what has been sent, the mailbox and the session's counter (R482, R575) -/

theorem sends_mgmt {s t : State} (h : Sends s t) : t.mgmt = s.mgmt := by unfold Sends at h; rw [h]

/-- What the mailbox's answer leaves alone: the data path and the management. -/
theorem mailboxAnswer_frame (s : State) (bs : List Nat) :
    (mailboxAnswer s bs).dp = s.dp ∧ (mailboxAnswer s bs).mgmt = s.mgmt := by
  unfold mailboxAnswer
  dsimp only
  split
  · exact ⟨rfl, rfl⟩
  · exact ⟨(sends_dp (sends_sendInt _ _ _)).trans rfl, (sends_mgmt (sends_sendInt _ _ _)).trans rfl⟩

theorem respond_dp (s : State) (r : Req) (st : Nat) (body : List Nat) : (respond s r st body).dp = s.dp := by
  unfold respond
  dsimp only
  split
  · cases r.mac <;> cases session? s r.sess <;> rfl
  · rw [(mailboxAnswer_frame _ _).1]
    cases r.mac <;> cases session? s r.sess <;> rfl

/-- A response without a MAC changes no session either. -/
theorem respond_mgmt_of_unsealed {r : Req} (h : r.mac = false) (s : State) (st : Nat) (body : List Nat) :
    (respond s r st body).mgmt = s.mgmt := by
  unfold respond
  rw [h]
  dsimp only
  split
  · rfl
  · exact (mailboxAnswer_frame _ _).2

/-! ## The commands by the frame that they carry (R564, R482) -/

section
variable {s : State} {f : Frame} {p : Nat → Bool}

/-- A frame of a command is served at a safe point. -/
theorem exec_of_qopFrame {i : Instr} (hi : qopFrame i = some (f, p)) (hsafe : safePoint s = true) :
    ∃ k, exec i s = serveQop p f s k :=
  match i, hi with
  | .qopRead _, rfl => ⟨_, execQopRead.eq_1 _ _⟩
  | .qopWrite _, rfl => ⟨_, (execQopWrite.eq_1 _ _).trans (if_neg fun h => by simp [hsafe] at h)⟩
  | .qopBegin _, rfl => ⟨_, execQopBegin.eq_1 _ _⟩
  | .qopCommit _, rfl => ⟨_, execQopCommit.eq_1 _ _⟩
  | .qopRollback _, rfl => ⟨_, execQopRollback.eq_1 _ _⟩
  | .qopHello _, rfl => ⟨_, execQopHello.eq_1 _ _⟩
  | .qopKeyx _, rfl => ⟨_, execQopKeyx.eq_1 _ _⟩
  | .qopClose _, rfl => ⟨_, execQopClose.eq_1 _ _⟩
  | .logRead _, rfl => ⟨_, execLogRead.eq_1 _ _⟩
  | .attest _, rfl => ⟨_, execAttest.eq_1 _ _⟩
  | .mgr _, rfl => ⟨_, execMgr.eq_1 _ _⟩
  | .unknownQcmd _, rfl => ⟨_, execUnknownQcmd.eq_1 _ _⟩

section
variable (hs : ServesFrame s f)
include hs

theorem safePoint_of_serves : safePoint s = true := by
  obtain ⟨-, -, -, -, hsafe⟩ := hs
  exact hsafe

theorem serveQop_of_serves (k : State → Req → State) : serveQop p f s k = .next (s.inside (
    if malformed f then (if f.net then s.bump kQopMalformed 1 else mailboxAnswer (s.bump kQopMalformed 1) [])
    else if !p (reqOf f).cmd then s
    else inSession s f (reqOf f) (fun u q => k (touchTxn u q) q))) := by
  obtain ⟨hon, hup, hreq, hidle, -⟩ := hs
  rw [serveQop, live_on _ hon, hup, hreq, hidle]
  simp

theorem serveQop_of_malformed (hm : malformed f = true) (hn : f.net = true) (k : State → Req → State) :
    serveQop p f s k = .next (s.bump kQopMalformed 1) := by
  rw [serveQop_of_serves hs, if_pos hm, if_pos hn]
  rfl

theorem serveQop_of_wellFormed (hm : malformed f = false) (hp : p (reqOf f).cmd = true) (k : State → Req → State) :
    serveQop p f s k = .next (s.inside (inSession s f (reqOf f) (fun u q => k (touchTxn u q) q))) := by
  rw [serveQop_of_serves hs, hm, hp]
  rfl

end

/-! ## The check of a frame's session (R567, R575, R577) -/

variable {r : Req} (k : State → Req → State)

theorem inSession_of_refused (h0 : r.sess = 0) (hn : r.net = true) (hf : freeRequest r = false) :
    inSession s f r k = respond s r 0x0801 [] := by
  simp [inSession, h0, hn, hf]

theorem inSession_of_unknown (h0 : r.sess ≠ 0) (hx : session? s r.sess = none) : inSession s f r k = respond s r 0x0801 [] := by
  simp [inSession, h0, hx]

theorem inSession_of_mailbox (h0 : r.sess = 0) (hf : r.net = false ∨ freeRequest r = true) : inSession s f r k = k s r := by
  rcases hf with hf | hf <;> simp [inSession, h0, hf]

section
variable {x : Session} (h0 : r.sess ≠ 0) (hx : session? s r.sess = some x)
include h0 hx

theorem inSession_of_pending (ho : x.opened = false) :
    inSession s f r k = if freeRequest r then k (setSession s x) r else respond s r 0x0801 [] := by
  simp [inSession, h0, hx, ho]

theorem inSession_of_open (ho : x.opened = true) : inSession s f r k =
    if qMacEn (frameHdr f) = false ∨ macOf (x.keys.take 32) (f.bytes.take (32 + r.body.length)) ≠ f.bytes.drop (32 + r.body.length) then
      authFail s r 0x0802
    else if qCounter (frameHdr f) ≤ x.inCtr then authFail s r 0x0803
    else k (setSession s { x with inCtr := qCounter (frameHdr f), since := s.time }) { r with mac := true } := by
  simp [inSession, h0, hx, ho]

end

end

/-! ## Frames that pass -/

/-- Nothing answers every request in one way and serves each as it asks. -/
theorem not_serves_all {a u : State} {q : Req} : ¬ ∀ k : State → Req → State, a = k u q := fun h => by
  have hone : a.nextOp = a.nextOp + 1 := congrArg State.nextOp (h fun _ _ => { a with nextOp := a.nextOp + 1 })
  omega

/-- A session and a transaction are noted in either order. -/
theorem touchTxn_setSession (s : State) (x : Session) {r q : Req} (ht : q.txn = r.txn) (hs : q.sess = r.sess) :
    touchTxn (setSession s x) q = setSession (touchTxn s r) x := by
  unfold touchTxn
  rw [ht, hs]
  rfl

/-- A frame that passes is served after the transaction that it names is noted, before or after its session is (R571). -/
theorem inSession_touch {s u : State} {f : Frame} {r q : Req} (h : ∀ k, inSession (touchTxn s r) f r k = k u q)
    (k : State → Req → State) : inSession s f r (fun s r => k (touchTxn s r) r) = k u q := by
  rw [← h k]
  by_cases h0 : r.sess = 0
  · by_cases hf : r.net = true ∧ freeRequest r = false
    · exact absurd (fun k => (inSession_of_refused k h0 hf.1 hf.2).symm.trans (h k)) not_serves_all
    · have hfree : r.net = false ∨ freeRequest r = true := by
        cases hn : r.net <;> cases hr : freeRequest r <;> simp_all
      rw [inSession_of_mailbox _ h0 hfree, inSession_of_mailbox _ h0 hfree]
  · cases hx : session? s r.sess with
    | none =>
      exact absurd (fun k => (inSession_of_unknown (s := touchTxn s r) k h0 hx).symm.trans (h k)) not_serves_all
    | some x =>
      have hx' : session? (touchTxn s r) r.sess = some x := hx
      cases ho : x.opened with
      | false =>
        rw [inSession_of_pending _ h0 hx ho, inSession_of_pending _ h0 hx' ho]
        split
        · rw [touchTxn_setSession s x rfl rfl]
        · next hf =>
          exact absurd (fun k => (inSession_of_pending k h0 hx' ho).symm.trans (h k)) (by simp only [hf]; exact not_serves_all)
      | true =>
        rw [inSession_of_open _ h0 hx ho, inSession_of_open _ h0 hx' ho]
        have hopen := fun k => (inSession_of_open k h0 hx' ho).symm.trans (h k)
        split
        · next hc => exact absurd hopen (by simp only [hc, if_true]; exact not_serves_all)
        · next hc =>
          split
          · next hctr => exact absurd hopen (by simp only [hc, hctr, if_true, if_false]; exact not_serves_all)
          · exact congrArg (k · _) (touchTxn_setSession s _ rfl rfl)

/-- A frame that passes is served as its request. -/
theorem serveQop_of_passes {s u : State} {f : Frame} {q : Req} {p : Nat → Bool} (h : Passes s f u q) (hp : p q.cmd = true)
    (k : State → Req → State) : serveQop p f s k = .next (s.inside (k u q)) := by
  obtain ⟨hs, hm, hcmd, -, -, -, hk⟩ := h
  rw [serveQop_of_wellFormed hs hm (hcmd ▸ hp), inSession_touch hk]

/-! ## Frames that are refused (R564, R567, R575) -/

/-- What O47 says, with the state as it was in the place of `touchTxn s r`: a frame that is refused is answered there, since only one
that passes is noted for the transaction that it names (R571). -/
theorem exec_refused_frame (i : Instr) (s : State) (f : Frame) (p : Nat → Bool) (hi : qopFrame i = some (f, p))
    (hs : ServesFrame s f) :
    (malformed f = true → f.net = true → exec i s = .next (s.bump kQopMalformed 1)) ∧
    (malformed f = false → p (reqOf f).cmd = true →
      ((reqOf f).sess = 0 → f.net = true → freeRequest (reqOf f) = false →
        exec i s = .next (s.inside (respond s (reqOf f) 0x0801 []))) ∧
      ((reqOf f).sess ≠ 0 → session? s (reqOf f).sess = none → exec i s = .next (s.inside (respond s (reqOf f) 0x0801 []))) ∧
      (∀ x, (reqOf f).sess ≠ 0 → session? s (reqOf f).sess = some x →
        (x.opened = false → freeRequest (reqOf f) = false → exec i s = .next (s.inside (respond s (reqOf f) 0x0801 []))) ∧
        (x.opened = true →
          (macOf (x.keys.take 32) (f.bytes.take (32 + (reqOf f).body.length)) ≠ f.bytes.drop (32 + (reqOf f).body.length) →
            exec i s = .next (s.inside (authFail s (reqOf f) 0x0802))) ∧
          (qMacEn (frameHdr f) = true →
            macOf (x.keys.take 32) (f.bytes.take (32 + (reqOf f).body.length)) = f.bytes.drop (32 + (reqOf f).body.length) →
            qCounter (frameHdr f) ≤ x.inCtr → exec i s = .next (s.inside (authFail s (reqOf f) 0x0803)))))) := by
  have hsafe : safePoint s = true := safePoint_of_serves hs
  obtain ⟨k, hk⟩ := exec_of_qopFrame hi hsafe
  rw [hk]
  refine ⟨fun hm hn => serveQop_of_malformed hs hm hn k, fun hm hp => ?_⟩
  rw [serveQop_of_wellFormed hs hm hp]
  refine ⟨fun h0 hn hf => ?_, fun h0 hx => ?_,
    fun x h0 hx => ⟨fun ho hf => ?_, fun ho => ⟨fun hmac => ?_, fun hen hmac hctr => ?_⟩⟩⟩
  · rw [inSession_of_refused _ h0 hn hf]
  · rw [inSession_of_unknown _ h0 hx]
  · rw [inSession_of_pending _ h0 hx ho, hf]
    rfl
  · rw [inSession_of_open _ h0 hx ho, if_pos (.inr hmac)]
  · rw [inSession_of_open _ h0 hx ho, if_neg (by simp [hen, hmac]), if_pos hctr]

/-- BEGIN over the network without a session, which needs one, naming transaction 1. -/
def beginWithoutSession : Frame := { net := true, bytes := leBytes 32 (2 ^ 248 + 3 * 2 ^ 240 + 2 ^ 120) }

/-- The mailbox's transaction 1, which a frame named latest at time 0, is open at time 1. -/
def mailboxTxnOpen : State :=
  { dp := { time := 1 }, boot := { done := [1, 2] }, mgmt := { txns := [{ id := 1, sess := 0 }] } }

/-- Refutes O47: the statement answers a refused frame in a state in which the transaction that it names has just been named, but the
model answers in the state as it was. `beginWithoutSession` is refused with 0x0801 and leaves the mailbox's transaction in
`mailboxTxnOpen` named latest at time 0, not 1. `exec_refused_frame` is what holds. -/
theorem not_qopFrameChecks : ¬ Obligations.QopFrameChecks := by
  intro h
  have hs : ServesFrame mailboxTxnOpen beginWithoutSession := ⟨rfl, rfl, rfl, rfl, rfl⟩
  have hm : malformed beginWithoutSession = false := by decide +kernel
  have hcmd : ((reqOf beginWithoutSession).cmd == 3) = true := by decide +kernel
  have h0 : (reqOf beginWithoutSession).sess = 0 := by decide +kernel
  have hf : freeRequest (reqOf beginWithoutSession) = false := by decide +kernel
  have hclaim := ((h (.qopBegin beginWithoutSession) _ _ _ rfl hs).2 hm hcmd).1 h0 rfl hf
  have hreal := ((exec_refused_frame (.qopBegin beginWithoutSession) _ _ _ rfl hs).2 hm hcmd).1 h0 rfl hf
  have hmgmt := congrArg State.mgmt (Host.Outcome.next.inj (hreal.symm.trans hclaim))
  rw [State.inside_mgmt, State.inside_mgmt, respond_mgmt_of_unsealed rfl, respond_mgmt_of_unsealed rfl] at hmgmt
  exact absurd (congrArg Mgmt.txns hmgmt) (by decide +kernel)

end Sys2Proof.Proofs.QopFrames
end

section
/-! SUPPORT. The family of 17_management.md, part 2: requests that read, write, and open or end transactions and sessions. -/

namespace Sys2Proof.Proofs.QopRequests

open Sys2Proof.Machine
open Sys2Proof.Proofs.QopFrames

/-! ## Requests that pass, by their command (R566, R568 to R571) -/

section
variable {s u : State} {f : Frame} {q : Req} (h : Passes s f u q)
include h

/-- What a request reads. -/
abbrev readOf (u : State) (q : Req) : Except Nat (List Nat) :=
  readObj u q.sess (refIndex q) (refSub q) (refOffset q) (leNat (q.body.drop 8)) (respRoom q)

theorem exec_qopRead_of_value (hc : q.cmd = 1) (hb : q.body.length = 12) {bs : List Nat} (hr : readOf u q = .ok bs) :
    exec (.qopRead f) s = .next (s.inside (respond u q 0 bs)) := by
  change execQopRead f s = _
  rw [execQopRead, serveQop_of_passes h (by simp [hc])]
  simp only [needBody, hb, hr, beq_self_eq_true, if_true]

theorem exec_qopRead_of_code (hc : q.cmd = 1) (hb : q.body.length = 12) {c : Nat} (hr : readOf u q = .error c) :
    exec (.qopRead f) s = .next (s.inside (respond u q c [])) := by
  change execQopRead f s = _
  rw [execQopRead, serveQop_of_passes h (by simp [hc])]
  simp only [needBody, hb, hr, beq_self_eq_true, if_true]

/-- The write that a request asks for. -/
abbrev writeOf (q : Req) : Staged := { index := refIndex q, sub := refSub q, offset := refOffset q, bytes := q.body.drop 8 }

section
variable (hc : q.cmd = 2) (hb : 8 ≤ q.body.length)
include hc hb

/-- A frame that passes comes at a safe point, for which a WRITE outside a transaction waits. -/
theorem exec_qopWrite_alone (h0 : q.txn = 0) : exec (.qopWrite f) s =
    .next (s.inside (respond (writeAlone u q.sess [writeOf q]).1 q (writeAlone u q.sess [writeOf q]).2 [])) := by
  have hsafe : safePoint s = true := safePoint_of_serves h.1
  change execQopWrite f s = _
  rw [execQopWrite, if_neg (by simp [hsafe]), serveQop_of_passes h (by simp [hc])]
  simp only [needBody, hb, h0, decide_true, if_true, writeOf]

theorem exec_qopWrite_within {t : Txn} (h0 : q.txn ≠ 0) (ht : txnOf u q = some t) :
    exec (.qopWrite f) s = .next (s.inside (stageWrite u q t (writeOf q))) := by
  have hsafe : safePoint s = true := safePoint_of_serves h.1
  change execQopWrite f s = _
  rw [execQopWrite, if_neg (by simp [hsafe]), serveQop_of_passes h (by simp [hc])]
  simp only [needBody, hb, h0, ht, decide_true, if_true, if_false, writeOf]

end

theorem exec_qopBegin (hc : q.cmd = 3) (hb : q.body = []) : exec (.qopBegin f) s = .next (s.inside (
    if u.mgmt.txns.any (fun t => t.sess == q.sess) then ignoreReq u q
    else
      let n := if u.mgmt.lastTxn + 1 < 2 ^ 32 then u.mgmt.lastTxn + 1 else 1
      let t : Txn := { id := n, sess := q.sess, since := u.time }
      respond { u with mgmt := { u.mgmt with lastTxn := n, txns := u.mgmt.txns ++ [t] } } { q with txn := n } 0 [])) := by
  change execQopBegin f s = _
  rw [execQopBegin, serveQop_of_passes h (by simp [hc])]
  simp only [needBody, hb, List.isEmpty_nil, if_true]

section
variable {t : Txn} (ht : txnOf u q = some t) (hb : q.body = [])
include ht hb

theorem exec_qopCommit_of_open (hc : q.cmd = 4) : exec (.qopCommit f) s = .next (s.inside (putTxn u { t with commit := some q })) := by
  change execQopCommit f s = _
  rw [execQopCommit, serveQop_of_passes h (by simp [hc])]
  simp only [needBody, hb, ht, List.isEmpty_nil, if_true]

theorem exec_qopRollback_of_open (hc : q.cmd = 5) :
    exec (.qopRollback f) s = .next (s.inside (respond ((dropTxn u t.id).bump kTxnRollbacks 1) q 0 [])) := by
  change execQopRollback f s = _
  rw [execQopRollback, serveQop_of_passes h (by simp [hc])]
  simp only [needBody, hb, ht, List.isEmpty_nil, if_true]

end

end

/-- A write that passes its checks and fits the transaction is staged (R568). -/
theorem stageWrite_of_fits {u : State} {q : Req} {t : Txn} {w : Staged} (hc : checkWrite (overlay u t.writes) q.sess false w = 0)
    (hi : counterIgnored w = false) (hn : t.writes.length < 256)
    (hb : (t.writes.map (·.bytes.length)).sum + w.bytes.length ≤ 16384) :
    stageWrite u q t w = respond (putTxn u { t with writes := t.writes ++ [w] }) q 0 [] := by
  unfold stageWrite
  simp only [hc, hi, ne_eq, not_true_eq_false, Bool.false_eq_true, if_false]
  rw [if_neg (by omega)]

/-- Settles O48: each request by its command, and by whether a transaction of its session is open. That a staged write is checked over
the values that earlier ones would leave is log 51, and that a WRITE outside a transaction counts as one is log 52. -/
theorem qopReadsAndTransactions : Obligations.QopReadsAndTransactions := by
  intro s u f q h
  refine ⟨fun hc hb => ⟨fun bs => exec_qopRead_of_value h hc hb, fun c => exec_qopRead_of_code h hc hb⟩,
    fun hc hb => ⟨fun h0 => ?_, fun t h0 ht hcheck hign hn hlen => ?_⟩, fun hc hb => ⟨fun hopen => ?_, fun hnone hlast => ?_⟩,
    fun t hb ht => ⟨exec_qopCommit_of_open h ht hb, exec_qopRollback_of_open h ht hb⟩⟩
  · exact exec_qopWrite_alone h hc hb h0
  · rw [exec_qopWrite_within h hc hb h0 ht, stageWrite_of_fits hcheck hign hn hlen]
  · rw [exec_qopBegin h hc hb, if_pos hopen]
  · rw [exec_qopBegin h hc hb, if_neg (ne_true_of_eq_false hnone)]
    simp only [hlast, if_true]

/-! ## The ends of transactions (R570, R571) -/

section
variable {s : State} {n : Nat} {t : Txn} (hon : s.off = false) (ht : s.mgmt.txns.find? (fun t => t.id == n) = some t)
include hon ht

theorem exec_commitSafePoint_of_waiting {r : Req} (hr : t.commit = some r) (hsafe : safePoint s = false) :
    exec (.commitSafePoint n) s = .next s := by
  change execCommitSafePoint n s = _
  rw [execCommitSafePoint, live_on _ hon]
  simp only [ht, hr, hsafe, Bool.not_false, if_true]
  rfl

section
variable {r : Req} (hr : t.commit = some r) (hsafe : safePoint s = true)
include hr hsafe

theorem exec_commitSafePoint_of_applied {u : State} (hu : applyTxn s t.sess t.writes = (u, 0, none)) :
    exec (.commitSafePoint n) s = .next (s.inside (respond ((dropTxn u t.id).bump kTxnCommits 1) r 0 [])) := by
  change execCommitSafePoint n s = _
  rw [execCommitSafePoint, live_on _ hon]
  simp only [ht, hr, hsafe, hu, Bool.not_true, Bool.false_eq_true, if_true, if_false]

theorem exec_commitSafePoint_of_failed {u : State} {c : Nat} {w : Staged} (hc : c ≠ 0)
    (hu : applyTxn s t.sess t.writes = (u, c, some w)) :
    exec (.commitSafePoint n) s =
      .next (s.inside (respond ((dropTxn u t.id).bump kTxnRollbacks 1) r c (leBytes 2 w.index ++ [w.sub]))) := by
  change execCommitSafePoint n s = _
  rw [execCommitSafePoint, live_on _ hon]
  simp only [ht, hr, hsafe, hu, hc, Bool.not_true, Bool.false_eq_true, if_false]

end

/-- The device after a transaction has expired: the last sixteen of its session are remembered. -/
def txnExpired (s : State) (t : Txn) : State :=
  let s1 := (dropTxn s t.id).bump kTxnExpired 1
  let mine := s1.mgmt.expired.filter (fun e => e.1 == t.sess)
  let rest := s1.mgmt.expired.filter (fun e => e.1 != t.sess)
  { s1 with mgmt := { s1.mgmt with expired := rest ++ (mine ++ [(t.sess, t.id)]).drop ((mine.length + 1) - 16) } }

theorem exec_txnExpiry (hc : t.commit = none) :
    exec (.txnExpiry n) s = .next (s.inside (if s.expired t.since 5000000000 = false then s else txnExpired s t)) := by
  change execTxnExpiry n s = _
  rw [execTxnExpiry, live_on _ hon]
  simp only [ht, hc, Option.isSome_none, Bool.false_eq_true, false_or, Bool.not_eq_true']
  rfl

end

/-- The latest of the expired transactions is among the last sixteen. -/
theorem mem_drop_append_self {α : Type} (l : List α) (a : α) (k : Nat) (h : k ≤ l.length) : a ∈ (l ++ [a]).drop k := by
  rw [List.drop_append_of_le_length h]
  exact List.mem_append_right _ (List.mem_singleton_self a)

theorem txnExpired_remembers (s : State) (t : Txn) : (t.sess, t.id) ∈ (txnExpired s t).mgmt.expired :=
  List.mem_append_right _ (mem_drop_append_self _ _ _ (by omega))

/-- Settles O49: a COMMIT that waits by the safe point and by what applying its writes comes to, and a transaction without a COMMIT by
how long no frame has named it. -/
theorem transactionEnds : Obligations.TransactionEnds := by
  intro s n t hon ht
  refine ⟨fun r hr => ⟨exec_commitSafePoint_of_waiting hon ht hr, fun hsafe =>
      ⟨fun u => exec_commitSafePoint_of_applied hon ht hr hsafe, fun u c w => exec_commitSafePoint_of_failed hon ht hr hsafe⟩⟩,
    fun hc => ⟨fun hin => ?_, fun hout => ⟨_, exec_txnExpiry hon ht hc, ?_⟩⟩⟩
  · rw [exec_txnExpiry hon ht hc, if_pos hin]
    rfl
  · rw [if_neg (by simp [hout])]
    exact ⟨rfl, txnExpired_remembers s t, obj_bump_one (dropTxn s t.id) kTxnExpired⟩

/-! ## Sessions (R571, R573, R577) -/

/-- An ended session is gone, and so are its transactions. -/
theorem endSession_mgmt (s : State) (id : Nat) :
    (endSession s id).mgmt.sessions = s.mgmt.sessions.filter (fun x => x.id ≠ id) ∧
      (endSession s id).mgmt.txns = s.mgmt.txns.filter (fun t => t.sess ≠ id) := ⟨rfl, rfl⟩

theorem endSession_txns (s : State) (id : Nat) : ∀ t ∈ (endSession s id).mgmt.txns, t.sess ≠ id := by
  intro t ht
  simpa using (List.mem_filter.mp ht).2

theorem endSession_sessions (s : State) (id : Nat) : ∀ x ∈ (endSession s id).mgmt.sessions, x.id ≠ id := by
  intro x hx
  simpa using (List.mem_filter.mp hx).2

section
variable {s u : State} {f : Frame} {q : Req} (h : Passes s f u q)
include h

theorem exec_qopHello_of_full (hc : q.cmd = 6) (hb : q.body.length = 1314) (hn : 8 ≤ u.mgmt.sessions.length) :
    exec (.qopHello f) s = .next (s.inside (respond u q 0x080D [])) := by
  change execQopHello f s = _
  rw [execQopHello, serveQop_of_passes h (by simp [hc])]
  simp only [needBody, hb, hn, beq_self_eq_true, if_true]

/-- A HELLO that finds room answers in a state with the new session. -/
theorem exec_qopHello_of_room (hc : q.cmd = 6) (hb : q.body.length = 1314) (hn : u.mgmt.sessions.length < 8) :
    ∃ (x : Session) (v : State) (answer : List Nat),
      exec (.qopHello f) s = .next (s.inside (respond v { q with sess := nextSession u, mac := false } 0 answer)) ∧
      v.mgmt.sessions = u.mgmt.sessions ++ [x] ∧ x.id = nextSession u ∧ x.opened = false ∧ x.since = u.time := by
  change ∃ (x : Session) (v : State) (answer : List Nat), execQopHello f s = _ ∧ _
  rw [execQopHello, serveQop_of_passes h (by simp [hc])]
  simp only [needBody, hb, Nat.not_le.mpr hn, beq_self_eq_true, if_true, if_false]
  exact ⟨_, _, _, rfl, rfl, rfl, rfl, rfl⟩

theorem exec_qopKeyx_of_pending {x : Session} (hc : q.cmd = 7) (hb : q.body = []) (hx : session? u q.sess = some x)
    (ho : x.opened = false) : exec (.qopKeyx f) s = .next (s.inside (
    if u.mgmt.operators.any (fun o => o.1 == x.operator) && Config.proofOk x.operator x.transcript x.client then
      respond (setSession u { x with opened := true, since := u.time, keys := sessionKeys x.transcript x.exchange, outCtr := 0 })
        { q with mac := true } 0 []
    else endSession (respond u q 0x0804 []) x.id)) := by
  change execQopKeyx f s = _
  rw [execQopKeyx, serveQop_of_passes h (by simp [hc])]
  simp only [needBody, hb, hx, ho, List.isEmpty_nil, Bool.false_eq_true, if_true, if_false]

theorem exec_qopClose (hc : q.cmd = 8) (hb : q.body = []) :
    exec (.qopClose f) s = .next (s.inside (endSession (respond u q 0 []) q.sess)) := by
  change execQopClose f s = _
  rw [execQopClose, serveQop_of_passes h (by simp [hc])]
  simp only [needBody, hb, List.isEmpty_nil, if_true]

end

section
variable {s : State} {n : Nat} {x : Session} (hon : s.off = false) (hx : session? s n = some x)
include hon hx

theorem exec_sessionPendingExpiry_of_late (ho : x.opened = false) (he : s.expired x.since 10000000000 = true) :
    exec (.sessionPendingExpiry n) s = .next (s.inside (endSession s n)) := by
  change execSessionPendingExpiry n s = _
  rw [execSessionPendingExpiry, live_on _ hon]
  simp only [hx, ho, he, Bool.not_false, and_self, if_true]

theorem exec_sessionIdleExpiry_of_late (ho : x.opened = true) (he : s.expired x.since (s.obj kSessionIdleS * 1000000000) = true) :
    exec (.sessionIdleExpiry n) s = .next (s.inside (endSession s n)) := by
  change execSessionIdleExpiry n s = _
  rw [execSessionIdleExpiry, live_on _ hon]
  simp only [hx, ho, he, and_self, if_true]

end

/-- Settles O50: HELLO by the number of sessions, KEYX by its proof, and each end of a session drops it with its transactions. The proofs
themselves are opaque (log 15). -/
theorem sessionRules : Obligations.SessionRules := by
  refine ⟨fun s u f q h => ⟨fun hc hb => ⟨exec_qopHello_of_full h hc hb, fun hn => ?_⟩, fun x hc hb hx ho => ?_, fun hc hb =>
      ⟨_, exec_qopClose h hc hb, endSession_sessions _ _, endSession_txns _ _⟩⟩,
    fun s n x hon hx => ⟨fun ho he => ⟨_, exec_sessionPendingExpiry_of_late hon hx ho he, (endSession_mgmt s n).1, endSession_txns s n⟩,
      fun ho he => ⟨_, exec_sessionIdleExpiry_of_late hon hx ho he, (endSession_mgmt s n).1, endSession_txns s n⟩⟩⟩
  · obtain ⟨x, v, answer, hexec, hv, hx⟩ := exec_qopHello_of_room h hc hb hn
    refine ⟨_, hexec, x, ?_, hx⟩
    rw [State.inside_mgmt, respond_mgmt_of_unsealed rfl, hv]
  · refine ⟨fun hgood => ?_, fun hbad => ?_⟩
    · rw [exec_qopKeyx_of_pending h hc hb hx ho, if_pos hgood]
    · rw [exec_qopKeyx_of_pending h hc hb hx ho, if_neg (ne_true_of_eq_false hbad)]

/-! ## Reading the log, attestation and other commands (R566, R579, R587) -/

section
variable {s u : State} {f : Frame} {q : Req} (h : Passes s f u q)
include h

theorem exec_logRead (hc : q.cmd = 9) (hb : q.body.length = 10) : exec (.logRead f) s = .next (s.inside (respond u q 0
    (((u.dp.log.flash.filter (fun e => decide (leNat (q.body.take 8) ≤ e.seq))).take
      (min (leNat (q.body.drop 8)) (logPage q.net))).flatMap (fun e => fit 32 e.chain ++ entryTail e)))) := by
  change execLogRead f s = _
  rw [execLogRead, serveQop_of_passes h (by simp [hc])]
  simp only [needBody, hb, beq_self_eq_true, if_true]

/-- The device with an attestation record and its signatures to be read (R579). -/
def attested (u : State) (q : Req) : State :=
  (u.setObj kAttestRecord (leNat (attestRecord u q.body))).setObj kAttestSig
    (leNat (fit 3405 ((Config.attestSigs (attestRecord u q.body)).map (· % 256))))

theorem exec_attest (hc : q.cmd = 10) (hb : q.body.length = 32) :
    exec (.attest f) s = .next (s.inside (respond (attested u q) q 0 [])) := by
  change execAttest f s = _
  rw [execAttest, serveQop_of_passes h (by simp [hc])]
  simp only [needBody, hb, beq_self_eq_true, if_true]
  rfl

theorem exec_mgr (hc : q.cmd = 16) : exec (.mgr f) s = .next (s.inside (respond u q 0 [])) := by
  change execMgr f s = _
  rw [execMgr, serveQop_of_passes h (by simp [hc])]

theorem exec_unknownQcmd (hc : q.cmd = 0 ∨ 11 ≤ q.cmd ∧ q.cmd ≠ 16) :
    exec (.unknownQcmd f) s = .next (s.inside (respond u q 0x0806 [])) := by
  have hp : (!(decide (1 ≤ q.cmd) && decide (q.cmd ≤ 10)) && q.cmd != 16) = true := by
    rcases hc with hc | ⟨hlo, hne⟩
    · simp [hc]
    · simp [hne, show ¬ q.cmd ≤ 10 by omega]
  change execUnknownQcmd f s = _
  rw [execUnknownQcmd, serveQop_of_passes h hp]

end

theorem respond_attested (u : State) (q : Req) : (respond (attested u q) q 0 []).obj kAttestRecord = leNat (attestRecord u q.body) := by
  change objGet (respond (attested u q) q 0 []).dp kAttestRecord = _
  rw [respond_dp]
  exact (obj_setObj_other _ _ (by decide)).trans (obj_setObj_same u _ _)

/-! ## Flushing the log (R585, R586) -/

/-- The log after its first waiting entry has reached management flash, behind others and without wrapping. -/
def flushedOne (l : Log) (e : LogEntry) (es : List LogEntry) : Log :=
  { l with sram := es, flash := l.flash ++ [{ e with chain := sha256 (l.headChain ++ entryTail e) }]
           headChain := sha256 (l.headChain ++ entryTail e) }

theorem flushOne_of_room {l : Log} {e : LogEntry} {es : List LogEntry} (hs : l.sram = e :: es) (hf : l.flash ≠ [])
    (hn : l.flash.length < 65536) : flushOne l = flushedOne l e es := by
  have hempty : l.flash.isEmpty = false := by simpa using hf
  have hover : l.flash.length + 1 - logKept = 0 := by unfold logKept; omega
  simp only [flushOne, hs, chainFrom, hempty, Bool.false_eq_true, if_false, List.length_append, List.length_singleton, hover, if_true,
    List.drop_zero]
  rfl

theorem exec_logFlush_one {s : State} {e : LogEntry} {es : List LogEntry} (hon : s.off = false) (hs : s.dp.log.sram = e :: es)
    (hd : s.dp.log.dropFrom = 0) (hf : s.dp.log.flash ≠ []) (hn : s.dp.log.flash.length < 65536) :
    exec (.logFlush 1) s = .next (s.inside (s.setDp { s.dp with log := flushedOne s.dp.log e es })) := by
  have hone : min 1 s.dp.log.sram.length = 1 := by simp [hs]
  have hdrop : (flushedOne s.dp.log e es).dropFrom = 0 := hd
  change execLogFlush 1 s = _
  rw [execLogFlush, live_on _ hon]
  simp only [hone, flushMany, flushOne_of_room hs hf hn, noteDropped, hdrop, true_or, if_true]

/-- Settles O51: each request by its command, and a flush of the first waiting entry behind those that management flash holds. That MGR is
answered with 0 whatever it says is log 18. -/
theorem logAndAttestation : Obligations.LogAndAttestation := by
  refine ⟨fun s u f q h => ⟨exec_logRead h, fun hc hb => ⟨_, exec_attest h hc hb, respond_attested u q⟩, exec_mgr h,
      exec_unknownQcmd h⟩,
    fun s e es hon hs hd hf hn => ⟨_, exec_logFlush_one hon hs hd hf hn, rfl, rfl, rfl⟩⟩

end Sys2Proof.Proofs.QopRequests
end

section
/-! SUPPORT. The family of 17_management.md, part 3: the discipline of the timebase, and answers to the network. -/

namespace Sys2Proof.Proofs.Timebase

open Sys2Proof.Machine

/-! ## An offset estimate (R592, R593) -/

section
variable {s : State} {off : Int}

theorem disciplined_of_locked (h : s.ptp.locked = true) :
    disciplined s off = if 1000 < off.natAbs then s.bump kPtpSlewCount 1 else s := if_pos h

theorem disciplined_of_unlocked (h : s.ptp.locked = false) :
    disciplined s off = if off < 0 then s.setDp { s.dp with time := s.dp.time + off.natAbs } else s := if_neg (ne_true_of_eq_false h)

theorem disciplined_ptp : (disciplined s off).ptp = s.ptp := by
  unfold disciplined
  split
  · split <;> rfl
  · split <;> rfl

/-- By rate the timebase is not stepped. -/
theorem disciplined_time_of_locked (h : s.ptp.locked = true) : (disciplined s off).time = s.time := by
  rw [disciplined_of_locked h]
  split
  · exact bump_time _ _ _
  · rfl

theorem disciplined_time_of_unlocked (h : s.ptp.locked = false) :
    (disciplined s off).time = if off < 0 then s.time + off.natAbs else s.time := by
  rw [disciplined_of_unlocked h]
  split <;> rfl

/-- The timebase never goes back (R593). -/
theorem le_disciplined_time : s.time ≤ (disciplined s off).time := by
  cases h : s.ptp.locked with
  | true => exact (disciplined_time_of_locked h).ge
  | false =>
    rw [disciplined_time_of_unlocked h]
    split <;> omega

theorem disciplined_slews_of_locked (h : s.ptp.locked = true) : (disciplined s off).obj kPtpSlewCount =
    if 1000 < off.natAbs then min (s.obj kPtpSlewCount + 1) (2 ^ 64 - 1) else s.obj kPtpSlewCount := by
  rw [disciplined_of_locked h]
  split
  · exact obj_bump_one s kPtpSlewCount
  · rfl

/-- The device after an offset estimate, before the clock's state is set. -/
def estimated (s : State) (p : Nat) (off : Int) : State :=
  ((disciplined s off).setObj kPtpOffsetNs (ofSigned 32 off)).setObj kPtpPort p

theorem estimated_objects (p : Nat) : (estimated s p off).obj kPtpPort = p ∧ (estimated s p off).obj kPtpOffsetNs = ofSigned 32 off ∧
    (estimated s p off).obj kPtpSlewCount = (disciplined s off).obj kPtpSlewCount := by
  refine ⟨obj_setObj_same _ _ _, ?_, ?_⟩
  · exact (obj_setObj_other _ _ (by decide)).trans (obj_setObj_same _ _ _)
  · exact (obj_setObj_other _ _ (by decide)).trans (obj_setObj_other _ _ (by decide))

/-- The clock's state after an estimate (R592). -/
def ptpAfter (x : Ptp) (off : Int) : Ptp :=
  if off.natAbs ≤ 10 then { st := 2, locked := true } else if x.st = 2 then x else { x with st := 1 }

/-! ## The commands of a device whose firmware is up (R590 to R593) -/

variable {p : Nat} (hon : s.off = false) (hup : mgmtUp s = true) (hp : p < 2)
include hon hup hp

theorem exec_ptpMessage :
    exec (.ptpMessage p off) s = .next (s.inside { estimated s p off with ptp := ptpAfter s.ptp off }) := by
  have hptp : (estimated s p off).ptp = s.ptp := disciplined_ptp
  change execPtpMessage p off s = _
  rw [execPtpMessage, if_neg (by omega), live_on _ hon, hup]
  change Host.Outcome.next (s.inside (if off.natAbs ≤ 10 then { estimated s p off with ptp := { st := 2, locked := true } }
    else if (estimated s p off).ptp.st = 2 then estimated s p off
    else { estimated s p off with ptp := { (estimated s p off).ptp with st := 1 } })) = _
  unfold ptpAfter
  rw [hptp]
  split
  · rfl
  · split
    · rw [← hptp]
    · rfl

theorem exec_icmpv6Echo (payload : List Nat) :
    exec (.icmpv6Echo p payload) s = .next { s with out := s.out ++ [⟨.icmp, p, payload⟩] } := by
  change execIcmpv6Echo p payload s = _
  rw [execIcmpv6Echo, if_neg (by omega), live_on _ hon, hup]
  rfl

/-- A port answers for its own addresses: the link-local one, and the one that is set. -/
theorem exec_neighbourDiscovery (target : Nat) : exec (.neighbourDiscovery p target) s = .next
    (if target = linkLocal ∨ target ≠ 0 ∧ target = s.obj (kNetAddr0 + p) then { s with out := s.out ++ [⟨.neighbour, p, [target]⟩] }
     else s) := by
  change execNeighbourDiscovery p target s = _
  rw [execNeighbourDiscovery, if_neg (by omega), live_on _ hon, hup]
  simp only [Bool.true_and, Bool.or_eq_true, Bool.and_eq_true, beq_iff_eq, bne_iff_ne]
  split <;> rfl

end

/-- Settles O56: an estimate by whether the clock has been LOCKED and by the offset; each address of a port by whether it is one. That
LOCKED is left only to HOLDOVER, that the timebase is stepped only before the first LOCKED and slews are counted only after it, and
that PTP_PORT is the latest message's port, is log 60; the bytes of the answers are log 70. -/
theorem timebaseAndNetwork : Obligations.TimebaseAndNetwork := by
  intro s p hon hup hp
  refine ⟨fun off => ⟨_, exec_ptpMessage hon hup hp, ?_⟩, fun hst => ?_, exec_icmpv6Echo hon hup hp,
    exec_neighbourDiscovery hon hup hp⟩
  · obtain ⟨hport, hoff, hslew⟩ := estimated_objects (s := s) (off := off) p
    refine ⟨le_disciplined_time (s := s) (off := off), hport, hoff,
      fun hl => ⟨disciplined_time_of_locked (off := off) hl, hslew.trans (disciplined_slews_of_locked hl)⟩,
      fun hl => disciplined_time_of_unlocked (off := off) hl, fun hnear => ?_, fun hfar hst => ?_⟩
    · simp [ptpAfter, hnear]
    · simp [ptpAfter, Nat.not_le.mpr hfar, hst]
  · change execPtpHoldover s = _
    rw [execPtpHoldover, live_on _ hon, if_neg hst]
    rfl

end Sys2Proof.Proofs.Timebase
end

section
/-! SUPPORT. The family of 20_bringup_and_test.md, part 1: stages 1 to 7 of start-up. -/

namespace Sys2Proof.Proofs.StartUp

open Sys2Proof.Machine
open Sys2Proof.Proofs.MemoryChannels
open Sys2Proof.Proofs.ContextCommands

/-! ## A stage that completes, and one that fails (R644, R651) -/

/-- The device with a stage completed that had not been. -/
def withStage (s : State) (n : Nat) : State := { s with boot := { s.boot with done := s.boot.done ++ [n] } }

section
variable {s : State} {n : Nat}

theorem not_done_of_ready {after : List Nat} (h : stageReady s n after = true) : s.boot.done.contains n = false := by
  simp only [stageReady, Bool.and_eq_true, Bool.not_eq_true'] at h
  obtain ⟨⟨hn, -⟩, -⟩ := h
  exact hn

theorem stageDone_of_new (h : s.boot.done.contains n = false) : stageDone s n = withStage s n := if_neg (ne_true_of_eq_false h)

/-- A failure leaves what start-up has come to. -/
theorem bootFail_boot (cause unit : Nat) : (bootFail s cause unit).boot = s.boot := by
  unfold bootFail
  dsimp only
  split <;> rfl

theorem bootFail_fw (cause unit : Nat) : (bootFail s cause unit).fw = s.fw := by
  unfold bootFail
  dsimp only
  split <;> rfl

theorem bootFail_cause (cause unit : Nat) : (bootFail s cause unit).obj kBootFail = cause := by
  have hset : ((s.setObj kBootFail cause).setObj kStFailUnit unit).obj kBootFail = cause :=
    (obj_setObj_other _ _ (by decide)).trans (obj_setObj_same _ _ _)
  unfold bootFail
  dsimp only
  split
  · exact hset
  · exact (obj_log _ _ (by decide)).trans hset

theorem bootFail_unit (cause unit : Nat) : (bootFail s cause unit).obj kStFailUnit = unit := by
  unfold bootFail
  dsimp only
  split
  · exact obj_setObj_same _ _ _
  · exact (obj_log _ _ (by decide)).trans (obj_setObj_same _ _ _)

end

/-! ## Stage 1: the firmware slot (R578, R584) -/

theorem bootChoice_eq (f : Fw) : bootChoice f = 0 ∨ bootChoice f = 1 := by
  unfold bootChoice
  split_ifs <;> simp

/-- Where neither slot passes, both are REJECTED (log 56). -/
theorem chooseSlot_of_neither (f : Fw) :
    (chooseSlot f fun _ => false).2 = false ∧ (chooseSlot f fun _ => false).1.a.st = 7 ∧ (chooseSlot f fun _ => false).1.b.st = 7 := by
  rcases bootChoice_eq f with hk | hk <;> simp [chooseSlot, hk, Fw.setSlot]

section
variable {s : State} (hon : s.off = false)
include hon

section
variable (hr : stageReady s 1 [] = true)
include hr

theorem exec_stageRom_of_bad_root (a b : Bool) : exec (.stageRom false a b) s = .next (s.inside (bootFail s 0x0F20 noUnit)) := by
  change execStageRom false a b s = _
  rw [execStageRom, live_on _ hon, hr]
  rfl

theorem exec_stageRom (a b : Bool) : exec (.stageRom true a b) s = .next (s.inside
    (if (chooseSlot s.fw fun k => if k = 0 then a else b).2 then
      stageDone { s with fw := (chooseSlot s.fw fun k => if k = 0 then a else b).1 } 1
    else bootFail { s with fw := (chooseSlot s.fw fun k => if k = 0 then a else b).1 } 0x0F21 noUnit)) := by
  change execStageRom true a b s = _
  rw [execStageRom, live_on _ hon, hr]
  rfl

theorem exec_stageRom_of_neither : exec (.stageRom true false false) s =
    .next (s.inside (bootFail { s with fw := (chooseSlot s.fw fun _ => false).1 } 0x0F21 noUnit)) := by
  rw [exec_stageRom hon hr]
  simp only [ite_self, (chooseSlot_of_neither s.fw).1, Bool.false_eq_true, if_false]

theorem exec_stageRom_of_both {f : Fw} (hf : chooseSlot s.fw (fun _ => true) = (f, true)) :
    exec (.stageRom true true true) s = .next { s with fw := f, boot := { s.boot with done := s.boot.done ++ [1] } } := by
  have hd : ({ s with fw := f } : State).boot.done.contains 1 = false := not_done_of_ready hr
  rw [exec_stageRom hon hr]
  simp only [ite_self, hf, if_true, stageDone_of_new hd]
  rfl

end

/-! ## Stage 2 (R563) -/

theorem exec_stageMgmt (hr : stageReady s 2 [1] = true) {recs : List CfgRecord} {u : State}
    (hu : (recordsToApply s recs).foldl applyRecord s = u) :
    exec (.stageMgmt recs) s = .next (s.inside (stageDone (raiseRb u (u.fw.slot u.fw.running).secVersion) 2)) := by
  change execStageMgmt recs s = _
  rw [execStageMgmt, live_on _ hon]
  simp only [hr, hu, Bool.not_true, Bool.false_eq_true, if_false]

end

/-! ## Stage 3: training and repairs (R646, R649) -/

theorem repairRow_boot (hard : Bool) (s : State) (row : Nat) : (repairRow hard s row).boot = s.boot := rfl

/-- The device with the named rows repaired, and none named any more. -/
def repaired (s : State) (spareRows : List Nat) : State :=
  let s1 := s.dp.repairRows.foldl (fun s r => repairRow (spareRows.contains r) s r) s
  s1.setDp { s1.dp with repairRows := [] }

theorem repaired_boot (s : State) (spareRows : List Nat) : (repaired s spareRows).boot = s.boot :=
  foldl_keeps State.boot (fun s r => repairRow_boot _ s r) s.dp.repairRows s

section
variable {s : State} (hon : s.off = false) (hr : stageReady s 3 [2] = true)
include hon hr

theorem exec_stageHbm_of_failed (stack : Nat) (rows : List Nat) :
    exec (.stageHbm (some stack) rows) s = .next (s.inside (bootFail s 0x0F22 noUnit)) := by
  change execStageHbm (some stack) rows s = _
  rw [execStageHbm, live_on _ hon, hr]
  rfl

theorem exec_stageHbm_of_cold (hw : isWarm s = false) (rows : List Nat) :
    exec (.stageHbm none rows) s = .next (s.inside (withStage (repaired s rows) 3)) := by
  have hd : (repaired s rows).boot.done.contains 3 = false := by
    rw [repaired_boot]
    exact not_done_of_ready hr
  change execStageHbm none rows s = _
  rw [execStageHbm, live_on _ hon, hr, hw, ← stageDone_of_new hd]
  rfl

end

/-! ## Stage 4: the traffic tests and the zero fill (R647 to R649) -/

theorem repairChannel_boot (s : State) (t : ChanTest) : (repairChannel s t).boot = s.boot :=
  (foldl_keeps State.boot (fun s r => repairRow_boot _ s r) _ _).trans (foldl_keeps State.boot (fun s r => repairRow_boot _ s r) _ _)

theorem channelResults_boot (s : State) (results : List ChanTest) : (channelResults s results).boot = s.boot := by
  rw [channelResults, foldl_keeps State.boot]
  exact fun _ _ => rfl

/-- The device after the traffic tests: what they named is repaired, and every channel has its result. -/
def channelsTested (s : State) (results : List ChanTest) : State := channelResults (results.foldl repairChannel s) results

theorem channelsTested_boot (s : State) (results : List ChanTest) : (channelsTested s results).boot = s.boot :=
  (channelResults_boot _ _).trans (foldl_keeps State.boot repairChannel_boot _ _)

theorem byteAt_hbm (s : State) (k : Nat) : byteAt s 1 k = memByte s.dp.mem.hbm k := rfl

theorem zeroFill_reads_zero (d : Dp) {k : Nat} (hk : k % Config.stackBytes < openBytes) : memByte (zeroFill d).mem.hbm k = 0 := by
  rw [memByte, zeroFill, kvGet_filter_dropped]
  · rfl
  · exact fun _ => decide_eq_false (Nat.not_le.mpr hk)

/-- The device with its memory filled with zeros. -/
def zeroFilled (s : State) : State := s.setDp (zeroFill s.dp)

theorem zeroFilled_boot (s : State) : (zeroFilled s).boot = s.boot := rfl
theorem zeroFilled_dp (s : State) : (zeroFilled s).dp = zeroFill s.dp := rfl
theorem zeroFill_poison (d : Dp) : (zeroFill d).poison = [] := rfl

@[simp] theorem withStage_done (s : State) (n : Nat) : (withStage s n).boot.done = s.boot.done ++ [n] := rfl
@[simp] theorem withStage_dp (s : State) (n : Nat) : (withStage s n).dp = s.dp := rfl

section
variable {s : State} (hon : s.off = false)
include hon

section
variable (hr : stageReady s 4 [3] = true) (hw : isWarm s = false)
include hr hw

theorem exec_stageHbmtest_of_failure {results : List ChanTest} {x : ChanTest} (hx : results.find? (·.stillFails) = some x) :
    exec (.stageHbmtest results) s = .next (s.inside (bootFail (channelsTested s results) 0x0F23 (512 + x.chan))) := by
  change execStageHbmtest results s = _
  rw [execStageHbmtest, live_on _ hon, hr, hw]
  simp only [hx]
  rfl

theorem exec_stageHbmtest_of_pass {results : List ChanTest} (hx : results.find? (·.stillFails) = none) :
    exec (.stageHbmtest results) s = .next (s.inside (withStage (zeroFilled (channelsTested s results)) 4)) := by
  have hd : (zeroFilled (channelsTested s results)).boot.done.contains 4 = false := by
    rw [zeroFilled_boot, channelsTested_boot]
    exact not_done_of_ready hr
  change execStageHbmtest results s = _
  rw [execStageHbmtest, live_on _ hon, hr, hw, ← stageDone_of_new hd]
  simp only [hx]
  rfl

end

/-! ## Stages 5 to 7 (R337, R650, R651) -/

section
variable (hr : stageReady s 5 [2] = true)
include hr

theorem exec_stageBaytest_of_pass : exec (.stageBaytest none) s = .next (withStage s 5) := by
  change execStageBaytest none s = _
  rw [execStageBaytest, live_on _ hon, hr]
  change Host.Outcome.next (s.inside (stageDone s 5)) = _
  rw [stageDone_of_new (not_done_of_ready hr)]
  rfl

theorem exec_stageBaytest_of_failure (u : Nat) :
    exec (.stageBaytest (some (u, 0x0F25))) s = .next (s.inside (bootFail s 0x0F25 u)) := by
  change execStageBaytest (some (u, 0x0F25)) s = _
  rw [execStageBaytest, live_on _ hon, hr]
  rfl

end

section
variable (hr : stageReady s 6 [2] = true) (a b c : Nat)
include hr

theorem exec_stageFtl_of_bad_journal : exec (.stageFtl false a b c) s = .next (s.inside (bootFail s 0x0F26 noUnit)) := by
  change execStageFtl false a b c s = _
  rw [execStageFtl, live_on _ hon, hr]
  rfl

/-- The device with what start-up finds of its flash. -/
def flashFound (s : State) (spare life bad : Nat) : State :=
  s.setDp { s.dp with ftl := { s.dp.ftl with spare := spare, lifeUsed := life, badBlocks := bad } }

theorem exec_stageFtl_of_journal : exec (.stageFtl true a b c) s = .next (s.inside (withStage (flashFound s a b c) 6)) := by
  have hd : (flashFound s a b c).boot.done.contains 6 = false := not_done_of_ready hr
  change execStageFtl true a b c s = _
  rw [execStageFtl, live_on _ hon, hr, ← stageDone_of_new hd]
  rfl

end

theorem exec_stageLinks_of_up (hup : mgmtUp s = true) (hp : portUp s 0 = true ∨ portUp s 1 = true)
    (hd : s.boot.done.contains 7 = false) : exec .stageLinks s = .next (withStage s 7) := by
  change execStageLinks s = _
  rw [execStageLinks, live_on _ hon, if_pos ⟨hup, by simpa using hp⟩, stageDone_of_new hd]
  rfl

end

end Sys2Proof.Proofs.StartUp
end

section
/-! SUPPORT. The family of 20_bringup_and_test.md, part 2: pairing, the report to the leaf manager, and start-up as a whole. -/

namespace Sys2Proof.Proofs.Pairing

open Sys2Proof.Machine
open Sys2Proof.Proofs.StartUp

/-! ## Pairing (R652, R653) -/

/-- What a refused offer leaves: the twin as it is, the time, and one more refusal counted. -/
theorem tryPair_of_refused {s : State} {p : PairOffer} (h : pairRefused p = true) :
    (tryPair s p).twin = s.twin ∧ (tryPair s p).boot.refusedAt = some s.time ∧
      (tryPair s p).obj kPairRefusedCount = min (s.obj kPairRefusedCount + 1) (2 ^ 64 - 1) := by
  rw [tryPair, if_pos h]
  exact ⟨rfl, rfl, obj_bump_one s kPairRefusedCount⟩

/-- The twin of a device that has paired after an offer. -/
def pairedTwin (t : Twin) (p : PairOffer) : Twin :=
  { t with st := 2, member := if Config.deviceId.toNat < p.id then 0 else 1, epoch := (t.epoch + 1) % 2 ^ 32
           partner := p.id, addr := p.addr, paired := true, missed := 0, beat := false, probeAt := none }

/-- A device that has paired after an offer, before stage 8 completes. -/
def pairedWith (s : State) (p : PairOffer) : State :=
  { setTwin s (pairedTwin s.twin p) with dp := { s.dp with partnerPages := p.pages }, boot := { s.boot with refusedAt := none } }

theorem pairWith_of_done {s : State} (p : PairOffer) (h : s.boot.done.contains 8 = true) : pairWith s p = pairedWith s p := if_pos h

theorem pairWith_of_new {s : State} (p : PairOffer) (h : s.boot.done.contains 8 = false) :
    pairWith s p = withStage ((pairedWith s p).setObj kBootTimeMs ((s.time - s.boot.since) / 1000000)) 8 :=
  (if_neg (ne_true_of_eq_false h)).trans (stageDone_of_new h)

/-- What an offer leaves that nothing refuses. -/
theorem tryPair_of_accepted {s : State} {p : PairOffer} (h : pairRefused p = false) :
    (tryPair s p).twin = pairedTwin s.twin p ∧ (tryPair s p).boot.done.contains 8 = true ∧ (tryPair s p).boot.refusedAt = none := by
  rw [tryPair, if_neg (ne_true_of_eq_false h)]
  cases hd : s.boot.done.contains 8 with
  | true =>
    rw [pairWith_of_done p hd]
    exact ⟨rfl, hd, rfl⟩
  | false =>
    rw [pairWith_of_new p hd]
    exact ⟨rfl, by simp [withStage], rfl⟩

section
variable {s : State} (hon : s.off = false)
include hon

/-- A first attempt, or one that comes 100 ms after a refusal. -/
theorem exec_tryPair (hr : pairReady s = true) {p : PairOffer} {i : Instr} (hi : (i = .stagePair p ∧ s.boot.refusedAt = none) ∨
    (i = .pairRetry p ∧ ∃ at_, s.boot.refusedAt = some at_ ∧ s.expired at_ 100000000 = true)) :
    exec i s = .next (s.inside (tryPair s p)) := by
  rcases hi with ⟨rfl, hnone⟩ | ⟨rfl, at_, hat, he⟩
  · change execStagePair p s = _
    rw [execStagePair, live_on _ hon, if_pos ⟨hr, by rw [hnone]; rfl⟩]
  · change execPairRetry p s = _
    rw [execPairRetry, live_on _ hon]
    simp only [hat, hr, he, and_self, if_true]

/-! ## The report to the leaf manager (R654) -/

/-- The first report, or one that comes again 1 s after the latest. -/
theorem exec_pairReport (ha : s.obj kLeafMgrAddr ≠ 0) {i : Instr} (hi : (i = .stageJoin ∧ stageReady s 9 [8] = true ∧
      s.boot.reportAt = none) ∨
    (i = .managerReportRetry ∧ ∃ at_, s.boot.reportAt = some at_ ∧ s.expired at_ 1000000000 = true)) :
    exec i s = .next (s.inside (pairReport s)) := by
  rcases hi with ⟨rfl, hr, hnone⟩ | ⟨rfl, at_, hat, he⟩
  · change execStageJoin s = _
    rw [execStageJoin, live_on _ hon, if_pos ⟨hr, by rw [hnone]; rfl, ha⟩]
  · change execManagerReportRetry s = _
    rw [execManagerReportRetry, live_on _ hon]
    simp only [hat, he, ne_eq, ha, not_false_eq_true, and_self, if_true]

theorem exec_managerReportAck {at_ : Nat} (hat : s.boot.reportAt = some at_) (hd : s.boot.done.contains 9 = false) :
    exec .managerReportAck s = .next (withStage { s with boot := { s.boot with reportAt := none } } 9) := by
  have hd' : ({ s with boot := { s.boot with reportAt := none } } : State).boot.done.contains 9 = false := hd
  change execManagerReportAck s = _
  rw [execManagerReportAck, live_on _ hon, if_pos (by rw [hat]; rfl), stageDone_of_new hd']
  rfl

end

/-! ## The nine stages -/

/-- Settles O58: each stage by what it finds. That both slots are REJECTED where neither passes is log 56; that one ACTIVE ZelugLink port
completes stage 7, and that a report needs a manager's address, is log 57; the number of the report is log 18. -/
theorem startUpStages : Obligations.StartUpStages := by
  intro s hon
  refine ⟨fun hr => ⟨fun a b => ⟨_, exec_stageRom_of_bad_root hon hr a b, bootFail_cause _ _, bootFail_boot _ _⟩,
      ⟨_, exec_stageRom_of_neither hon hr, bootFail_cause _ _, bootFail_boot _ _, ?_, ?_⟩, fun f => exec_stageRom_of_both hon hr⟩,
    fun hr recs u => exec_stageMgmt hon hr,
    fun hr => ⟨fun stack rows => ⟨_, exec_stageHbm_of_failed hon hr stack rows, bootFail_cause _ _, bootFail_boot _ _⟩,
      fun hw rows => ⟨_, exec_stageHbm_of_cold hon hr hw rows, ?_, rfl⟩⟩,
    fun hr hw results => ⟨fun hall => ?_, fun x hx =>
      ⟨_, exec_stageHbmtest_of_failure hon hr hw hx, ?_⟩⟩,
    fun hr => ⟨exec_stageBaytest_of_pass hon hr,
      fun u => ⟨_, exec_stageBaytest_of_failure hon hr u, bootFail_cause _ _, bootFail_unit _ _⟩⟩,
    fun hr => ⟨fun a b c => ⟨_, exec_stageFtl_of_bad_journal hon hr a b c, bootFail_cause _ _⟩,
      fun a b c => ⟨_, exec_stageFtl_of_journal hon hr a b c, rfl, rfl⟩⟩,
    exec_stageLinks_of_up hon,
    fun hr p i hi => ⟨fun href => ⟨_, exec_tryPair hon hr hi, tryPair_of_refused href⟩, fun hacc => ?_⟩,
    fun ha i hi => ⟨_, exec_pairReport hon ha hi, rfl, rfl, rfl⟩,
    fun at_ => exec_managerReportAck hon⟩
  · rw [State.inside_fw, bootFail_fw]
    exact (chooseSlot_of_neither s.fw).2.1
  · rw [State.inside_fw, bootFail_fw]
    exact (chooseSlot_of_neither s.fw).2.2
  · exact congrArg (fun b => b.done ++ [3]) (repaired_boot s rows)
  · have hnone : results.find? (·.stillFails) = none := by simpa using hall
    refine ⟨_, exec_stageHbmtest_of_pass hon hr hw hnone, ?_⟩
    rw [State.inside_boot, withStage_done, zeroFilled_boot, channelsTested_boot, State.inside_dp, withStage_dp, zeroFilled_dp,
      zeroFill_poison]
    refine ⟨rfl, rfl, fun k hk => ?_⟩
    rw [byteAt_hbm, State.inside_dp, withStage_dp, zeroFilled_dp]
    exact zeroFill_reads_zero _ hk
  · rw [obj_inside, obj_inside, bootFail_cause, bootFail_unit]
    exact ⟨rfl, rfl⟩
  · obtain ⟨htwin, hdone, href⟩ := tryPair_of_accepted (s := s) hacc
    refine ⟨_, exec_tryPair hon hr hi, ?_⟩
    rw [State.inside_twin, State.inside_boot, htwin]
    exact ⟨rfl, rfl, rfl, rfl, rfl, hdone, href⟩

end Sys2Proof.Proofs.Pairing
end
